-- ==== Sys2Proof/Word.lean ====
section
/-! DEFINITION. The word types of the JX-B640 model: bytes, register words, lines and pages (00_scope R9, 06 R188). -/

namespace Sys2Proof

/-- A byte. -/
abbrev Byte := BitVec 8
/-- A register value; a 32-bit register uses the low half (R9). -/
abbrev Word := BitVec 64
/-- A 64-byte line, byte 0 in the least significant bits (R189). -/
abbrev Line := BitVec 512
/-- A 4 KiB page, byte 0 in the least significant bits (R188). -/
abbrev Page := BitVec 32768
/-- One bit per byte of a page. -/
abbrev PageMask := BitVec 4096
/-- Host link number, 4 × port + sub-link (R107). -/
abbrev LinkId := Fin 32
/-- LD-ID of a logical device (R2). -/
abbrev LdId := Fin 16
/-- Partition number. -/
abbrev PartId := Fin 16
/-- Hub die, H0 or H1 (R24). -/
abbrev HubId := Fin 2
/-- Module queue number, 0 to 4095 (R460). -/
abbrev QueueId := Fin 4096
/-- Core number, 8 × cluster + index (R382). -/
abbrev CoreId := Fin 256

end Sys2Proof
end

