-- ==== Sys2Proof/Machine/Types.lean ====
section
/-! DEFINITION. The types that commands carry and State holds: requesters, image records, Reflect records, environment readings. -/

namespace Sys2Proof

/-- Who makes a register access: the management plane, one logical device through BAR0 (R12), the rate-mode DVSEC in the configuration space of an LD, none for the fabric manager API (R119, R121),
or the other registers in the configuration space of an LD: its PCI Express capability and its CXL DVSEC (R95, R112). -/
inductive Req where
  | mgmt
  | ld (link : LinkId) (ld : LdId)
  | cfg (link : LinkId) (ld : Option LdId)
  | std (link : LinkId) (ld : LdId)
  deriving DecidableEq, Repr

/-- CXL.mem read opcodes (R112). -/
inductive ReadKind where
  | memRd | memRdData | memSpecRd
  deriving DecidableEq, Repr

/-- Protection of a range (R153): the ATTR codes 0 to 3. -/
inductive Attr where
  | priv | shared | frozen | window
  deriving DecidableEq, Repr

/-- DevLoad of an S2M response (R133). -/
inductive DevLoad where
  | light | optimal | moderate | severe
  deriving DecidableEq, Repr

/-- One PART range (R63). -/
structure RangeRec where
  base : Nat
  length : Nat
  target : Nat
  attr : Attr
  owner : Nat
  deriving DecidableEq, Repr

/-- The PART record (R63). -/
structure PartRec where
  id : Nat
  durable : Bool
  bindings : List (Nat × Nat)
  ranges : List RangeRec
  deepMissUs : Nat
  mergeQuota : Nat
  apparent : Nat
  quota0 : Nat
  quota1 : Nat
  quota2 : Nat
  queueBase : Nat
  queueCount : Nat
  syncBase : Nat
  syncCount : Nat
  deriving DecidableEq, Repr

/-- The PORT record (R60): bifurcation 0 x16, 1 two x8, 2 four x4; IDE 0 off, 1 offered, 2 required. -/
structure PortRec where
  port : Nat
  bifurcation : Nat
  rate : Nat
  ide : Nat
  deriving DecidableEq, Repr, Inhabited

/-- The TIER record (R244, R276): thresholds, epoch and the four LPDDR5X bank masks. -/
structure TierRec where
  promote21 : Nat
  promote10 : Nat
  demote01 : Nat
  demote12 : Nat
  epochMs : Nat
  masks : List Nat
  deriving DecidableEq, Repr

/-- One LENS range (R203); codec 255 is automatic. -/
structure LensRec where
  part : Nat
  base : Nat
  length : Nat
  codec : Nat
  param : Nat
  deriving DecidableEq, Repr

/-- The CODE record (R331, R276): strengths, scrub rate and the four HBM4 bank masks. -/
structure CodeRec where
  parity0 : Nat
  parity1 : Nat
  parity2 : Nat
  scrubRate : Nat
  masks : List Nat
  deriving DecidableEq, Repr

/-- One QOS class (R502). -/
structure QosClass where
  latNs : Nat
  floor : Nat
  guaranteed : Bool
  deriving DecidableEq, Repr

/-- One QOS master entry (R502): source 0 bindings, 1 queues. -/
structure QosMaster where
  source : Nat
  cls : Nat
  urg : Nat
  pinLevels : Nat
  first : Nat
  last : Nat
  deriving DecidableEq, Repr

/-- The QOS record (R502). -/
structure QosRec where
  part : Nat
  dirShare : Nat
  missVec : Nat
  hostBudget : Nat
  compBudget : Nat
  classes : List QosClass
  masters : List QosMaster
  deriving DecidableEq, Repr

/-- One partition's entry of the MIRROR record (R523). -/
structure MirrorEntry where
  role : Nat
  async : Bool
  takeover : Bool
  epochUs : Nat
  deriving DecidableEq, Repr

/-- The MIRROR record (R523). -/
structure MirrorRec where
  timeoutUs : Nat
  entries : List MirrorEntry
  deriving DecidableEq, Repr

/-- The SPARE record (R302). -/
structure SpareRec where
  lpOnCommand : Bool
  flOnCommand : Bool
  opExtra : Nat
  deriving DecidableEq, Repr

/-- The POWER record (R546). -/
structure PowerRec where
  capW : Nat
  deepest : Nat
  pasrNight : Nat
  pasrEclipse : Nat
  drainUs : Nat
  dirtyBudget : Nat
  deriving DecidableEq, Repr

/-- One entry of a CLOCK record's table: body bias in mV and SRAM assist of a core island in a power state (R60, R547). -/
structure BiasRec where
  body : Int
  assist : Nat
  deriving DecidableEq, Repr, Inhabited

/-- A record of a structure image (R60). `skipped` is an unknown optional record (R62). -/
inductive ImgRec where
  | port (r : PortRec)
  | part (r : PartRec)
  | tier (r : TierRec)
  | lens (r : LensRec)
  | code (r : CodeRec)
  | comp (part : Nat) (mask : Nat)
  | route (cluster : Nat) (sixteenths : Nat)
  | clock (core : Nat) (tenMHz : Nat) (bias : List BiasRec)
  | qos (r : QosRec)
  | mirror (r : MirrorRec)
  | spare (r : SpareRec)
  | power (r : PowerRec)
  | shadow (part : Nat) (enable : Bool)
  | skipped (type : Nat)
  deriving DecidableEq, Repr

/-- A structure image after its bytes have been read (R53 to R55). `digest` is the SHA-384 of its signed bytes. -/
structure Image where
  kind : Nat
  target : Nat
  sequence : Nat
  minFw : Nat
  records : List ImgRec
  digest : BitVec 384
  deriving DecidableEq, Repr

/-- What a link partner offers at training (R116, R118). Rates in GT/s. -/
structure Partner where
  switch : Bool
  cxl : Bool
  flit256 : Bool
  loFlit : Bool
  rates : List Nat
  width : Nat
  l0p : Bool
  ide : Bool
  retimers : Nat
  deriving DecidableEq, Repr

/-- What the environment shows a start sequence (R42, R93, R99): strap samples, pin order of R87; damaged firmware banks;
controllers that fail training or whose eye is marginal; controllers whose saved training cannot be used (R286); bays. -/
structure StartEnv where
  samples : List (BitVec 8)
  bankABad : Bool
  bankBBad : Bool
  lpFail : List Nat
  hbmFail : List Nat
  /-- Lanes whose eye is narrower than 12 taps: controller, byte lane, and whether it is the write eye (R285). -/
  marginal : List (Nat × Nat × Bool)
  resweep : List Nat
  bayPresent : BitVec 4
  refclkAbsent : BitVec 8
  deriving DecidableEq, Repr, Inhabited

/-- An eye edge of a byte lane that a probe finds moved (R287): the lane, whether it is the write eye, and whether its delay shifts up. -/
structure LaneMove where
  lane : Nat
  write : Bool
  up : Bool
  deriving DecidableEq, Repr

/-- A clock island (R30). -/
inductive Island where
  | core (n : Nat) | cluster (n : Nat) | hub (n : Nat) | hbm (n : Nat) | lpddr (n : Nat)
  | onfi (n : Nat) | link (n : Nat) | mirror (n : Nat) | always
  deriving DecidableEq, Repr


/-- A unit with a flip mask (R348): Lens 0–47, LPDDR5X 0–33, HBM4 stack 0–7, flash controller 0–31. -/
inductive FlipUnit where
  | lens (u : Fin 48) | lpc (c : Fin 34) | hbc (s : Fin 8) | flc (f : Fin 32)
  deriving DecidableEq, Repr

/-- What asks for a sync operation: a descriptor of a queue (R471) or the SYNC instruction at a core's pc (R454). -/
inductive SyncSrc where
  | desc (q : QueueId) (count : Nat)
  | core (c : CoreId)
  deriving DecidableEq, Repr

/-- An operation that waited on a crossing, whose data its FIFOs held (R32, R34). -/
inductive WaitOp where
  | hostRead (link : LinkId) (tag : Nat)
  | hostWrite (link : LinkId) (tag : Nat)
  | access (req : Req) (off : Nat)
  | sync (src : SyncSrc)
  | move (part : PartId) (frame : Nat)
  | desc (q : QueueId) (count : Nat)
  | kernel (id : Nat)
  deriving DecidableEq, Repr

/-- What asked for a flush (R213). -/
inductive FlushWho where
  | part (p : PartId)
  | desc (q : QueueId) (count : Nat)
  deriving DecidableEq, Repr

/-- Who waits on a flash-homed page (R307). -/
inductive FlashWaiter where
  | desc (q : QueueId) (count : Nat)
  | kernel (id : Nat)
  | ring (q : QueueId)
  deriving DecidableEq, Repr

/-- Why a kernel ends (R369), in the table's order. -/
inductive EndCause where
  | normal | fetchFault | uncorrectable | range | denied | nospace | timeLimit | crossing | reset | quarantined
  deriving DecidableEq, Repr

/-- A NAND operation (R307). -/
inductive NandOp where
  | read | program | erase | suspend
  deriving DecidableEq, Repr

/-- Background work of the FTL (R306) and the stripes or blocks it touched. -/
inductive FtlWork where
  | collect (stripes : Nat)
  | restripe (stripes : Nat)
  | rebuild (stripes : Nat)
  | evacuate (bay : Fin 4) (stripes : Nat)
  | rekey (part : PartId) (pages : Nat)
  | erase (ctrl : Fin 32) (lun : Fin 16) (blocks : Nat)
  | blockFail (ctrl : Fin 32)
  deriving DecidableEq, Repr

/-- Refresh commands (R288). -/
inductive RefreshKind where
  | perBank | management
  deriving DecidableEq, Repr

/-- A memory controller: LPDDR5X channel or HBM4 stack (R269). -/
inductive MemCtrl where
  | lpc (c : Fin 34) | hbc (s : Fin 8)
  deriving DecidableEq, Repr

/-- Which way a traffic measurement asks a link's width to change (R125); traffic in thousandths of the stated width. -/
inductive WidthMeasure where
  | narrow (worstOfHalf : Nat)
  | widen (worstOfFull : Nat) (guaranteedWaits : Bool)
  deriving DecidableEq, Repr

/-- What brings a link out of L1 (R127). -/
inductive L1Wake where
  | msix | dma | partner
  deriving DecidableEq, Repr

/-- One partition's part of a HELLO (R525, R526). -/
structure HelloPart where
  digestsAgree : Bool
  role : Nat
  generation : Nat
  wasMirrored : Bool
  deriving DecidableEq, Repr

/-- The partner's HELLO on one mirror link (R525). -/
structure Hello where
  identity : BitVec 64
  port : Nat
  pairFirst : Bool
  pairSecond : Bool
  fwMajor : Nat
  mirrorDigestAgrees : Bool
  rate : Nat
  parts : List HelloPart
  deriving DecidableEq, Repr

/-- The state of one queue as a TABLE record ships it (R528): per fetched descriptor its count and whether it has completed. -/
structure QueueShip where
  queue : Nat
  ringBase : Word
  ctrl : Word
  head : Word
  tail : Word
  seed : Word
  launchNo : Word
  fetched : List (Nat × Bool)
  deriving DecidableEq, Repr

/-- A Reflect record (R528). Addresses are apparent addresses; a PAGE carries the decoded page. -/
inductive MirRec where
  | line (addr : Nat) (be : BitVec 64) (poison : Bool) (data : Line)
  | page (addr : Nat) (codec param len gen : Nat) (poison : BitVec 64) (data : Page)
  | zero (addr : Nat) (value : Word)
  | map (frame : Nat) (pin : Nat) (lost : List Nat) (poisonAdd poisonDel : List (Nat × Nat)) (clear : Bool)
  | sync (obj : Nat) (value target lock owner share : Nat)
  | table (part : PartRec) (lens : List LensRec) (comp : Nat) (qos : Option QosRec) (queues : List QueueShip)
  deriving DecidableEq, Repr

/-- An epoch as it arrives (R531), with the outcome of its CRC and count checks (R532), and when its sender closed it, on this module's clock in ns (R537). -/
structure Epoch where
  part : PartId
  hub : HubId
  async : Bool
  rebuild : Bool
  number : Nat
  generation : Nat
  records : List MirRec
  complete : Bool
  crcOk : Bool
  closedAt : Nat
  deriving DecidableEq, Repr

/-- The secondary's answer to an epoch (R532): acknowledged; its CRC failed once, and it is wanted again; it failed twice. -/
inductive AckKind where
  | ok | again | failed
  deriving DecidableEq, Repr

/-- Why an epoch closes (R533, R534). -/
inductive EpochCause where
  | period | size | age | count | snapshot
  deriving DecidableEq, Repr

/-- One sample of the store monitor (R569): twelve cell readings and V_pack in mV, twelve temperatures in °C, charge moved in mC. -/
structure StoreSample where
  cells : List Nat
  packMv : Nat
  temps : List Nat
  chargeMc : Int
  deriving DecidableEq, Repr

/-- What one power-loop period measures (R593, R594): input W, per-core, per-stack and per-carrier temperatures. -/
structure LoopSample where
  inputW : Nat
  coreTemps : List (Nat × Nat)
  stackTemps : List (Nat × Nat)
  carrierTemps : List (Nat × Nat)
  deriving DecidableEq, Repr

/-- A measured window of one class (R514): largest latency, delivered GB/s, whether a request waited throughout, top consumer. -/
structure QosSample where
  latNs : Nat
  gbps : Nat
  waited : Bool
  top : Nat
  deriving DecidableEq, Repr

/-- A firmware package component under update (R595). -/
structure Component where
  id : Nat
  version : Nat
  security : Nat
  signatureOk : Bool
  digest : BitVec 384
  kernels : BitVec 32
  deriving DecidableEq, Repr

end Sys2Proof
end

