-- ==== Sys2Proof/Syntax.lean ====
section
/-! DEFINITION. The commands of the JX-B640 block: one constructor per row of spec/opcode_table.json, with the operands the sender gives. -/

namespace Sys2Proof

/-- A command: an access, a message, a pin event or an engine event. Each constructor names its row's governing rule. -/
inductive Instr where
  /-- R15 -/
  | registerWrite (req : Req) (off size val : Nat)
  /-- R12 -/
  | readLoLatch (req : Req) (off : Nat)
  /-- R13 -/
  | writeLoHeld (req : Req) (off : Nat) (val : BitVec 32)
  /-- R13 -/
  | writeHiApply (req : Req) (off : Nat) (val : BitVec 32)
  /-- R15 -/
  | readClear (req : Req) (off size : Nat)
  /-- R16 -/
  | feRegisterAccess (req : Req) (off size : Nat) (write : Option Nat)
  /-- R34 -/
  | crossingWatchdogExpiry (a b : Island) (since : Nat) (waiting : List WaitOp)
  /-- R35 -/
  | crossingAcknowledge (a b : Island)
  /-- R148 -/
  | hostMemRead (link : LinkId) (ld : LdId) (tag hpa : Nat) (kind : ReadKind)
  /-- R148 -/
  | hostMemWrite (link : LinkId) (ld : LdId) (tag hpa : Nat) (data : Line) (be : BitVec 64) (poison : Bool)
  /-- R112 -/
  | hostMemInvalidate (link : LinkId) (ld : LdId) (tag hpa : Nat) (nt : Bool)
  /-- R626 -/
  | eventGatherWindowEnd (kind key : Nat)
  /-- R71 -/
  | stagingWrite (off size val : Nat)
  /-- R71 -/
  | imageLoadStart
  /-- R65 -/
  | imageLoadComplete
  /-- R73 -/
  | clearPending
  /-- R58 -/
  | keyRevoke (mask : BitVec 4)
  /-- R90 -/
  | modRstAssert (ns : Nat)
  /-- R93 -/
  | modRstDeassert (env : StartEnv)
  /-- R99 -/
  | warmReset (env : StartEnv)
  /-- R100 -/
  | shutdown
  /-- R100 -/
  | shutdownComplete
  /-- R136 -/
  | flr (link : LinkId) (ld : LdId)
  /-- R92 -/
  | ldReset (link : LinkId) (ld : LdId)
  /-- R110 -/
  | perstAssert (port : Fin 8) (ns : Nat)
  /-- R94 -/
  | perstDeassert (port : Fin 8)
  /-- R116 -/
  | linkUp (link : LinkId) (partner : Partner)
  /-- R137 -/
  | linkDown (link : LinkId)
  /-- R122 -/
  | enable128 (link : LinkId)
  /-- R124 -/
  | retry (link : LinkId)
  /-- R124 -/
  | eqFail128 (link : LinkId)
  /-- R147 -/
  | retrain (link : LinkId)
  /-- R146 -/
  | linkDisable (link : LinkId)
  /-- R147 -/
  | linkEnable (link : LinkId)
  /-- R125 -/
  | l0pWidthChange (link : LinkId) (m : WidthMeasure)
  /-- R127 -/
  | aspmL1Entry (link : LinkId) (substate : Option (Fin 2)) (idleMs : Nat)
  /-- R127 -/
  | aspmL1Exit (link : LinkId) (wake : L1Wake)
  /-- R129 -/
  | ideKeyExchange (link : LinkId) (ld : Option LdId) (fresh ok : Bool)
  /-- R132 -/
  | ideCheckFail (link : LinkId)
  /-- R134 -/
  | busMasterDisable (link : LinkId) (ld : LdId)
  /-- R134 -/
  | busMasterEnable (link : LinkId) (ld : LdId)
  /-- R140 -/
  | cxlioCompletion (link : LinkId) (tag data : Nat)
  /-- R140 -/
  | cxlioCompletionTimeout (link : LinkId) (tag : Nat)
  /-- R112 -/
  | gpfPhase2 (link : LinkId)
  /-- R112 -/
  | fmLdBindUnbind (link : LinkId) (ld : LdId) (part : Option PartId)
  /-- R112 -/
  | fmLinkStateQuery (link : LinkId)
  /-- R115 -/
  | getEventRecords (link : LinkId) (ld : LdId) (log : Nat)
  /-- R115 -/
  | clearEventRecords (link : LinkId) (ld : LdId) (log : Nat) (all : Bool) (handles : List Nat)
  /-- R115 -/
  | getEventInterruptPolicy (link : LinkId) (ld : LdId)
  /-- R115 -/
  | setEventInterruptPolicy (link : LinkId) (ld : LdId) (policy : List Nat)
  /-- R115 -/
  | getFwInfo (link : LinkId) (ld : LdId)
  /-- R115 -/
  | getTimestamp (link : LinkId) (ld : LdId)
  /-- R115 -/
  | setTimestamp (link : LinkId) (ld : LdId) (ns : Nat)
  /-- R115 -/
  | getSupportedLogs (link : LinkId) (ld : LdId)
  /-- R115 -/
  | getLog (link : LinkId) (ld : LdId) (log off len : Nat)
  /-- R115 -/
  | identifyMemoryDevice (link : LinkId) (ld : LdId)
  /-- R115 -/
  | getHealthInfo (link : LinkId) (ld : LdId)
  /-- R115 -/
  | getAlertConfig (link : LinkId) (ld : LdId)
  /-- R115 -/
  | setAlertConfig (link : LinkId) (ld : LdId) (cfg : List Nat)
  /-- R343 -/
  | getPoisonList (link : LinkId) (ld : LdId) (dpa len : Nat)
  /-- R115 -/
  | injectPoison (link : LinkId) (ld : LdId) (dpa : Nat)
  /-- R343 -/
  | clearPoison (link : LinkId) (ld : LdId) (dpa : Nat) (data : Line)
  /-- R115 -/
  | getScanMediaCapabilities (link : LinkId) (ld : LdId)
  /-- R347 -/
  | scanMedia (link : LinkId) (ld : LdId) (dpa len : Nat)
  /-- R115 -/
  | getScanMediaResults (link : LinkId) (ld : LdId)
  /-- R143 -/
  | getLostResponses (link : LinkId) (ld : LdId) (skip : Nat)
  /-- R115 -/
  | cxlMboxUnsupported (link : LinkId) (ld : LdId) (opcode : Nat)
  /-- R162 -/
  | quiesceRequest (p : PartId)
  /-- R163 -/
  | partitionQuiesced (p : PartId)
  /-- R165 -/
  | quiesceLift (p : PartId)
  /-- R164 -/
  | quiesceAbort (p : PartId)
  /-- R167 -/
  | prtLivenessWrite (link : LinkId) (ld : LdId) (val : BitVec 32)
  /-- R167 -/
  | livenessTimeout (p : PartId)
  /-- R168 -/
  | quarantine (p : PartId)
  /-- R170 -/
  | lift (p : PartId)
  /-- R170 -/
  | release (p : PartId)
  /-- R179 -/
  | shwIndexLoWrite (link : LinkId) (ld : LdId) (val : BitVec 32)
  /-- R181 -/
  | shwIndexHiWrite (link : LinkId) (ld : LdId) (val : BitVec 32)
  /-- R181 -/
  | shadowSwapSwitch (p : PartId)
  /-- R181 -/
  | shadowWritebackDone (p : PartId)
  /-- R180 -/
  | shadowWindowAccess (link : LinkId) (ld : LdId) (off size : Nat) (write : Option (Nat × BitVec 64))
  /-- R207 -/
  | mergeFillArrive (p : PartId) (page : Nat)
  /-- R208 -/
  | mergeAgeExpiry (p : PartId) (page : Nat)
  /-- R206 -/
  | slotEncodeStart (h : HubId)
  /-- R210 -/
  | slotCommit (p : PartId) (page : Nat)
  /-- R212 -/
  | heldWriteRelease (h : HubId)
  /-- R226 -/
  | watermarkWrite (p : PartId) (val : BitVec 32)
  /-- R213 -/
  | partitionFlush (p : PartId)
  /-- R213 -/
  | flushComplete (who : FlushWho)
  /-- R220 -/
  | relocMoveHome (p : PartId) (frame : Nat)
  /-- R241 -/
  | agingEpoch
  /-- R242 -/
  | sweeperVisit (p : PartId) (frame : Nat)
  /-- R251 -/
  | moveStart (h : HubId)
  /-- R254 -/
  | moveCopyDone (p : PartId) (frame : Nat)
  /-- R259 -/
  | flashReadDataArrive (p : PartId) (page : Nat)
  /-- R260 -/
  | deepMissExpiry (link : LinkId) (tag : Nat)
  /-- R268 -/
  | mapRead
  /-- R252 -/
  | hintPrefetch (q : QueueId) (n : Nat)
  /-- R253 -/
  | hintPin (q : QueueId) (n : Nat)
  /-- R252 -/
  | hintUnpin (q : QueueId) (n : Nat)
  /-- R252 -/
  | hintDemote (q : QueueId) (n : Nat)
  /-- R287 -/
  | trainingProbe (m : MemCtrl) (moves : List LaneMove)
  /-- R288 -/
  | refreshIssue (m : MemCtrl) (kind : RefreshKind) (bank : Nat)
  /-- R292 -/
  | rowhammerWindowEnd
  /-- R281 -/
  | lpRebuildStart (g : Fin 2)
  /-- R281 -/
  | lpRebuildDone (g : Fin 2)
  /-- R307 -/
  | nandOpTimeout (f : Fin 32) (lun : Fin 16) (op : NandOp)
  /-- R307 -/
  | flashWaitTimeout (who : FlashWaiter)
  /-- R306 -/
  | ftlBackgroundWork (work : FtlWork)
  /-- R309 -/
  | restripe
  /-- R309 -/
  | restripeComplete
  /-- R315 -/
  | carrierInsert (bay : Fin 4)
  /-- R315 -/
  | bayButtonPress (bay : Fin 4)
  /-- R316 -/
  | remove (bay : Fin 4)
  /-- R316 -/
  | removalAbort (bay : Fin 4)
  /-- R316 -/
  | removalWindowExpiry (bay : Fin 4)
  /-- R316 -/
  | evacuationComplete (bay : Fin 4)
  /-- R318 -/
  | carrierPowerOn (bay : Fin 4)
  /-- R318 -/
  | powerOnWindowExpiry (bay : Fin 4)
  /-- R311 -/
  | carrierAdopted (bay : Fin 4) (bad : BitVec 8)
  /-- R312 -/
  | carrierRebuildDone (bay : Fin 4)
  /-- R319 -/
  | carrierSurpriseRemoval (bay : Fin 4)
  /-- R319 -/
  | slotOverCurrent (bay : Fin 4)
  /-- R336 -/
  | deferredWritebackOpen (h : HubId)
  /-- R348 -/
  | flipArm (unit : FlipUnit)
  /-- R348 -/
  | flipDisarm (unit : FlipUnit)
  /-- R463 -/
  | doorbell (link : LinkId) (ld : LdId) (q : QueueId) (tail : BitVec 32)
  /-- R462 -/
  | queueEnable (q : QueueId)
  /-- R468 -/
  | queueDisable (q : QueueId)
  /-- R410 -/
  | qdSeedWrite (q : QueueId) (seed : Word)
  /-- R464 -/
  | descFetch (q : QueueId)
  /-- R470 -/
  | descNop (q : QueueId) (n : Nat)
  /-- R358 -/
  | descLaunch (q : QueueId) (n : Nat)
  /-- R474 -/
  | descCopy (q : QueueId) (n : Nat)
  /-- R474 -/
  | descFill (q : QueueId) (n : Nat)
  /-- R344 -/
  | descScrub (q : QueueId) (n : Nat)
  /-- R476 -/
  | descFlush (q : QueueId) (n : Nat)
  /-- R477 -/
  | descComplete (q : QueueId) (n : Nat)
  /-- R347 -/
  | scrubPassComplete (q : QueueId) (n : Nat)
  /-- R356 -/
  | kernelDispatch (p : PartId)
  /-- R369 -/
  | kernelEnd (kid : Nat) (cause : EndCause)
  /-- R369 -/
  | kernelTimeLimit (kid : Nat)
  /-- R375 -/
  | libraryActivate
  /-- R459 -/
  | tEnd (core : CoreId)
  /-- R432 -/
  | tNop (core : CoreId)
  /-- R432 -/
  | tBra (core : CoreId)
  /-- R432 -/
  | tBeq (core : CoreId)
  /-- R432 -/
  | tBne (core : CoreId)
  /-- R432 -/
  | tBlt (core : CoreId)
  /-- R432 -/
  | tBge (core : CoreId)
  /-- R432 -/
  | tBltu (core : CoreId)
  /-- R434 -/
  | tLps (core : CoreId)
  /-- R434 -/
  | tLpb (core : CoreId)
  /-- R435 -/
  | tGet (core : CoreId)
  /-- R436 -/
  | tWaitg (core : CoreId)
  /-- R457 -/
  | tBar (core : CoreId)
  /-- R457 -/
  | barrierRelease (kid : Nat) (scope : Nat)
  /-- R432 -/
  | tAdd (core : CoreId)
  /-- R432 -/
  | tSub (core : CoreId)
  /-- R432 -/
  | tMul (core : CoreId)
  /-- R432 -/
  | tAnd (core : CoreId)
  /-- R432 -/
  | tOr (core : CoreId)
  /-- R432 -/
  | tXor (core : CoreId)
  /-- R432 -/
  | tShl (core : CoreId)
  /-- R432 -/
  | tShr (core : CoreId)
  /-- R432 -/
  | tSra (core : CoreId)
  /-- R432 -/
  | tMin (core : CoreId)
  /-- R432 -/
  | tMax (core : CoreId)
  /-- R432 -/
  | tMovhi (core : CoreId)
  /-- R432 -/
  | tMovi (core : CoreId)
  /-- R433 -/
  | tFadd (core : CoreId)
  /-- R433 -/
  | tFsub (core : CoreId)
  /-- R433 -/
  | tFmul (core : CoreId)
  /-- R433 -/
  | tFdiv (core : CoreId)
  /-- R433 -/
  | tFsqrt (core : CoreId)
  /-- R433 -/
  | tFfma (core : CoreId)
  /-- R432 -/
  | tItof (core : CoreId)
  /-- R432 -/
  | tFtoi (core : CoreId)
  /-- R432 -/
  | tFlt (core : CoreId)
  /-- R437 -/
  | tLd (core : CoreId)
  /-- R437 -/
  | tSt (core : CoreId)
  /-- R439 -/
  | tTld (core : CoreId)
  /-- R364 -/
  | tldPageArrive (core : CoreId) (i : Nat)
  /-- R440 -/
  | tTst (core : CoreId)
  /-- R441 -/
  | tXfer (core : CoreId)
  /-- R445 -/
  | tMma (core : CoreId)
  /-- R448 -/
  | tCvt (core : CoreId)
  /-- R451 -/
  | tVopAdd (core : CoreId)
  /-- R451 -/
  | tVopSub (core : CoreId)
  /-- R451 -/
  | tVopMul (core : CoreId)
  /-- R451 -/
  | tVopFma (core : CoreId)
  /-- R451 -/
  | tVopFnma (core : CoreId)
  /-- R451 -/
  | tVopMax (core : CoreId)
  /-- R451 -/
  | tVopMin (core : CoreId)
  /-- R451 -/
  | tVopDiv (core : CoreId)
  /-- R451 -/
  | tVopSqrt (core : CoreId)
  /-- R451 -/
  | tVopAbs (core : CoreId)
  /-- R451 -/
  | tVopNeg (core : CoreId)
  /-- R451 -/
  | tVopMov (core : CoreId)
  /-- R451 -/
  | tVopClr (core : CoreId)
  /-- R452 -/
  | tVopDot (core : CoreId)
  /-- R452 -/
  | tVopRsum (core : CoreId)
  /-- R451 -/
  | tVopRmax (core : CoreId)
  /-- R482 -/
  | syncSet (src : SyncSrc)
  /-- R482 -/
  | syncAdd (src : SyncSrc)
  /-- R483 -/
  | syncWaitGe (src : SyncSrc)
  /-- R483 -/
  | syncWaitEq (src : SyncSrc)
  /-- R482 -/
  | syncCompareAndSwap (src : SyncSrc)
  /-- R484 -/
  | syncLock (src : SyncSrc)
  /-- R485 -/
  | syncUnlock (src : SyncSrc)
  /-- R486 -/
  | syncBarrierArrive (src : SyncSrc)
  /-- R483 -/
  | syncWaitTimeout (src : SyncSrc)
  /-- R495 -/
  | syncShareWrite (obj : Fin 8192) (mask : BitVec 32)
  /-- R515 -/
  | qosWindowEnd (p : PartId) (samples : List QosSample)
  /-- R512 -/
  | bgRateSample (busy0 busy1 : Nat)
  /-- R500 -/
  | requestAgeExpiry (link : LinkId) (tag : Nat)
  /-- R511 -/
  | urgPinChange (pin : Fin 4) (asserted : Bool)
  /-- R511 -/
  | urgPinStuck (pin : Fin 4)
  /-- R526 -/
  | mirrorHello (m : Fin 2) (hello : Hello)
  /-- R527 -/
  | reflectFlitCrcFail (m : Fin 2)
  /-- R527 -/
  | reflectKeepalive (m : Fin 2)
  /-- R527 -/
  | reflectLinkTimeout (m : Fin 2)
  /-- R533 -/
  | epochClose (p : PartId) (h : HubId) (cause : EpochCause)
  /-- R532 -/
  | epochReceived (e : Epoch)
  /-- R534 -/
  | epochAck (p : PartId) (h : HubId) (number : Nat) (answer : AckKind)
  /-- R535 -/
  | partnerFenceTimeout (p : PartId)
  /-- R535 -/
  | partnerTimeout (p : PartId)
  /-- R536 -/
  | promote (p : PartId)
  /-- R535 -/
  | unfence (p : PartId)
  /-- R538 -/
  | switch (p : PartId)
  /-- R538 -/
  | switchDrainEnd (p : PartId)
  /-- R539 -/
  | detach (p : PartId)
  /-- R539 -/
  | attach (p : PartId)
  /-- R526 -/
  | demote (p : PartId)
  /-- R537 -/
  | snapshot (p : PartId)
  /-- R540 -/
  | mirrorRebuildDone (p : PartId)
  /-- R549 -/
  | powerRequest (target : Fin 4)
  /-- R548 -/
  | powerCancel
  /-- R552 -/
  | drainEnd
  /-- R553 -/
  | drainTimeoutExpiry
  /-- R555 -/
  | powerTransitionDone (savedBad : Bool) (resweep : List Nat) (marginal : List (Nat × Nat × Bool)) (badBanks : BitVec 2)
  /-- R559 -/
  | wakeInband (link : LinkId)
  /-- R560 -/
  | wakeSidebandMatch (addr : BitVec 7)
  /-- R569 -/
  | storeMonitorSample (s : StoreSample)
  /-- R577 -/
  | budgetLimitUpdate
  /-- R571 -/
  | capTest
  /-- R571 -/
  | capTestDone (dropMv : Nat)
  /-- R580 -/
  | inputBelow40v
  /-- R580 -/
  | inputGlitch
  /-- R581 -/
  | inputPowerLost
  /-- R580 -/
  | inputPowerGood
  /-- R582 -/
  | flushVlowStop
  /-- R583 -/
  | holdupFlushDone
  /-- R595 -/
  | thermalTrip
  /-- R588 -/
  | fpHeartbeat (fp : Fin 12)
  /-- R588 -/
  | fpHeartbeatMiss (fp : Fin 12)
  /-- R589 -/
  | fwRegionFault (fp : Fin 12) (component addr : Nat)
  /-- R590 -/
  | restart (fp : Fin 12)
  /-- R593 -/
  | powerLoopPeriod (s : LoopSample)
  /-- R600 -/
  | spdmRequest (code : Nat) (payload : List Nat)
  /-- R597 -/
  | queryDeviceIdentifiers
  /-- R597 -/
  | getFirmwareParameters
  /-- R597 -/
  | requestUpdate (n : Nat)
  /-- R597 -/
  | passComponentTable (comps : List Component)
  /-- R597 -/
  | updateComponent (c : Component)
  /-- R597 -/
  | requestFirmwareData (len : Nat)
  /-- R597 -/
  | transferComplete (ok : Bool)
  /-- R597 -/
  | verifyComplete (ok : Bool)
  /-- R597 -/
  | applyComplete (ok : Bool)
  /-- R598 -/
  | activateFirmware (selfContained : Bool)
  /-- R597 -/
  | getStatus
  /-- R597 -/
  | cancelUpdateComponent
  /-- R597 -/
  | cancelUpdate
  /-- R603 -/
  | getIdentity
  /-- R603 -/
  | writeOwnerKey (slot : Nat) (key : BitVec 768)
  /-- R603 -/
  | restartProcessor (n : Nat)
  /-- R603 -/
  | getEvents (skip : Nat)
  /-- R603 -/
  | clearEvents (last : Nat)
  /-- R603 -/
  | readRegister (off size : Nat)
  /-- R603 -/
  | writeRegister (off size val : Nat)
  /-- R604 -/
  | mboxUnknownOpcode (opcode : Nat)
  /-- R608 -/
  | negotiate (p : PartId)
  /-- R527 -/
  | mirrorLinkPhyLeavesL0 (m : Fin 2)
  /-- R139 -/
  | linkEntersRecovery (link : LinkId)
  /-- R618 -/
  | inputBelow48v
  /-- R590 -/
  | firmwareFetchFault (fp : Fin 12)
  /-- R591 -/
  | coreIslandHwClamp
  deriving DecidableEq, Repr

end Sys2Proof
end

