-- ==== Sys2Proof/Machine/Store.lean ====
section
/-! DEFINITION. Sparse tables in one canonical form, bit fields of register words, and the counter rules of R18. -/

namespace Sys2Proof.Machine

/-- A sparse table: (key, entry) pairs, keys strictly rising, no entry equal to what an unlisted key reads as. -/
abbrev Store (α : Type) := List (Nat × α)

/-- The entry listed at a key. -/
def Store.find {α : Type} (k : Nat) : Store α → Option α
  | [] => none
  | (j, v) :: t => if j = k then some v else if k < j then none else Store.find k t

/-- List an entry at its place. -/
def Store.put {α : Type} (k : Nat) (v : α) : Store α → Store α
  | [] => [(k, v)]
  | (j, w) :: t => if k < j then (k, v) :: (j, w) :: t else if j = k then (k, v) :: t else (j, w) :: Store.put k v t

/-- List nothing at a key. -/
def Store.drop {α : Type} (k : Nat) : Store α → Store α
  | [] => []
  | (j, w) :: t => if j = k then t else if k < j then (j, w) :: t else (j, w) :: Store.drop k t

/-- What a key reads as, where an unlisted key reads as `d`. -/
def Store.get {α : Type} (d : α) (k : Nat) (t : Store α) : α := (Store.find k t).getD d

/-- Write a key, where an unlisted key reads as `d`: writing `d` removes the entry. -/
def Store.set {α : Type} [DecidableEq α] (d : α) (k : Nat) (v : α) (t : Store α) : Store α :=
  if v = d then Store.drop k t else Store.put k v t

/-- Keys strictly rising, all above `b`. -/
def Store.rising {α : Type} : Nat → Store α → Bool
  | _, [] => true
  | b, (j, _) :: t => decide (b ≤ j) && Store.rising (j + 1) t

/-- The canonical form: keys strictly rising and no entry equal to what its key reads as when unlisted. -/
def Store.wf {α : Type} [DecidableEq α] (d : Nat → α) (t : Store α) : Bool :=
  Store.rising 0 t && t.all (fun e => decide (e.2 ≠ d e.1))

/-- Every entry changed by `f`; an entry that becomes what an unlisted key reads as goes. -/
def Store.mapVals {α : Type} [DecidableEq α] (d : α) (f : Nat → α → α) (t : Store α) : Store α :=
  t.foldl (fun r e => Store.set d e.1 (f e.1 e.2) r) []

/-- The keys listed. -/
def Store.keys {α : Type} (t : Store α) : List Nat := t.map (·.1)

/-- The field of `len` bits at bit `lo` of a register word (R9). -/
def fld (w : Word) (lo len : Nat) : Nat := (w.toNat >>> lo) % 2 ^ len

/-- The word with the field of `len` bits at bit `lo` replaced (R9). -/
def setFld (w : Word) (lo len v : Nat) : Word :=
  (w &&& ~~~(BitVec.ofNat 64 ((2 ^ len - 1) <<< lo))) ||| BitVec.ofNat 64 ((v % 2 ^ len) <<< lo)

/-- One bit of a register word. -/
def bit (w : Word) (n : Nat) : Bool := w.getLsbD n

/-- An error counter of `width` bits one higher: it sticks at all ones (R18). -/
def errCount (width : Nat) (n : Nat) : Nat := if n + 1 < 2 ^ width then n + 1 else 2 ^ width - 1

/-- An event counter word raised by `k`: bits [47:0] count and wrap, bit 48 records that they wrapped (R18). -/
def evtCount (w : Word) (k : Nat) : Word :=
  let n := fld w 0 48 + k
  let o := fld w 48 16 % 2 = 1 || decide (2 ^ 48 ≤ n)
  BitVec.ofNat 64 (n % 2 ^ 48 + (if o then 2 ^ 48 else 0))

/-- The list with its first element that meets `f` taken out, and that element. -/
def takeFirst {α : Type} (f : α → Bool) : List α → Option (α × List α)
  | [] => none
  | x :: t => if f x then some (x, t) else
      match takeFirst f t with
      | none => none
      | some (y, r) => some (y, x :: r)

/-- Replace the elements that meet `f`. -/
def mapIf {α : Type} (f : α → Bool) (g : α → α) (l : List α) : List α := l.map (fun x => if f x then g x else x)

/-- The least element by a measure; the first of equals. -/
def leastBy {α : Type} (m : α → Nat) : List α → Option α
  | [] => none
  | x :: t =>
      match leastBy m t with
      | none => some x
      | some y => if m y < m x then some y else some x

end Sys2Proof.Machine
end

