-- ==== Sys2Proof/Machine/Crc.lean ====
section
/-! DEFINITION. CRC-32C (R56) over bytes. -/

namespace Sys2Proof.Machine

/-- Eight steps of the reflected CRC-32C register, polynomial 0x1EDC6F41. -/
def crcByte : Nat → Nat → Nat
  | 0, c => c
  | n + 1, c => crcByte n (if c % 2 = 1 then (c / 2) ^^^ 0x82F63B78 else c / 2)

/-- The register after bytes, before the final inversion. -/
def crcRun (c : Nat) (l : List Byte) : Nat := l.foldl (fun c b => crcByte 8 (c ^^^ b.toNat)) c

/-- CRC-32C of bytes: initial value and final XOR 0xFFFFFFFF, bits reflected (R56). -/
def crc32c (l : List Byte) : Nat := crcRun 0xFFFFFFFF l ^^^ 0xFFFFFFFF

end Sys2Proof.Machine
end

