-- ==== Sys2Proof/Machine/Float.lean ====
section
/-! DEFINITION. Exact arithmetic on reals of the form ±m × 2^e, and its one rounding to a binary format (R397, R412, R433). -/

namespace Sys2Proof.Machine

/-- An extended real: NaN, ±infinity, or ±m × 2^e, which keeps the sign of zero. -/
inductive Num where
  | nan
  | inf (neg : Bool)
  | fin (neg : Bool) (m : Nat) (e : Int)
  deriving DecidableEq, Repr

/-- A binary format: mantissa bits, exponent bits. -/
structure Fmt where
  mb : Nat
  eb : Nat
  deriving DecidableEq, Repr

def fp64 : Fmt := ⟨52, 11⟩
def fp32 : Fmt := ⟨23, 8⟩
def bf16 : Fmt := ⟨7, 8⟩
def fp16 : Fmt := ⟨10, 5⟩

/-- Exponent of the least step of a format. -/
def Fmt.low (f : Fmt) : Int := 2 - 2 ^ (f.eb - 1) - f.mb

/-- Decode a code of an IEEE 754 format. -/
def Fmt.num (f : Fmt) (w : Nat) : Num :=
  let neg := w / 2 ^ (f.mb + f.eb) % 2 = 1
  let b := w / 2 ^ f.mb % 2 ^ f.eb
  let m := w % 2 ^ f.mb
  if b = 2 ^ f.eb - 1 then (if m = 0 then .inf neg else .nan)
  else if b = 0 then .fin neg m f.low
  else .fin neg (2 ^ f.mb + m) (f.low + (b - 1))

/-- m × 2^e in steps of 2^q, rounded to the nearest, ties to even; `g` asks for the stochastic rounding of R408 with that 24-bit number. -/
def roundAt (m : Nat) (e q : Int) (g : Option Nat := none) : Nat :=
  if q ≤ e then m * 2 ^ (e - q).toNat else
  let k := (q - e).toNat
  let t := m / 2 ^ k
  let r := m % 2 ^ k
  match g with
  | none => if 2 ^ k < 2 * r ∨ (2 * r = 2 ^ k ∧ t % 2 = 1) then t + 1 else t
  | some g => if g < r * 2 ^ 24 / 2 ^ k then t + 1 else t

/-- The magnitude code of m × 2^e in a format of `mb` mantissa bits whose least step is 2^low, with no upper limit: subnormals, then each binade's steps (R408). -/
def magCode (mb : Nat) (low : Int) (m : Nat) (e : Int) (g : Option Nat := none) : Nat :=
  if m = 0 then 0 else
  let q := max low (e + (Nat.log2 m : Int) - mb)
  (q - low).toNat * 2 ^ mb + roundAt m e q g

/-- The sign bit in its place. -/
def signBit (neg : Bool) (n : Nat) : Nat := if neg then 2 ^ n else 0

/-- Round to an IEEE 754 format: overflow gives infinity, a NaN result is the quiet NaN of sign 0 (R397, R433). -/
def Fmt.code (f : Fmt) (x : Num) : Nat :=
  let top := (2 ^ f.eb - 1) * 2 ^ f.mb
  match x with
  | .nan => top + 2 ^ (f.mb - 1)
  | .inf n => signBit n (f.mb + f.eb) + top
  | .fin n m e => signBit n (f.mb + f.eb) + min top (magCode f.mb f.low m e)

/-- Exact product. -/
def Num.mul (a b : Num) : Num :=
  match a, b with
  | .nan, _ => .nan
  | _, .nan => .nan
  | .inf s, .inf t => .inf (s != t)
  | .inf s, .fin t m _ => if m = 0 then .nan else .inf (s != t)
  | .fin s m _, .inf t => if m = 0 then .nan else .inf (s != t)
  | .fin s m e, .fin t k f => .fin (s != t) (m * k) (e + f)

/-- The signed significand at exponent `q`, which lies at or below `e`. -/
def signedAt (neg : Bool) (m : Nat) (e q : Int) : Int := (if neg then -1 else 1) * ((m * 2 ^ (e - q).toNat : Nat) : Int)

/-- Exact sum, with the zero signs of round-to-nearest. -/
def Num.add (a b : Num) : Num :=
  match a, b with
  | .nan, _ => .nan
  | _, .nan => .nan
  | .inf s, .inf t => if s = t then .inf s else .nan
  | .inf s, .fin _ _ _ => .inf s
  | .fin _ _ _, .inf t => .inf t
  | .fin s m e, .fin t k f =>
    let q := min e f
    let z := signedAt s m e q + signedAt t k f q
    if z = 0 then .fin (m = 0 && k = 0 && s && t) 0 q else .fin (decide (z < 0)) z.natAbs q

/-- Negation. -/
def Num.neg : Num → Num
  | .nan => .nan
  | .inf s => .inf (!s)
  | .fin s m e => .fin (!s) m e

/-- Magnitude. -/
def Num.abs : Num → Num
  | .nan => .nan
  | .inf _ => .inf false
  | .fin _ m e => .fin false m e

/-- Quotient to 128 bits and a sticky bit, enough for one correct rounding to any format here. -/
def Num.div (a b : Num) : Num :=
  match a, b with
  | .nan, _ => .nan
  | _, .nan => .nan
  | .inf _, .inf _ => .nan
  | .inf s, .fin t _ _ => .inf (s != t)
  | .fin s _ _, .inf t => .fin (s != t) 0 0
  | .fin s m e, .fin t k f =>
    if k = 0 then (if m = 0 then .nan else .inf (s != t)) else
    let sh := 128 + Nat.log2 k
    let n := m * 2 ^ sh
    .fin (s != t) (2 * (n / k) + (if n % k = 0 then 0 else 1)) (e - f - sh - 1)

/-- Integer square root of `n`, found bit by bit below 2^k. -/
def isqrt (n : Nat) : Nat → Nat → Nat
  | 0, r => r
  | k + 1, r => let c := r + 2 ^ k; isqrt n k (if c * c ≤ n then c else r)

/-- Square root to at least 64 bits and a sticky bit. -/
def Num.sqrt (a : Num) : Num :=
  match a with
  | .nan => .nan
  | .inf s => if s then .nan else .inf false
  | .fin s m e =>
    if m = 0 then .fin s 0 e else if s then .nan else
    let odd := (e % 2).toNat
    let n := m * 2 ^ (128 + odd)
    let e := e - (128 + odd)
    let r := isqrt n (Nat.log2 n / 2 + 1) 0
    .fin false (2 * r + (if r * r = n then 0 else 1)) (e / 2 - 1)

/-- a < b as reals; false when either is NaN (R432). -/
def Num.lt (a b : Num) : Bool :=
  match a, b with
  | .nan, _ => false
  | _, .nan => false
  | .inf s, .inf t => s && !t
  | .inf s, .fin _ _ _ => s
  | .fin _ _ _, .inf t => !t
  | .fin s m e, .fin t k f => let q := min e f; decide (signedAt s m e q < signedAt t k f q)

/-- The sign of a number. -/
def Num.isNeg : Num → Bool
  | .nan => false
  | .inf s => s
  | .fin s _ _ => s

/-- The larger; NaN when either is NaN; of two zeros +0 (R451, log 30). -/
def Num.max (a b : Num) : Num :=
  if a = .nan ∨ b = .nan then .nan else if a.lt b then b else if b.lt a then a else if a.isNeg then b else a
/-- The smaller; NaN when either is NaN; of two zeros −0 (R451, log 30). -/
def Num.min (a b : Num) : Num :=
  if a = .nan ∨ b = .nan then .nan else if a.lt b then a else if b.lt a then b else if a.isNeg then a else b

/-- One operation in a format: decode, compute exactly, round once. -/
def Fmt.op2 (f : Fmt) (o : Num → Num → Num) (a b : Nat) : Nat := f.code (o (f.num a) (f.num b))
/-- a × b + c with one rounding. -/
def Fmt.fma (f : Fmt) (a b c : Nat) : Nat := f.code (((f.num a).mul (f.num b)).add (f.num c))

/-- A signed integer as FP64 (ITOF, R432). -/
def itof (w : Word) : Nat := fp64.code (.fin (decide (w.toInt < 0)) w.toInt.natAbs 0)

/-- FP64 truncated toward zero, saturating; NaN gives 0 (FTOI, R432). -/
def ftoi (w : Nat) : Word :=
  match fp64.num w with
  | .nan => 0
  | .inf s => if s then BitVec.ofNat 64 (2 ^ 63) else BitVec.ofNat 64 (2 ^ 63 - 1)
  | .fin s m e =>
    let t := if 0 ≤ e then m * 2 ^ e.toNat else m / 2 ^ (-e).toNat
    if s then BitVec.ofInt 64 (-(min t (2 ^ 63) : Nat)) else BitVec.ofNat 64 (min t (2 ^ 63 - 1))

end Sys2Proof.Machine
end

