-- ==== Sys2Proof/Machine/Memory.lean ====
section
/-! DEFINITION. Addressed byte memories: the pool, the core-side memories and host memory as lists of Host.Cell in one canonical form. -/

namespace Sys2Proof.Machine

/-- Bytes by address: addresses strictly rising, no entry of value 0; an address that is not listed reads 0 (R234: a ZERO frame reads as zeros). -/
abbrev Memory := List Host.Cell

/-- Addresses strictly rising from `b`, no zero byte listed. -/
def Memory.wfFrom : Nat → Memory → Bool
  | _, [] => true
  | b, (a, v) :: t => decide (b ≤ a) && decide (v ≠ 0) && Memory.wfFrom (a + 1) t

/-- The canonical form, so that equal memories are equal lists. -/
def Memory.wf (m : Memory) : Bool := Memory.wfFrom 0 m

/-- One byte. -/
def Memory.byte (m : Memory) (a : Nat) : Byte :=
  match m with
  | [] => 0
  | (x, v) :: t => if x = a then v else Memory.byte t a

/-- The `n` bytes from `a` as a number, lowest address least significant (R9). -/
def Memory.readN (m : Memory) (a n : Nat) : Nat :=
  m.foldl (fun acc c => if a ≤ c.1 ∧ c.1 < a + n then acc + c.2.toNat * 2 ^ (8 * (c.1 - a)) else acc) 0

/-- The cells of `n` bytes from `a` that hold the number `v`, zero bytes left out. -/
def Memory.cellsOf : Nat → Nat → Nat → Memory
  | _, 0, _ => []
  | a, n + 1, v =>
    if v = 0 then [] else
    if v % 256 = 0 then Memory.cellsOf (a + 1) n (v / 256)
    else (a, BitVec.ofNat 8 v) :: Memory.cellsOf (a + 1) n (v / 256)

/-- The cells below an address. -/
def Memory.below (m : Memory) (a : Nat) : Memory :=
  match m with
  | [] => []
  | (x, v) :: t => if x < a then (x, v) :: Memory.below t a else []

/-- The cells from an address on. -/
def Memory.from (m : Memory) (a : Nat) : Memory :=
  match m with
  | [] => []
  | (x, v) :: t => if x < a then Memory.from t a else (x, v) :: t

/-- Write the `n` bytes of the number `v` at `a`. -/
def Memory.writeN (m : Memory) (a n v : Nat) : Memory :=
  m.below a ++ (Memory.cellsOf a n v ++ m.from (a + n))

/-- Write one byte. -/
def Memory.setByte (m : Memory) (a : Nat) (v : Byte) : Memory := m.writeN a 1 v.toNat

/-- Merge bytes: byte k of `v` where bit k of `mask` is set, the old byte elsewhere, k < n. -/
def mergeBytes : Nat → Nat → Nat → Nat → Nat
  | 0, _, _, _ => 0
  | n + 1, mask, v, old =>
    (if mask % 2 = 1 then v % 256 else old % 256) + 256 * mergeBytes n (mask / 2) (v / 256) (old / 256)

/-- The bytes of a number, lowest first. -/
def bytesOf : Nat → Nat → List Byte
  | 0, _ => []
  | n + 1, v => BitVec.ofNat 8 v :: bytesOf n (v / 256)

/-- The number that a list of bytes spells, lowest first. -/
def ofBytes : List Byte → Nat
  | [] => 0
  | b :: t => b.toNat + 256 * ofBytes t

end Sys2Proof.Machine
end

