-- ==== Sys2Proof/Machine/Narrow.lean ====
section
/-! DEFINITION. Narrow arithmetic (12): element formats, weight pages, block and sequential paths, halo merge, output conversion, random words, reflection check. -/

namespace Sys2Proof.Machine

/-- Byte i of a little-endian number. -/
def byteOf (n i : Nat) : Nat := n / 256 ^ i % 256
/-- The k-byte field at byte i of a little-endian number. -/
def fieldOf (n i k : Nat) : Nat := n / 256 ^ i % 256 ^ k

/-! Elements (R384 to R389). -/

/-- q of an E2M1 code (R385). -/
def e2m1 (c : Nat) : Int :=
  let m : Int := match c % 8 with | 0 => 0 | 1 => 1 | 2 => 2 | 3 => 3 | 4 => 4 | 5 => 6 | 6 => 8 | _ => 12
  if c % 16 < 8 then m else -m

/-- Elements of a block, unit exponent, and bytes before the codes, by WFMT 0 to 3 (R384, R390). -/
def blockLen (f : Nat) : Nat := if f = 2 then 16 else if f = 3 then 64 else 32
def unitExp (f : Nat) : Int := if f = 0 ∨ f = 2 then -1 else 0
def codesAt (f : Nat) : Nat := if f = 3 then 3 else 2
/-- First byte after the codes (R390). -/
def haloAt (f : Nat) : Nat := if f = 2 then 6 else if f = 3 then 16 else 18

/-- FP8 E4M3 as a number (R389). -/
def e4m3 (w : Nat) : Num :=
  let b := w / 8 % 16
  let m := w % 8
  if b = 15 ∧ m = 7 then .nan
  else if b = 0 then .fin (decide (128 ≤ w)) m (-9) else .fin (decide (128 ≤ w)) (8 + m) (b - 10)
/-- FP8 E5M2 as a number (R389). -/
def e5m2 (w : Nat) : Num :=
  let b := w / 4 % 32
  let m := w % 4
  if b = 31 then (if m = 0 then .inf (decide (128 ≤ w)) else .nan)
  else if b = 0 then .fin (decide (128 ≤ w)) m (-16) else .fin (decide (128 ≤ w)) (4 + m) (b - 17)
/-- A signed integer times a power of two. -/
def intNum (z : Int) (e : Int) : Num := .fin (decide (z < 0)) z.natAbs e
/-- E8M0 scale (R388). -/
def e8m0 (w : Nat) : Num := if w = 255 then .nan else .fin false 1 (w - 127)
/-- BF16 (R388, R389). -/
def bf16Num (w : Nat) : Num := bf16.num w

/-- The scale of a block by WFMT (R384, R388). -/
def scaleNum (f w : Nat) : Num := if f = 2 then e4m3 w else if f = 3 then bf16Num w else e8m0 w

/-- q of the element of a code field of a block (R384 to R387). -/
def elemQ (f codes i : Nat) : Int :=
  if f = 0 then e2m1 (codes / 16 ^ i % 16)
  else if f = 1 then (let c := codes / 16 ^ i % 16; if c < 8 then c else (c : Int) - 16)
  else if f = 2 then 2 * ((codes / 4 ^ i % 4 : Nat) : Int) - 3
  else ((byteOf codes (i / 5) / 3 ^ (i % 5) % 3 : Nat) : Int) - 1

/-! Weight pages (R390 to R392). -/

/-- A block of weights: integers, scale, and halo entries (index, BF16 value). -/
structure WBlock where
  fmt : Nat
  scale : Num
  q : List Int
  halo : List (Nat × Nat)
  deriving DecidableEq, Repr

/-- A parsed weight page (R392). -/
structure WPage where
  fmt : Nat
  first : Nat
  blocks : List WBlock
  deriving DecidableEq, Repr

/-- Halo entries of a record, with the rule of R391: indices below n_b that rise strictly. -/
def parseHalo (rec nb : Nat) : Nat → Nat → Nat → Option (List (Nat × Nat))
  | 0, _, _ => some []
  | h + 1, at_, low =>
    let i := byteOf rec at_
    if i < low ∨ nb ≤ i then none else
    match parseHalo rec nb h (at_ + 3) (i + 1) with
    | none => none
    | some t => some ((i, fieldOf rec (at_ + 1) 2) :: t)

/-- One record at the start of a number: the block and its size (R390, R387). -/
def parseRec (f rec : Nat) : Option (WBlock × Nat) :=
  let sc := codesAt f - 1
  let cnt := byteOf rec sc
  let codes := fieldOf rec (codesAt f) (haloAt f - codesAt f)
  let jtOk := f != 3 || ((List.range 12).all (fun i => decide (byteOf codes i ≤ 242)) && decide (byteOf codes 12 ≤ 80))
  if 4 < cnt ∨ !jtOk then none else
  match parseHalo rec (blockLen f) cnt (haloAt f) 0 with
  | none => none
  | some h => some (⟨f, scaleNum f (fieldOf rec 0 sc), (List.range (blockLen f)).map (elemQ f codes), h⟩, haloAt f + 3 * cnt)

/-- `n` records from byte `at_` of a page, and zero bytes to the page end. -/
def parseRecs (f page : Nat) : Nat → Nat → Option (List WBlock)
  | 0, at_ => if at_ ≤ 4096 ∧ page / 256 ^ at_ % 256 ^ (4096 - at_) = 0 then some [] else none
  | n + 1, at_ =>
    match parseRec f (page / 256 ^ at_) with
    | none => none
    | some (b, k) => if 4096 < at_ + k then none else
      match parseRecs f page n (at_ + k) with
      | none => none
      | some t => some (b :: t)

/-- A weight page of format f (R392). -/
def parsePage (f page : Nat) : Option WPage :=
  let n := fieldOf page 2 2
  if f < 4 ∧ byteOf page 0 = f ∧ byteOf page 1 = 1 ∧ 0 < n ∧ n ≤ 680 ∧ fieldOf page 4 4 = 0 then
    match parseRecs f page n 16 with
    | none => none
    | some l => some ⟨f, fieldOf page 8 8, l⟩
  else none

/-! Weight streams (R393, R396). -/

/-- What the blocks of a stream are: stream index and block; an index that is not listed gives NaN. -/
structure WStream where
  /-- FIRST expected of the next page; none while unknown. -/
  expect : Option Nat
  /-- End of the last block placed. -/
  last : Nat := 0
  placed : List (Nat × WBlock) := []
  malformed : Bool := false
  /-- A page that parses has been read. -/
  seen : Bool := false
  /-- Pages read. -/
  read : Nat := 0
  deriving Repr

/-- Take one page of a stream (R396). `walk`: the expected FIRST starts at that of the first page that parses (R443). -/
def WStream.take (t : WStream) (f page : Nat) (walk : Bool) : WStream :=
  let t := { t with read := t.read + 1 }
  match parsePage f page with
  | none => { t with expect := none, malformed := true }
  | some w =>
    let n := w.blocks.length
    let put (b : Nat) : List (Nat × WBlock) := t.placed ++ ((List.range n).zip w.blocks).map (fun x => (b + x.1, x.2))
    let good : WStream := { expect := some (w.first + n), last := w.first + n, placed := put w.first, malformed := t.malformed, seen := true, read := t.read }
    let byPos (b : Nat) : WStream := { t with expect := some (b + n), last := b + n, malformed := true, seen := true }
    if walk && !t.seen then good else
    match t.expect with
    | some e => if w.first = e then good else byPos e
    | none => if t.last ≤ w.first then good else byPos t.last

/-- The block at a stream index. -/
def WStream.block (t : WStream) (j : Nat) : Option WBlock := (t.placed.find? (fun x => x.1 == j)).map (·.2)

/-- Walk page slots from `slot` until the blocks j0 to j0 + need − 1 are placed or passed (R443). -/
def walkSlots (f : Nat) (pageAt : Nat → Nat) (target : Nat) : Nat → Nat → WStream → WStream
  | 0, _, t => { t with malformed := true }
  | k + 1, slot, t =>
    let t := t.take f (pageAt (slot % 48)) true
    if t.seen && (match t.expect with | some e => decide (target ≤ e) | none => false) then t else walkSlots f pageAt target k (slot + 1) t

/-! Activations (R389, R395). -/

/-- Bytes of K elements of a column (R395). -/
def colBytes (af k : Nat) : Nat := if af = 3 ∨ af = 4 then 2 * k else if af = 5 then k / 32 * 17 else if af = 6 then 4 * k else k

/-- Element i of a column held in a little-endian number. -/
def actNum (af col i : Nat) : Num :=
  if af = 0 then e4m3 (byteOf col i)
  else if af = 1 then e5m2 (byteOf col i)
  else if af = 2 then (let b := byteOf col i; intNum (if b < 128 then b else (b : Int) - 256) 0)
  else if af = 3 then bf16Num (fieldOf col (2 * i) 2)
  else if af = 4 then fp16.num (fieldOf col (2 * i) 2)
  else if af = 6 then fp32.num (fieldOf col (4 * i) 4)
  else
    let r := 17 * (i / 32)
    let c := byteOf col (r + 1 + i % 32 / 2)
    (intNum (e2m1 (if i % 2 = 0 then c % 16 else c / 16)) (-1)).mul (e8m0 (byteOf col r))

/-! Accumulation (R397 to R404). -/

/-- An accumulator element: its FP32 code, and the sticky flags of what it has taken: 1 NaN, 2 infinity (R404). -/
structure Acc where
  v : Nat
  fl : Nat := 0
  deriving DecidableEq, Repr

/-- The flags a value sets (R404). -/
def numFlags : Num → Nat
  | .nan => 1
  | .inf _ => 2
  | .fin _ _ _ => 0

/-- The element takes a value. -/
def Acc.put (a : Acc) (v : Nat) : Acc := ⟨v, a.fl ||| numFlags (fp32.num v)⟩

/-- acc := rne32(acc + v). -/
def accAdd (acc : Acc) (v : Num) : Acc := acc.put (fp32.code ((fp32.num acc.v).add v))

/-- The exponent x and magnitude of a non-zero finite activation. -/
def actParts : Num → Option (Bool × Nat × Int)
  | .fin n m e => if m = 0 then none else some (n, m, e)
  | _ => none

/-- A number is NaN or infinite. -/
def Num.special : Num → Bool
  | .fin _ _ _ => false
  | _ => true

/-- (q, activation) of the non-halo positions of a block (R391). -/
def WBlock.plain (b : WBlock) (a : List Num) : List (Int × Num) :=
  ((List.range b.q.length).zip (b.q.zip a)).filterMap (fun x => if b.halo.any (fun h => h.1 == x.1) then none else some x.2)

/-- The least exponent of the non-zero activations, and the non-zero ones. -/
def xlo (l : List (Int × Num)) : Option Int :=
  l.foldl (fun r x => match actParts x.2 with | none => r | some (_, _, e) => some (match r with | none => e | some y => min y e)) none

/-- Integer s and exponent e of a finite scale (R388). -/
def scaleParts : Num → Int × Int
  | .fin n m e => (if n then -(m : Int) else m, e)
  | _ => (0, 0)

/-- The glare test (R400). -/
def glares (l : List (Int × Num)) (scale : Num) : Bool :=
  match xlo l with
  | none => false
  | some lo =>
    let amax := l.foldl (fun r x => match actParts x.2 with | none => r | some (_, m, e) => max r (m * 2 ^ (e - lo).toNat)) 0
    let qmax := l.foldl (fun r x => max r x.1.natAbs) 0
    decide (2 ^ 31 ≤ l.length * qmax * (scaleParts scale).1.natAbs * amax)

/-- The block path (R399). -/
def blockPath (acc : Acc) (f : Nat) (scale : Num) (l : List (Int × Num)) : Acc :=
  match xlo l with
  | none => accAdd acc (.fin false 0 0)
  | some lo =>
    let t := l.foldl (fun r x => match actParts x.2 with | none => r | some (n, m, e) => r + x.1 * signedAt n m e lo) 0
    let (sc, e) := scaleParts scale
    accAdd acc (intNum (sc * t) (lo + unitExp f + e))

/-- The sequential path (R401). -/
def seqPath (acc : Acc) (l : List (Num × Num)) : Acc := l.foldl (fun acc x => accAdd acc (x.1.mul x.2)) acc

/-- One (block, column) pair (R398): the accumulator, and whether glare escalated it. `wide`: BF16 or FP16 activations. -/
def pairStep (acc : Acc) (b : WBlock) (a : List Num) (wide : Bool) : Acc × Bool :=
  let l := b.plain a
  let seq := seqPath acc (l.map (fun x => (((intNum x.1 (unitExp b.fmt)).mul b.scale), x.2)))
  if wide || b.scale.special || l.any (fun x => x.2.special) then (seq, false)
  else if glares l b.scale then (seq, true)
  else (blockPath acc b.fmt b.scale l, false)

/-- The halo merge of a k-group for one column (R402). `a` holds the k-group's activations. -/
def haloMerge (acc : Acc) (nb : Nat) (bs : List (Option WBlock)) (a : List Num) : Acc :=
  ((List.range bs.length).zip bs).foldl (fun acc x => match x.2 with
    | none => acc
    | some b => b.halo.foldl (fun acc h => accAdd acc ((bf16Num h.2).mul (a.getD (nb * x.1 + h.1) .nan))) acc) acc

/-- The weights of one row of a tile: blocks (none gives NaN), or plain numbers for WFMT 4 and 5. -/
inductive WRow where
  | blocks (f : Nat) (bs : List (Option WBlock))
  | plain (l : List Num)
  deriving Repr

/-- One row of one k-group against one column: the accumulator after it, and the glare pairs it counts (R398 to R403). -/
def rowStep (acc : Acc) (w : WRow) (a : List Num) (wide : Bool) : Acc × Nat :=
  match w with
  | .plain l => (seqPath acc (l.zip a), 0)
  | .blocks f bs =>
    let nb := blockLen f
    let (acc, g) := ((List.range bs.length).zip bs).foldl (fun (r : Acc × Nat) x => match x.2 with
      | none => (r.1.put (fp32.code .nan), r.2)
      | some b => let (c, e) := pairStep r.1 b ((a.drop (nb * x.1)).take nb) wide; (c, r.2 + if e then 1 else 0)) (acc, 0)
    (haloMerge acc nb bs a, g)

/-- The exact weights of a row, halo values included; none where a block gives NaN (R414). -/
def WRow.weights (w : WRow) : List Num :=
  match w with
  | .plain l => l
  | .blocks f bs => bs.foldr (fun b r => match b with
    | none => List.replicate (blockLen f) Num.nan ++ r
    | some b => ((List.range b.q.length).zip b.q).map (fun x => match b.halo.find? (fun h => h.1 == x.1) with
        | some h => bf16Num h.2
        | none => (intNum x.2 (unitExp b.fmt)).mul b.scale) ++ r) []

/-! Output conversion (R406 to R408). -/

/-- Convert an FP32 code to OFMT 0 to 4 or 6; `g` is the 24-bit random number of stochastic rounding. -/
def convert (ofmt acc : Nat) (g : Option Nat) : Nat :=
  match ofmt, fp32.num acc with
  | 0, .nan => 0x7F
  | 0, .inf n => signBit n 7 + 0x7E
  | 0, .fin n m e => signBit n 7 + min 0x7E (magCode 3 (-9) m e g)
  | 1, .nan => 0x7E
  | 1, .inf n => signBit n 7 + 0x7C
  | 1, .fin n m e => signBit n 7 + min 0x7B (magCode 2 (-16) m e g)
  | 2, .nan => 0
  | 2, .inf n => if n then 0x80 else 0x7F
  | 2, .fin n m e => let t := roundAt m e 0 g; if n then (256 - min t 128) % 256 else min t 127
  | 3, .nan => 0x7FC0
  | 3, .inf n => signBit n 15 + 0x7F80
  | 3, .fin n m e => signBit n 15 + min 0x7F80 (magCode 7 bf16.low m e g)
  | 4, .nan => 0x7E00
  | 4, .inf n => signBit n 15 + 0x7C00
  | 4, .fin n m e => signBit n 15 + min 0x7C00 (magCode 10 fp16.low m e g)
  | _, .nan => 0x7FC00000
  | _, _ => acc

/-- A J4 block of 32 outputs as its 17 bytes (R407); the list pairs each FP32 code with its 24-bit random number. -/
def convertJ4 (l : List (Nat × Option Nat)) : Nat :=
  if l.any (fun x => (fp32.num x.1).special) then 0xFF else
  let mx := l.foldl (fun (r : Option (Nat × Int)) x => match fp32.num x.1 with
    | .fin _ m e => if m = 0 then r else match r with
      | none => some (m, e)
      | some (m', e') => if Num.lt (.fin false m' e') (.fin false m e) then some (m, e) else r
    | _ => r) none
  let x : Int := match mx with
    | none => -127
    | some (m, e) => max (-127) (min 127 ((Nat.log2 m : Int) + e - 2))
  let codes := l.foldr (fun y r => match fp32.num y.1 with
    | .fin n m e => 16 * r + signBit n 3 + min 7 (magCode 1 (-1) m (e - x) y.2)
    | _ => 16 * r) 0
  (x + 127).toNat + 256 * codes

/-! Random words (R409). -/

/-- mix of R409, modulo 2^64. -/
def mix64 (z : Nat) : Nat :=
  let z := z ^^^ (z >>> 30)
  let z := z * 0xBF58476D1CE4E5B9 % 2 ^ 64
  let z := z ^^^ (z >>> 27)
  let z := z * 0x94D049BB133111EB % 2 ^ 64
  z ^^^ (z >>> 31)

/-- The 24-bit g of output element i of launch n (R408, R409). -/
def randomG (seed n i : Nat) : Nat := mix64 (mix64 ((seed + n * 0x9E3779B97F4A7C15) % 2 ^ 64) ^^^ (i % 2 ^ 64)) >>> 40

/-! The reflection check (R414, R415). -/

/-- bf16() of a number: rounded to nearest even. -/
def toBf16 (x : Num) : Num := bf16.num (bf16.code x)

/-- One row and column of a checked tile mismatches. -/
def reflectMismatch (w : WRow) (a : List Num) (wide : Bool) (thresh : Nat) : Bool :=
  let e := (rowStep ⟨0, 0⟩ w a wide).1.v
  let prods := (w.weights.zip a).map (fun x => (toBf16 x.1).mul (toBf16 x.2))
  let p := (prods.foldl (fun acc v => accAdd acc v) ⟨0, 0⟩).v
  let d := (prods.foldl (fun acc v => accAdd acc v.abs) ⟨0, 0⟩).v
  if (fp32.num e).special || (fp32.num p).special then e != p else
  let diff := fp32.num (fp32.code (((fp32.num e).add (fp32.num p).neg).abs))
  match fp32.num d with
  | .fin s m x => Num.lt (.fin s m (x - thresh)) diff
  | d => Num.lt d diff

end Sys2Proof.Machine
end

