-- ==== Sys2Proof/Machine/Regs.lean ====
section
/-! DEFINITION. The register maps of every chapter: names, widths, access classes, reset values (R8 to R15), and where each register lies. -/

namespace Sys2Proof.Machine

/-- The registers of the management view, the partition view and the rate-mode DVSEC, one name for each map row; an array is one name with indices. -/
inductive RegName where
  | strStatus | strLoadCtrl | strReject | strStraps | strSource | strActiveSeq
  | strPendSeq | strActiveDigest | strKeyState | strKeyRevoke | strPartSeq | strResetCtrl
  | strResetCause | strStartState | strRestoreFail | lnkStatus | lnkCtrl | lnkErrCorr
  | lnkErrUncorr | lnkRecovery | lnkLostCount | lnkLostHead | lnkEvent | lnkLostLog
  | cylRateCap | cylRateCtrl | cylRateStatus | cylRateCount | prtState | prtQuiesceCtrl
  | prtQuarCtrl | prtLivenessTimeout | prtUnboundCount | prtBind | prtIso | prtApparent
  | prtQuotaT0 | prtQuotaT1 | prtQuotaT2 | prtClusters | prtLiveness | prtUnmatched
  | prtFrozenWrites | prtUnmatchedHpa | prtFeatCtrl | prtFeatHost | prtFeatAgreed | shwIndexLo
  | shwIndexHi | shwStat | shwSelected | shwOwner | qdTail | qdHead
  | qdStatus | qdCtrl | qdRingBase | qdSeed | qdLaunchNo | qdGlare
  | qdSpill | qdDone | qdFailed | soValue | soLock | soTarget
  | soWaits | lnsMergeAge | lnsPressure | lnsSlotsFree | lnsEvent | lnsPagesEncoded
  | lnsRelocations | lnsRefRecodes | lnsUStatus | lnsUInBytes | lnsUOutBytes | lnsUDecodeErr
  | lnsUFlipMask | lnsPOccT0 | lnsPOccT1 | lnsPOccT2 | lnsPMapped | lnsPDebt
  | lnsPReserved | lnsPWatermark | lnsPEvent | lnsPSlots | lnsPNospace | lnsPSlotStalls
  | lnsPCommits | lnsPFormatFallback | lnsPFlushCtrl | tirAgeEpoch | tirThresh | tirEpochNow
  | tirDirtyBudget | tirDirtyTotal | tirEvent | tirSweepLast | tirMigActive | tirMapHits
  | tirMapMisses | tirMapAddr | tirMapCtrl | tirMapStat | tirMapData | tirPDeepMiss
  | tirPHeld | tirPPromotions | tirPDemotions | tirPDeclined | tirPReplT0 | tirPReplT1
  | tirPPinnedT0 | tirPPinnedT1 | tirPDirty | tirPEvent | tirPDeepMissUs | tirPHoldMax
  | tirPMigFaults | hbcMask | hbcStackState | hbcRhThresh | hbcRhDelay | hbcRhEvents
  | hbcRhLast | hbcEvent | hbcSTrain | hbcSTemp | hbcSThrottle | hbcSFlipMask
  | lpcMask | lpcGroupState | lpcSpare | lpcRebuildCtrl | lpcRebuildPtr | lpcRhThresh
  | lpcRhDelay | lpcRhEvents | lpcRhLast | lpcExclNight | lpcExclEclipse | lpcPasr
  | lpcEvent | lpcCState | lpcCTrain | lpcCTemp | lpcCRecon | lpcCThrottle
  | lpcCFlipMask | flcCState | flcCTrain | flcCSpare | flcCRetired | flcCTimeouts
  | flcCWear | flcCFlipMask | carArrayState | carCtrl | carEffCap | carRestripeLeft
  | carEvent | carBSlotCtrl | carBSlotStatus | carBEvent | carBSparePct | carBErases
  | carBLive | carPQuotaT2Eff | carPKey | eccCtrl | eccStrength | eccEvent
  | eccCorrPages | eccCorrSymbols | eccUncorr | eccWbDropped | eccWbPending | eccFlipLast
  | eccPoisonOvf | eccChState | eccChHard | eccChCorr | eccChRemap | cmpLibVersion
  | cmpLibKernels | cmpEvent | cmpKernels | cmpLibDigest | cmpClState | cmpClDecoded
  | cmpCoreState | cmpPKernels | cmpPSpillPages | cmpPGlareBlocks | cmpPFailed | cmpPReflect
  | cmpPReflectEvents | cmpPReflectLast | cmpPNarEvent | queEvent | queQOwner | synEvent
  | synOShare | qosStatus | qosMigReserve | qosAgeUs | qosUrgPins | qosEvent
  | qosBgRate | qosPState | qosPHostBw | qosPCompBw | qosPMisses | qosPMissLast
  | qosPLowered | qosPLatMax | qosPEvent | mirStatus | mirEvent | mirPartnerId
  | mirReplays | mirLinkLosses | mirPState | mirPCtrl | mirPGeneration | mirPEpochSent
  | mirPEpochAcked | mirPEpochApplied | mirPLossWindow | mirPDiscarded | mirPRebuildLeft | mirPEvent
  | pwrState | pwrReq | pwrResult | pwrCtrl | pwrWakeCause | pwrEvent
  | pwrDrainLast | pwrEntries | hupStatus | hupCtrl | hupEvent | hupWireFault
  | hupPackMv | hupCapMf | hupEnergyJ | hupTemp | hupBudgetLimit | hupChargeQ
  | hupFlushLast | hupFlushes | hupCellMv | fwmVersion | fwmSecVersion | fwmEvent
  | fwmPendVersion | fwmInputW | fwmTherm | fwmDigest | fwmPState | fwmPRestarts
  | fwmPCtrl | fwmMboxCtrl | fwmMboxStatus
  deriving DecidableEq, Repr

/-- One map row: width in bits, reset value, and the masks of the access classes RW, W1C, W1S, RC and RWS (R15); every other bit is RO or reserved. -/
structure RegRow where
  width : Nat
  reset : Nat
  rw : Nat := 0
  w1c : Nat := 0
  w1s : Nat := 0
  rc : Nat := 0
  rws : Nat := 0
  deriving DecidableEq, Repr

/-- The map row of each register name.
A register the maps give no constant reset value resets to the value of log 3. -/
def RegName.row : RegName → RegRow
  | .strStatus => { width := 32, reset := 0, w1c := 0xe }  -- R84
  | .strLoadCtrl => { width := 32, reset := 0, w1s := 0x3 }  -- R85
  | .strReject => { width := 32, reset := 0 }  -- R86
  | .strStraps => { width := 32, reset := 0 }  -- R87
  | .strSource => { width := 32, reset := 0 }  -- R83
  | .strActiveSeq => { width := 64, reset := 0 }  -- R83
  | .strPendSeq => { width := 64, reset := 0 }  -- R83
  | .strActiveDigest => { width := 32, reset := 0 }  -- R83
  | .strKeyState => { width := 32, reset := 1 }  -- R58, R83: slot 0 holds a key from manufacture
  | .strKeyRevoke => { width := 32, reset := 0, w1s := 0xf }  -- R83
  | .strPartSeq => { width := 64, reset := 0 }  -- R83
  | .strResetCtrl => { width := 32, reset := 0, w1s := 0x3 }  -- R103
  | .strResetCause => { width := 32, reset := 0 }  -- R104
  | .strStartState => { width := 32, reset := 0 }  -- R105
  | .strRestoreFail => { width := 32, reset := 0, w1c := 0xffff }  -- R103
  | .lnkStatus => { width := 32, reset := 0 }  -- R145
  | .lnkCtrl => { width := 32, reset := 3, rw := 0x2ff, w1s := 0x100 }  -- R146
  | .lnkErrCorr => { width := 32, reset := 0 }  -- R144
  | .lnkErrUncorr => { width := 32, reset := 0 }  -- R144
  | .lnkRecovery => { width := 32, reset := 0 }  -- R144
  | .lnkLostCount => { width := 64, reset := 0 }  -- R144
  | .lnkLostHead => { width := 32, reset := 0 }  -- R144
  | .lnkEvent => { width := 32, reset := 0, w1c := 0x1f }  -- R146
  | .lnkLostLog => { width := 64, reset := 0 }  -- R142
  | .cylRateCap => { width := 32, reset := 0x12 }  -- R120
  | .cylRateCtrl => { width := 32, reset := 0, w1s := 0x2, rws := 0x1 }  -- R120
  | .cylRateStatus => { width := 32, reset := 0, w1c := 0x100 }  -- R120
  | .cylRateCount => { width := 32, reset := 0 }  -- R119
  | .prtState => { width := 32, reset := 0 }  -- R174
  | .prtQuiesceCtrl => { width := 32, reset := 0, rw := 0x1, w1s := 0x2 }  -- R176
  | .prtQuarCtrl => { width := 32, reset := 0, w1s := 0x7 }  -- R176
  | .prtLivenessTimeout => { width := 32, reset := 0, rw := 0x3fff }  -- R175
  | .prtUnboundCount => { width := 32, reset := 0 }  -- R175
  | .prtBind => { width := 32, reset := 0 }  -- R175
  | .prtIso => { width := 64, reset := 0 }  -- R157
  | .prtApparent => { width := 64, reset := 0 }  -- R173
  | .prtQuotaT0 => { width := 64, reset := 0 }  -- R173
  | .prtQuotaT1 => { width := 64, reset := 0 }  -- R173
  | .prtQuotaT2 => { width := 64, reset := 0 }  -- R173
  | .prtClusters => { width := 32, reset := 0 }  -- R173
  | .prtLiveness => { width := 32, reset := 0, rw := 0xffffffff }  -- R173
  | .prtUnmatched => { width := 32, reset := 0 }  -- R173
  | .prtFrozenWrites => { width := 32, reset := 0 }  -- R173
  | .prtUnmatchedHpa => { width := 64, reset := 0 }  -- R173
  | .prtFeatCtrl => { width := 32, reset := 0, w1s := 0x1 }  -- R607
  | .prtFeatHost => { width := 32, reset := 0, rw := 0xffffff }  -- R607
  | .prtFeatAgreed => { width := 32, reset := 0 }  -- R607
  | .shwIndexLo => { width := 32, reset := 0, rw := 0xffff }  -- R186
  | .shwIndexHi => { width := 32, reset := 0, rw := 0xffff }  -- R186
  | .shwStat => { width := 32, reset := 1, rc := 0xff00 }  -- R187
  | .shwSelected => { width := 32, reset := 0 }  -- R186
  | .shwOwner => { width := 32, reset := 0 }  -- R186
  | .qdTail => { width := 32, reset := 0, rw := 0xffffffff }  -- R491
  | .qdHead => { width := 32, reset := 0 }  -- R491
  | .qdStatus => { width := 32, reset := 2, w1c := 0x1c, rc := 0xffff0000 }  -- R492
  | .qdCtrl => { width := 32, reset := 0x40000, rw := 0x1f0001 }  -- R492
  | .qdRingBase => { width := 64, reset := 0, rw := 0xffffffffffffffff }  -- R491
  | .qdSeed => { width := 64, reset := 0, rw := 0xffffffffffffffff }  -- R491
  | .qdLaunchNo => { width := 64, reset := 0 }  -- R491
  | .qdGlare => { width := 64, reset := 0 }  -- R491
  | .qdSpill => { width := 64, reset := 0 }  -- R491
  | .qdDone => { width := 64, reset := 0 }  -- R491
  | .qdFailed => { width := 32, reset := 0 }  -- R491
  | .soValue => { width := 64, reset := 0 }  -- R493
  | .soLock => { width := 32, reset := 0 }  -- R493
  | .soTarget => { width := 32, reset := 0, rw := 0xffffffff }  -- R493
  | .soWaits => { width := 32, reset := 0 }  -- R493
  | .lnsMergeAge => { width := 32, reset := 0x32, rw := 0x3ff }  -- R224
  | .lnsPressure => { width := 32, reset := 0x100, rw := 0x1fff }  -- R224
  | .lnsSlotsFree => { width := 32, reset := 0x10001000 }  -- R224
  | .lnsEvent => { width := 32, reset := 0, w1c := 0xf }  -- R225
  | .lnsPagesEncoded => { width := 64, reset := 0 }  -- R224
  | .lnsRelocations => { width := 64, reset := 0 }  -- R224
  | .lnsRefRecodes => { width := 64, reset := 0 }  -- R224
  | .lnsUStatus => { width := 32, reset := 0 }  -- R225
  | .lnsUInBytes => { width := 64, reset := 0 }  -- R224
  | .lnsUOutBytes => { width := 64, reset := 0 }  -- R224
  | .lnsUDecodeErr => { width := 32, reset := 0 }  -- R224
  | .lnsUFlipMask => { width := 64, reset := 0, rw := 0x7f3fffffffffff, w1s := 0xc000000000000000 }  -- R348
  | .lnsPOccT0 => { width := 64, reset := 0 }  -- R216
  | .lnsPOccT1 => { width := 64, reset := 0 }  -- R216
  | .lnsPOccT2 => { width := 64, reset := 0 }  -- R216
  | .lnsPMapped => { width := 64, reset := 0 }  -- R216
  | .lnsPDebt => { width := 64, reset := 0 }  -- R216
  | .lnsPReserved => { width := 64, reset := 0 }  -- R216
  | .lnsPWatermark => { width := 32, reset := 0x5a4b32, rw := 0xffffff }  -- R225
  | .lnsPEvent => { width := 32, reset := 0, w1c := 0x1f }  -- R225
  | .lnsPSlots => { width := 32, reset := 0 }  -- R224
  | .lnsPNospace => { width := 32, reset := 0 }  -- R224
  | .lnsPSlotStalls => { width := 64, reset := 0 }  -- R224
  | .lnsPCommits => { width := 64, reset := 0 }  -- R224
  | .lnsPFormatFallback => { width := 64, reset := 0 }  -- R224
  | .lnsPFlushCtrl => { width := 32, reset := 0, w1s := 0x1 }  -- R225
  | .tirAgeEpoch => { width := 32, reset := 0 }  -- R266
  | .tirThresh => { width := 32, reset := 0 }  -- R266
  | .tirEpochNow => { width := 64, reset := 0 }  -- R266
  | .tirDirtyBudget => { width := 64, reset := 0 }  -- R266
  | .tirDirtyTotal => { width := 64, reset := 0 }  -- R266
  | .tirEvent => { width := 32, reset := 0, w1c := 0x1f }  -- R267
  | .tirSweepLast => { width := 32, reset := 0 }  -- R266
  | .tirMigActive => { width := 32, reset := 0 }  -- R266
  | .tirMapHits => { width := 64, reset := 0 }  -- R266
  | .tirMapMisses => { width := 64, reset := 0 }  -- R266
  | .tirMapAddr => { width := 64, reset := 0, rw := 0xf0007fffffff0000 }  -- R266
  | .tirMapCtrl => { width := 32, reset := 0, w1s := 0x1 }  -- R266
  | .tirMapStat => { width := 32, reset := 0 }  -- R266
  | .tirMapData => { width := 32, reset := 0 }  -- R266
  | .tirPDeepMiss => { width := 64, reset := 0 }  -- R266
  | .tirPHeld => { width := 64, reset := 0 }  -- R266
  | .tirPPromotions => { width := 64, reset := 0 }  -- R266
  | .tirPDemotions => { width := 64, reset := 0 }  -- R266
  | .tirPDeclined => { width := 64, reset := 0 }  -- R266
  | .tirPReplT0 => { width := 64, reset := 0 }  -- R266
  | .tirPReplT1 => { width := 64, reset := 0 }  -- R266
  | .tirPPinnedT0 => { width := 64, reset := 0 }  -- R266
  | .tirPPinnedT1 => { width := 64, reset := 0 }  -- R266
  | .tirPDirty => { width := 64, reset := 0 }  -- R266
  | .tirPEvent => { width := 32, reset := 0, w1c := 0xf }  -- R267
  | .tirPDeepMissUs => { width := 32, reset := 0 }  -- R266
  | .tirPHoldMax => { width := 32, reset := 0, rc := 0xfffff }  -- R266
  | .tirPMigFaults => { width := 32, reset := 0 }  -- R266
  | .hbcMask => { width := 64, reset := 0 }  -- R295
  | .hbcStackState => { width := 32, reset := 0 }  -- R295
  | .hbcRhThresh => { width := 32, reset := 0x1000, rw := 0xffff }  -- R295
  | .hbcRhDelay => { width := 32, reset := 0xc8, rw := 0x3ff }  -- R295
  | .hbcRhEvents => { width := 64, reset := 0 }  -- R295
  | .hbcRhLast => { width := 64, reset := 0 }  -- R296
  | .hbcEvent => { width := 32, reset := 0, w1c := 0x7d }  -- R296
  | .hbcSTrain => { width := 32, reset := 0 }  -- R296
  | .hbcSTemp => { width := 32, reset := 0 }  -- R295
  | .hbcSThrottle => { width := 64, reset := 0 }  -- R295
  | .hbcSFlipMask => { width := 64, reset := 0, rw := 0x7f3fffffffffff, w1s := 0xc000000000000000 }  -- R348
  | .lpcMask => { width := 64, reset := 0 }  -- R294
  | .lpcGroupState => { width := 32, reset := 0 }  -- R294
  | .lpcSpare => { width := 32, reset := 0 }  -- R294
  | .lpcRebuildCtrl => { width := 32, reset := 0, w1s := 0x3 }  -- R294
  | .lpcRebuildPtr => { width := 64, reset := 0 }  -- R294
  | .lpcRhThresh => { width := 32, reset := 0x1000, rw := 0xffff }  -- R294
  | .lpcRhDelay => { width := 32, reset := 0xc8, rw := 0x3ff }  -- R294
  | .lpcRhEvents => { width := 64, reset := 0 }  -- R294
  | .lpcRhLast => { width := 64, reset := 0 }  -- R296
  | .lpcExclNight => { width := 64, reset := 0 }  -- R294
  | .lpcExclEclipse => { width := 64, reset := 0 }  -- R294
  | .lpcPasr => { width := 32, reset := 0 }  -- R294
  | .lpcEvent => { width := 32, reset := 0, w1c := 0x7f }  -- R296
  | .lpcCState => { width := 32, reset := 0 }  -- R296
  | .lpcCTrain => { width := 32, reset := 0 }  -- R296
  | .lpcCTemp => { width := 32, reset := 0 }  -- R294
  | .lpcCRecon => { width := 32, reset := 0 }  -- R294
  | .lpcCThrottle => { width := 64, reset := 0 }  -- R294
  | .lpcCFlipMask => { width := 64, reset := 0, rw := 0x7f3fffffffffff, w1s := 0xc000000000000000 }  -- R348
  | .flcCState => { width := 32, reset := 0 }  -- R327
  | .flcCTrain => { width := 32, reset := 0 }  -- R327
  | .flcCSpare => { width := 32, reset := 0 }  -- R327
  | .flcCRetired => { width := 32, reset := 0 }  -- R327
  | .flcCTimeouts => { width := 32, reset := 0 }  -- R327
  | .flcCWear => { width := 32, reset := 0 }  -- R327
  | .flcCFlipMask => { width := 64, reset := 0, rw := 0x7f3fffffffffff, w1s := 0xc000000000000000 }  -- R348
  | .carArrayState => { width := 32, reset := 0 }  -- R326
  | .carCtrl => { width := 32, reset := 0, w1s := 0x1 }  -- R325
  | .carEffCap => { width := 64, reset := 0 }  -- R325
  | .carRestripeLeft => { width := 64, reset := 0 }  -- R325
  | .carEvent => { width := 32, reset := 0, w1c := 0x3 }  -- R325
  | .carBSlotCtrl => { width := 32, reset := 0x20, rw := 0xe3, w1s := 0x1c }  -- R326
  | .carBSlotStatus => { width := 32, reset := 0 }  -- R326
  | .carBEvent => { width := 32, reset := 0, w1c := 0x1ff }  -- R326
  | .carBSparePct => { width := 32, reset := 0 }  -- R325
  | .carBErases => { width := 64, reset := 0 }  -- R325
  | .carBLive => { width := 64, reset := 0 }  -- R325
  | .carPQuotaT2Eff => { width := 64, reset := 0 }  -- R325
  | .carPKey => { width := 32, reset := 0 }  -- R326
  | .eccCtrl => { width := 32, reset := 0, rw := 0x1 }  -- R350
  | .eccStrength => { width := 32, reset := 0 }  -- R350
  | .eccEvent => { width := 32, reset := 0, w1c := 0x1ff }  -- R351
  | .eccCorrPages => { width := 64, reset := 0 }  -- R350
  | .eccCorrSymbols => { width := 64, reset := 0 }  -- R350
  | .eccUncorr => { width := 32, reset := 0 }  -- R350
  | .eccWbDropped => { width := 32, reset := 0 }  -- R350
  | .eccWbPending => { width := 32, reset := 0 }  -- R350
  | .eccFlipLast => { width := 64, reset := 0 }  -- R350
  | .eccPoisonOvf => { width := 32, reset := 0 }  -- R350
  | .eccChState => { width := 32, reset := 0 }  -- R350
  | .eccChHard => { width := 32, reset := 0 }  -- R350
  | .eccChCorr => { width := 32, reset := 0 }  -- R350
  | .eccChRemap => { width := 64, reset := 0 }  -- R351
  | .cmpLibVersion => { width := 32, reset := 0 }  -- R382
  | .cmpLibKernels => { width := 32, reset := 0 }  -- R382
  | .cmpEvent => { width := 32, reset := 0, w1c := 0x7 }  -- R383
  | .cmpKernels => { width := 64, reset := 0 }  -- R382
  | .cmpLibDigest => { width := 32, reset := 0 }  -- R382
  | .cmpClState => { width := 32, reset := 0 }  -- R383
  | .cmpClDecoded => { width := 64, reset := 0 }  -- R382
  | .cmpCoreState => { width := 32, reset := 0 }  -- R383
  | .cmpPKernels => { width := 64, reset := 0 }  -- R382
  | .cmpPSpillPages => { width := 64, reset := 0 }  -- R382
  | .cmpPGlareBlocks => { width := 64, reset := 0 }  -- R382
  | .cmpPFailed => { width := 32, reset := 0 }  -- R382
  | .cmpPReflect => { width := 32, reset := 0xc00, rw := 0x1f1f }  -- R417
  | .cmpPReflectEvents => { width := 32, reset := 0 }  -- R416
  | .cmpPReflectLast => { width := 64, reset := 0 }  -- R417
  | .cmpPNarEvent => { width := 32, reset := 0, w1c := 0xf }  -- R417
  | .queEvent => { width := 32, reset := 0, w1c := 0x7 }  -- R494
  | .queQOwner => { width := 32, reset := 0 }  -- R494
  | .synEvent => { width := 32, reset := 0, w1c := 0x1 }  -- R495
  | .synOShare => { width := 32, reset := 0, rw := 0xffff }  -- R495
  | .qosStatus => { width := 32, reset := 0 }  -- R519
  | .qosMigReserve => { width := 32, reset := 0x10, rw := 0x7f }  -- R519
  | .qosAgeUs => { width := 32, reset := 0x14, rw := 0xff }  -- R519
  | .qosUrgPins => { width := 32, reset := 0 }  -- R519
  | .qosEvent => { width := 32, reset := 0, w1c := 0x3f }  -- R519
  | .qosBgRate => { width := 32, reset := 0x600060 }  -- R519
  | .qosPState => { width := 32, reset := 0 }  -- R520
  | .qosPHostBw => { width := 32, reset := 0 }  -- R519
  | .qosPCompBw => { width := 32, reset := 0 }  -- R519
  | .qosPMisses => { width := 32, reset := 0 }  -- R519
  | .qosPMissLast => { width := 64, reset := 0 }  -- R520
  | .qosPLowered => { width := 64, reset := 0 }  -- R519
  | .qosPLatMax => { width := 32, reset := 0, rc := 0xfffff }  -- R519
  | .qosPEvent => { width := 32, reset := 0, w1c := 0x7 }  -- R520
  | .mirStatus => { width := 32, reset := 0 }  -- R543
  | .mirEvent => { width := 32, reset := 0, w1c := 0xf }  -- R543
  | .mirPartnerId => { width := 64, reset := 0 }  -- R542
  | .mirReplays => { width := 64, reset := 0 }  -- R542
  | .mirLinkLosses => { width := 32, reset := 0 }  -- R542
  | .mirPState => { width := 32, reset := 0 }  -- R543
  | .mirPCtrl => { width := 32, reset := 0, w1s := 0x7f }  -- R543
  | .mirPGeneration => { width := 64, reset := 0 }  -- R542
  | .mirPEpochSent => { width := 64, reset := 0 }  -- R542
  | .mirPEpochAcked => { width := 64, reset := 0 }  -- R542
  | .mirPEpochApplied => { width := 64, reset := 0 }  -- R542
  | .mirPLossWindow => { width := 32, reset := 0 }  -- R542
  | .mirPDiscarded => { width := 32, reset := 0 }  -- R542
  | .mirPRebuildLeft => { width := 64, reset := 0 }  -- R542
  | .mirPEvent => { width := 32, reset := 0, w1c := 0xf }  -- R543
  | .pwrState => { width := 32, reset := 0 }  -- R566
  | .pwrReq => { width := 32, reset := 0, rw := 0x3, w1s := 0x10 }  -- R566
  | .pwrResult => { width := 32, reset := 0 }  -- R566
  | .pwrCtrl => { width := 32, reset := 4, rw := 0x7 }  -- R567
  | .pwrWakeCause => { width := 32, reset := 0, rc := 0x1f1f }  -- R567
  | .pwrEvent => { width := 32, reset := 0, w1c := 0xf }  -- R567
  | .pwrDrainLast => { width := 32, reset := 0 }  -- R565
  | .pwrEntries => { width := 64, reset := 0 }  -- R565
  | .hupStatus => { width := 32, reset := 0 }  -- R586
  | .hupCtrl => { width := 32, reset := 0, w1s := 0x1 }  -- R585
  | .hupEvent => { width := 32, reset := 0, w1c := 0x7f }  -- R586
  | .hupWireFault => { width := 32, reset := 0 }  -- R585
  | .hupPackMv => { width := 32, reset := 0 }  -- R585
  | .hupCapMf => { width := 32, reset := 0x71ef }  -- R585
  | .hupEnergyJ => { width := 32, reset := 0 }  -- R585
  | .hupTemp => { width := 32, reset := 0 }  -- R585
  | .hupBudgetLimit => { width := 64, reset := 0 }  -- R585
  | .hupChargeQ => { width := 64, reset := 0 }  -- R585
  | .hupFlushLast => { width := 32, reset := 0 }  -- R585
  | .hupFlushes => { width := 64, reset := 0 }  -- R585
  | .hupCellMv => { width := 32, reset := 0 }  -- R585
  | .fwmVersion => { width := 64, reset := 0 }  -- R610
  | .fwmSecVersion => { width := 32, reset := 0 }  -- R610
  | .fwmEvent => { width := 32, reset := 0, w1c := 0x3f }  -- R611
  | .fwmPendVersion => { width := 64, reset := 0 }  -- R610
  | .fwmInputW => { width := 32, reset := 0 }  -- R610
  | .fwmTherm => { width := 32, reset := 0 }  -- R610
  | .fwmDigest => { width := 32, reset := 0 }  -- R610
  | .fwmPState => { width := 32, reset := 0 }  -- R611
  | .fwmPRestarts => { width := 32, reset := 0 }  -- R610
  | .fwmPCtrl => { width := 32, reset := 0, w1s := 0x1 }  -- R610
  | .fwmMboxCtrl => { width := 32, reset := 0, w1s := 0x1 }  -- R610
  | .fwmMboxStatus => { width := 32, reset := 0 }  -- R610

/-- One register: a name and its array indices. -/
structure RegId where
  name : RegName
  i : Nat := 0
  j : Nat := 0
  deriving DecidableEq, Repr

/-- The key of a register in the register file: distinct registers have distinct keys (indices lie below 8192). -/
def RegId.key (r : RegId) : Nat := (r.name.ctorIdx * 8192 + r.i % 8192) * 8192 + r.j % 8192

/-- A row of the address maps. `view` is the block number of R8, 19 for BAR0 (R172), 20 for the rate-mode DVSEC of a link (R120);
the register with indices (a, b), a < ni, b < nj, lies at base + si*a + sj*b. -/
structure MapRow where
  view : Nat
  base : Nat
  ni : Nat
  si : Nat
  nj : Nat
  sj : Nat
  name : RegName
  deriving DecidableEq, Repr

/-- Map rows of view 0. -/
def mapRows0 : List MapRow :=
  [⟨0, 0x0, 1, 0x0, 1, 0x0, .strStatus⟩,
   ⟨0, 0x4, 1, 0x0, 1, 0x0, .strLoadCtrl⟩,
   ⟨0, 0x8, 1, 0x0, 1, 0x0, .strReject⟩,
   ⟨0, 0xc, 1, 0x0, 1, 0x0, .strStraps⟩,
   ⟨0, 0x10, 1, 0x0, 1, 0x0, .strSource⟩,
   ⟨0, 0x18, 1, 0x0, 1, 0x0, .strActiveSeq⟩,
   ⟨0, 0x20, 1, 0x0, 1, 0x0, .strPendSeq⟩,
   ⟨0, 0x40, 12, 0x4, 1, 0x0, .strActiveDigest⟩,
   ⟨0, 0x80, 1, 0x0, 1, 0x0, .strKeyState⟩,
   ⟨0, 0x84, 1, 0x0, 1, 0x0, .strKeyRevoke⟩,
   ⟨0, 0x100, 16, 0x8, 1, 0x0, .strPartSeq⟩,
   ⟨0, 0x200, 1, 0x0, 1, 0x0, .strResetCtrl⟩,
   ⟨0, 0x204, 1, 0x0, 1, 0x0, .strResetCause⟩,
   ⟨0, 0x208, 1, 0x0, 1, 0x0, .strStartState⟩,
   ⟨0, 0x20c, 1, 0x0, 1, 0x0, .strRestoreFail⟩]

/-- Map rows of view 1. -/
def mapRows1 : List MapRow :=
  [⟨1, 0x0, 32, 0x1000, 1, 0x0, .lnkStatus⟩,
   ⟨1, 0x4, 32, 0x1000, 1, 0x0, .lnkCtrl⟩,
   ⟨1, 0x8, 32, 0x1000, 1, 0x0, .lnkErrCorr⟩,
   ⟨1, 0xc, 32, 0x1000, 1, 0x0, .lnkErrUncorr⟩,
   ⟨1, 0x10, 32, 0x1000, 1, 0x0, .lnkRecovery⟩,
   ⟨1, 0x18, 32, 0x1000, 1, 0x0, .lnkLostCount⟩,
   ⟨1, 0x20, 32, 0x1000, 1, 0x0, .lnkLostHead⟩,
   ⟨1, 0x24, 32, 0x1000, 1, 0x0, .lnkEvent⟩,
   ⟨1, 0x800, 32, 0x1000, 256, 0x8, .lnkLostLog⟩]

/-- Map rows of view 2. -/
def mapRows2 : List MapRow :=
  [⟨2, 0x0, 16, 0x1000, 1, 0x0, .prtState⟩,
   ⟨2, 0x4, 16, 0x1000, 1, 0x0, .prtQuiesceCtrl⟩,
   ⟨2, 0x8, 16, 0x1000, 1, 0x0, .prtQuarCtrl⟩,
   ⟨2, 0xc, 16, 0x1000, 1, 0x0, .prtLivenessTimeout⟩,
   ⟨2, 0x60000, 1, 0x0, 1, 0x0, .prtUnboundCount⟩,
   ⟨2, 0x70000, 128, 0x4, 1, 0x0, .prtBind⟩,
   ⟨2, 0x80000, 1024, 0x20, 4, 0x8, .prtIso⟩]

/-- Map rows of view 3. -/
def mapRows3 : List MapRow :=
  [⟨3, 0x0, 1, 0x0, 1, 0x0, .lnsMergeAge⟩,
   ⟨3, 0x4, 1, 0x0, 1, 0x0, .lnsPressure⟩,
   ⟨3, 0x8, 1, 0x0, 1, 0x0, .lnsSlotsFree⟩,
   ⟨3, 0x10, 1, 0x0, 1, 0x0, .lnsEvent⟩,
   ⟨3, 0x18, 1, 0x0, 1, 0x0, .lnsPagesEncoded⟩,
   ⟨3, 0x20, 1, 0x0, 1, 0x0, .lnsRelocations⟩,
   ⟨3, 0x28, 1, 0x0, 1, 0x0, .lnsRefRecodes⟩,
   ⟨3, 0x1000, 48, 0x100, 1, 0x0, .lnsUStatus⟩,
   ⟨3, 0x1008, 48, 0x100, 1, 0x0, .lnsUInBytes⟩,
   ⟨3, 0x1010, 48, 0x100, 1, 0x0, .lnsUOutBytes⟩,
   ⟨3, 0x1018, 48, 0x100, 1, 0x0, .lnsUDecodeErr⟩,
   ⟨3, 0x1020, 48, 0x100, 1, 0x0, .lnsUFlipMask⟩,
   ⟨3, 0x10000, 16, 0x100, 1, 0x0, .lnsPOccT0⟩,
   ⟨3, 0x10008, 16, 0x100, 1, 0x0, .lnsPOccT1⟩,
   ⟨3, 0x10010, 16, 0x100, 1, 0x0, .lnsPOccT2⟩,
   ⟨3, 0x10018, 16, 0x100, 1, 0x0, .lnsPMapped⟩,
   ⟨3, 0x10020, 16, 0x100, 1, 0x0, .lnsPDebt⟩,
   ⟨3, 0x10028, 16, 0x100, 1, 0x0, .lnsPReserved⟩,
   ⟨3, 0x10030, 16, 0x100, 1, 0x0, .lnsPWatermark⟩,
   ⟨3, 0x10034, 16, 0x100, 1, 0x0, .lnsPEvent⟩,
   ⟨3, 0x10038, 16, 0x100, 1, 0x0, .lnsPSlots⟩,
   ⟨3, 0x1003c, 16, 0x100, 1, 0x0, .lnsPNospace⟩,
   ⟨3, 0x10040, 16, 0x100, 1, 0x0, .lnsPSlotStalls⟩,
   ⟨3, 0x10048, 16, 0x100, 1, 0x0, .lnsPCommits⟩,
   ⟨3, 0x10050, 16, 0x100, 1, 0x0, .lnsPFormatFallback⟩,
   ⟨3, 0x10058, 16, 0x100, 1, 0x0, .lnsPFlushCtrl⟩]

/-- Map rows of view 4. -/
def mapRows4 : List MapRow :=
  [⟨4, 0x0, 1, 0x0, 1, 0x0, .tirAgeEpoch⟩,
   ⟨4, 0x4, 1, 0x0, 1, 0x0, .tirThresh⟩,
   ⟨4, 0x8, 1, 0x0, 1, 0x0, .tirEpochNow⟩,
   ⟨4, 0x10, 1, 0x0, 1, 0x0, .tirDirtyBudget⟩,
   ⟨4, 0x18, 1, 0x0, 1, 0x0, .tirDirtyTotal⟩,
   ⟨4, 0x20, 1, 0x0, 1, 0x0, .tirEvent⟩,
   ⟨4, 0x24, 1, 0x0, 1, 0x0, .tirSweepLast⟩,
   ⟨4, 0x28, 1, 0x0, 1, 0x0, .tirMigActive⟩,
   ⟨4, 0x30, 1, 0x0, 1, 0x0, .tirMapHits⟩,
   ⟨4, 0x38, 1, 0x0, 1, 0x0, .tirMapMisses⟩,
   ⟨4, 0x100, 1, 0x0, 1, 0x0, .tirMapAddr⟩,
   ⟨4, 0x108, 1, 0x0, 1, 0x0, .tirMapCtrl⟩,
   ⟨4, 0x10c, 1, 0x0, 1, 0x0, .tirMapStat⟩,
   ⟨4, 0x140, 16, 0x4, 1, 0x0, .tirMapData⟩,
   ⟨4, 0x10000, 16, 0x100, 1, 0x0, .tirPDeepMiss⟩,
   ⟨4, 0x10008, 16, 0x100, 1, 0x0, .tirPHeld⟩,
   ⟨4, 0x10010, 16, 0x100, 1, 0x0, .tirPPromotions⟩,
   ⟨4, 0x10018, 16, 0x100, 1, 0x0, .tirPDemotions⟩,
   ⟨4, 0x10020, 16, 0x100, 1, 0x0, .tirPDeclined⟩,
   ⟨4, 0x10028, 16, 0x100, 1, 0x0, .tirPReplT0⟩,
   ⟨4, 0x10030, 16, 0x100, 1, 0x0, .tirPReplT1⟩,
   ⟨4, 0x10038, 16, 0x100, 1, 0x0, .tirPPinnedT0⟩,
   ⟨4, 0x10040, 16, 0x100, 1, 0x0, .tirPPinnedT1⟩,
   ⟨4, 0x10048, 16, 0x100, 1, 0x0, .tirPDirty⟩,
   ⟨4, 0x10050, 16, 0x100, 1, 0x0, .tirPEvent⟩,
   ⟨4, 0x10054, 16, 0x100, 1, 0x0, .tirPDeepMissUs⟩,
   ⟨4, 0x10058, 16, 0x100, 1, 0x0, .tirPHoldMax⟩,
   ⟨4, 0x1005c, 16, 0x100, 1, 0x0, .tirPMigFaults⟩]

/-- Map rows of view 5. -/
def mapRows5 : List MapRow :=
  [⟨5, 0x0, 4, 0x8, 1, 0x0, .hbcMask⟩,
   ⟨5, 0x20, 1, 0x0, 1, 0x0, .hbcStackState⟩,
   ⟨5, 0x40, 1, 0x0, 1, 0x0, .hbcRhThresh⟩,
   ⟨5, 0x44, 1, 0x0, 1, 0x0, .hbcRhDelay⟩,
   ⟨5, 0x48, 1, 0x0, 1, 0x0, .hbcRhEvents⟩,
   ⟨5, 0x50, 1, 0x0, 1, 0x0, .hbcRhLast⟩,
   ⟨5, 0x6c, 1, 0x0, 1, 0x0, .hbcEvent⟩,
   ⟨5, 0x10004, 8, 0x100, 1, 0x0, .hbcSTrain⟩,
   ⟨5, 0x10008, 8, 0x100, 1, 0x0, .hbcSTemp⟩,
   ⟨5, 0x10010, 8, 0x100, 1, 0x0, .hbcSThrottle⟩,
   ⟨5, 0x10018, 8, 0x100, 1, 0x0, .hbcSFlipMask⟩]

/-- Map rows of view 6. -/
def mapRows6 : List MapRow :=
  [⟨6, 0x0, 4, 0x8, 1, 0x0, .lpcMask⟩,
   ⟨6, 0x20, 1, 0x0, 1, 0x0, .lpcGroupState⟩,
   ⟨6, 0x24, 1, 0x0, 1, 0x0, .lpcSpare⟩,
   ⟨6, 0x28, 1, 0x0, 1, 0x0, .lpcRebuildCtrl⟩,
   ⟨6, 0x30, 2, 0x8, 1, 0x0, .lpcRebuildPtr⟩,
   ⟨6, 0x40, 1, 0x0, 1, 0x0, .lpcRhThresh⟩,
   ⟨6, 0x44, 1, 0x0, 1, 0x0, .lpcRhDelay⟩,
   ⟨6, 0x48, 1, 0x0, 1, 0x0, .lpcRhEvents⟩,
   ⟨6, 0x50, 1, 0x0, 1, 0x0, .lpcRhLast⟩,
   ⟨6, 0x58, 1, 0x0, 1, 0x0, .lpcExclNight⟩,
   ⟨6, 0x60, 1, 0x0, 1, 0x0, .lpcExclEclipse⟩,
   ⟨6, 0x68, 1, 0x0, 1, 0x0, .lpcPasr⟩,
   ⟨6, 0x6c, 1, 0x0, 1, 0x0, .lpcEvent⟩,
   ⟨6, 0x10000, 34, 0x100, 1, 0x0, .lpcCState⟩,
   ⟨6, 0x10004, 34, 0x100, 1, 0x0, .lpcCTrain⟩,
   ⟨6, 0x10008, 34, 0x100, 1, 0x0, .lpcCTemp⟩,
   ⟨6, 0x1000c, 34, 0x100, 1, 0x0, .lpcCRecon⟩,
   ⟨6, 0x10010, 34, 0x100, 1, 0x0, .lpcCThrottle⟩,
   ⟨6, 0x10018, 34, 0x100, 1, 0x0, .lpcCFlipMask⟩]

/-- Map rows of view 7. -/
def mapRows7 : List MapRow :=
  [⟨7, 0x10000, 32, 0x100, 1, 0x0, .flcCState⟩,
   ⟨7, 0x10004, 32, 0x100, 1, 0x0, .flcCTrain⟩,
   ⟨7, 0x10008, 32, 0x100, 1, 0x0, .flcCSpare⟩,
   ⟨7, 0x1000c, 32, 0x100, 1, 0x0, .flcCRetired⟩,
   ⟨7, 0x10010, 32, 0x100, 1, 0x0, .flcCTimeouts⟩,
   ⟨7, 0x10014, 32, 0x100, 1, 0x0, .flcCWear⟩,
   ⟨7, 0x10018, 32, 0x100, 1, 0x0, .flcCFlipMask⟩]

/-- Map rows of view 8. -/
def mapRows8 : List MapRow :=
  [⟨8, 0x0, 1, 0x0, 1, 0x0, .carArrayState⟩,
   ⟨8, 0x4, 1, 0x0, 1, 0x0, .carCtrl⟩,
   ⟨8, 0x8, 1, 0x0, 1, 0x0, .carEffCap⟩,
   ⟨8, 0x10, 1, 0x0, 1, 0x0, .carRestripeLeft⟩,
   ⟨8, 0x18, 1, 0x0, 1, 0x0, .carEvent⟩,
   ⟨8, 0x1000, 4, 0x100, 1, 0x0, .carBSlotCtrl⟩,
   ⟨8, 0x1004, 4, 0x100, 1, 0x0, .carBSlotStatus⟩,
   ⟨8, 0x1008, 4, 0x100, 1, 0x0, .carBEvent⟩,
   ⟨8, 0x100c, 4, 0x100, 1, 0x0, .carBSparePct⟩,
   ⟨8, 0x1010, 4, 0x100, 1, 0x0, .carBErases⟩,
   ⟨8, 0x1018, 4, 0x100, 1, 0x0, .carBLive⟩,
   ⟨8, 0x10000, 16, 0x100, 1, 0x0, .carPQuotaT2Eff⟩,
   ⟨8, 0x10008, 16, 0x100, 1, 0x0, .carPKey⟩]

/-- Map rows of view 9. -/
def mapRows9 : List MapRow :=
  [⟨9, 0x0, 1, 0x0, 1, 0x0, .eccCtrl⟩,
   ⟨9, 0x4, 1, 0x0, 1, 0x0, .eccStrength⟩,
   ⟨9, 0x8, 1, 0x0, 1, 0x0, .eccEvent⟩,
   ⟨9, 0x10, 1, 0x0, 1, 0x0, .eccCorrPages⟩,
   ⟨9, 0x18, 1, 0x0, 1, 0x0, .eccCorrSymbols⟩,
   ⟨9, 0x20, 1, 0x0, 1, 0x0, .eccUncorr⟩,
   ⟨9, 0x24, 1, 0x0, 1, 0x0, .eccWbDropped⟩,
   ⟨9, 0x28, 1, 0x0, 1, 0x0, .eccWbPending⟩,
   ⟨9, 0x30, 1, 0x0, 1, 0x0, .eccFlipLast⟩,
   ⟨9, 0x38, 1, 0x0, 1, 0x0, .eccPoisonOvf⟩,
   ⟨9, 0x10000, 192, 0x100, 1, 0x0, .eccChState⟩,
   ⟨9, 0x10004, 192, 0x100, 1, 0x0, .eccChHard⟩,
   ⟨9, 0x10008, 192, 0x100, 1, 0x0, .eccChCorr⟩,
   ⟨9, 0x10040, 192, 0x100, 16, 0x8, .eccChRemap⟩]

/-- Map rows of view 10. -/
def mapRows10 : List MapRow :=
  [⟨10, 0x0, 1, 0x0, 1, 0x0, .cmpLibVersion⟩,
   ⟨10, 0x4, 1, 0x0, 1, 0x0, .cmpLibKernels⟩,
   ⟨10, 0x8, 1, 0x0, 1, 0x0, .cmpEvent⟩,
   ⟨10, 0x10, 1, 0x0, 1, 0x0, .cmpKernels⟩,
   ⟨10, 0x40, 12, 0x4, 1, 0x0, .cmpLibDigest⟩,
   ⟨10, 0x1000, 32, 0x40, 1, 0x0, .cmpClState⟩,
   ⟨10, 0x1008, 32, 0x40, 1, 0x0, .cmpClDecoded⟩,
   ⟨10, 0x2000, 256, 0x10, 1, 0x0, .cmpCoreState⟩,
   ⟨10, 0x10000, 16, 0x100, 1, 0x0, .cmpPKernels⟩,
   ⟨10, 0x10008, 16, 0x100, 1, 0x0, .cmpPSpillPages⟩,
   ⟨10, 0x10010, 16, 0x100, 1, 0x0, .cmpPGlareBlocks⟩,
   ⟨10, 0x10018, 16, 0x100, 1, 0x0, .cmpPFailed⟩,
   ⟨10, 0x10020, 16, 0x100, 1, 0x0, .cmpPReflect⟩,
   ⟨10, 0x10024, 16, 0x100, 1, 0x0, .cmpPReflectEvents⟩,
   ⟨10, 0x10028, 16, 0x100, 1, 0x0, .cmpPReflectLast⟩,
   ⟨10, 0x10030, 16, 0x100, 1, 0x0, .cmpPNarEvent⟩]

/-- Map rows of view 11. -/
def mapRows11 : List MapRow :=
  [⟨11, 0x0, 1, 0x0, 1, 0x0, .queEvent⟩,
   ⟨11, 0x40000, 4096, 0x40, 1, 0x0, .queQOwner⟩,
   ⟨11, 0x40004, 4096, 0x40, 1, 0x0, .qdStatus⟩,
   ⟨11, 0x40008, 4096, 0x40, 1, 0x0, .qdHead⟩,
   ⟨11, 0x4000c, 4096, 0x40, 1, 0x0, .qdTail⟩,
   ⟨11, 0x40010, 4096, 0x40, 1, 0x0, .qdDone⟩]

/-- Map rows of view 12. -/
def mapRows12 : List MapRow :=
  [⟨12, 0x0, 1, 0x0, 1, 0x0, .synEvent⟩,
   ⟨12, 0x10000, 8192, 0x10, 1, 0x0, .soValue⟩,
   ⟨12, 0x10008, 8192, 0x10, 1, 0x0, .synOShare⟩,
   ⟨12, 0x1000c, 8192, 0x10, 1, 0x0, .soLock⟩]

/-- Map rows of view 13. -/
def mapRows13 : List MapRow :=
  [⟨13, 0x0, 1, 0x0, 1, 0x0, .qosStatus⟩,
   ⟨13, 0x4, 1, 0x0, 1, 0x0, .qosMigReserve⟩,
   ⟨13, 0x8, 1, 0x0, 1, 0x0, .qosAgeUs⟩,
   ⟨13, 0xc, 1, 0x0, 1, 0x0, .qosUrgPins⟩,
   ⟨13, 0x10, 1, 0x0, 1, 0x0, .qosEvent⟩,
   ⟨13, 0x14, 1, 0x0, 1, 0x0, .qosBgRate⟩,
   ⟨13, 0x10000, 16, 0x100, 1, 0x0, .qosPState⟩,
   ⟨13, 0x10004, 16, 0x100, 1, 0x0, .qosPHostBw⟩,
   ⟨13, 0x10008, 16, 0x100, 1, 0x0, .qosPCompBw⟩,
   ⟨13, 0x1000c, 16, 0x100, 1, 0x0, .qosPMisses⟩,
   ⟨13, 0x10010, 16, 0x100, 1, 0x0, .qosPMissLast⟩,
   ⟨13, 0x10018, 16, 0x100, 1, 0x0, .qosPLowered⟩,
   ⟨13, 0x10020, 16, 0x100, 4, 0x4, .qosPLatMax⟩,
   ⟨13, 0x10030, 16, 0x100, 1, 0x0, .qosPEvent⟩]

/-- Map rows of view 14. -/
def mapRows14 : List MapRow :=
  [⟨14, 0x0, 1, 0x0, 1, 0x0, .mirStatus⟩,
   ⟨14, 0x8, 1, 0x0, 1, 0x0, .mirEvent⟩,
   ⟨14, 0x10, 1, 0x0, 1, 0x0, .mirPartnerId⟩,
   ⟨14, 0x18, 1, 0x0, 1, 0x0, .mirReplays⟩,
   ⟨14, 0x20, 1, 0x0, 1, 0x0, .mirLinkLosses⟩,
   ⟨14, 0x10000, 16, 0x100, 1, 0x0, .mirPState⟩,
   ⟨14, 0x10004, 16, 0x100, 1, 0x0, .mirPCtrl⟩,
   ⟨14, 0x10008, 16, 0x100, 1, 0x0, .mirPGeneration⟩,
   ⟨14, 0x10010, 16, 0x100, 1, 0x0, .mirPEpochSent⟩,
   ⟨14, 0x10018, 16, 0x100, 1, 0x0, .mirPEpochAcked⟩,
   ⟨14, 0x10020, 16, 0x100, 1, 0x0, .mirPEpochApplied⟩,
   ⟨14, 0x10028, 16, 0x100, 1, 0x0, .mirPLossWindow⟩,
   ⟨14, 0x1002c, 16, 0x100, 1, 0x0, .mirPDiscarded⟩,
   ⟨14, 0x10030, 16, 0x100, 1, 0x0, .mirPRebuildLeft⟩,
   ⟨14, 0x10038, 16, 0x100, 1, 0x0, .mirPEvent⟩]

/-- Map rows of view 15. -/
def mapRows15 : List MapRow :=
  [⟨15, 0x0, 1, 0x0, 1, 0x0, .pwrState⟩,
   ⟨15, 0x4, 1, 0x0, 1, 0x0, .pwrReq⟩,
   ⟨15, 0x8, 1, 0x0, 1, 0x0, .pwrResult⟩,
   ⟨15, 0xc, 1, 0x0, 1, 0x0, .pwrCtrl⟩,
   ⟨15, 0x10, 1, 0x0, 1, 0x0, .pwrWakeCause⟩,
   ⟨15, 0x14, 1, 0x0, 1, 0x0, .pwrEvent⟩,
   ⟨15, 0x18, 1, 0x0, 1, 0x0, .pwrDrainLast⟩,
   ⟨15, 0x20, 1, 0x0, 1, 0x0, .pwrEntries⟩]

/-- Map rows of view 16. -/
def mapRows16 : List MapRow :=
  [⟨16, 0x0, 1, 0x0, 1, 0x0, .hupStatus⟩,
   ⟨16, 0x4, 1, 0x0, 1, 0x0, .hupCtrl⟩,
   ⟨16, 0x8, 1, 0x0, 1, 0x0, .hupEvent⟩,
   ⟨16, 0xc, 1, 0x0, 1, 0x0, .hupWireFault⟩,
   ⟨16, 0x10, 1, 0x0, 1, 0x0, .hupPackMv⟩,
   ⟨16, 0x14, 1, 0x0, 1, 0x0, .hupCapMf⟩,
   ⟨16, 0x18, 1, 0x0, 1, 0x0, .hupEnergyJ⟩,
   ⟨16, 0x1c, 1, 0x0, 1, 0x0, .hupTemp⟩,
   ⟨16, 0x20, 1, 0x0, 1, 0x0, .hupBudgetLimit⟩,
   ⟨16, 0x28, 1, 0x0, 1, 0x0, .hupChargeQ⟩,
   ⟨16, 0x30, 1, 0x0, 1, 0x0, .hupFlushLast⟩,
   ⟨16, 0x38, 1, 0x0, 1, 0x0, .hupFlushes⟩,
   ⟨16, 0x40, 12, 0x4, 1, 0x0, .hupCellMv⟩]

/-- Map rows of view 17. -/
def mapRows17 : List MapRow :=
  [⟨17, 0x0, 1, 0x0, 1, 0x0, .fwmVersion⟩,
   ⟨17, 0x8, 1, 0x0, 1, 0x0, .fwmSecVersion⟩,
   ⟨17, 0xc, 1, 0x0, 1, 0x0, .fwmEvent⟩,
   ⟨17, 0x10, 1, 0x0, 1, 0x0, .fwmPendVersion⟩,
   ⟨17, 0x20, 1, 0x0, 1, 0x0, .fwmInputW⟩,
   ⟨17, 0x24, 1, 0x0, 1, 0x0, .fwmTherm⟩,
   ⟨17, 0x40, 12, 0x4, 1, 0x0, .fwmDigest⟩,
   ⟨17, 0x100, 12, 0x10, 1, 0x0, .fwmPState⟩,
   ⟨17, 0x104, 12, 0x10, 1, 0x0, .fwmPRestarts⟩,
   ⟨17, 0x108, 12, 0x10, 1, 0x0, .fwmPCtrl⟩,
   ⟨17, 0x1000, 1, 0x0, 1, 0x0, .fwmMboxCtrl⟩,
   ⟨17, 0x1004, 1, 0x0, 1, 0x0, .fwmMboxStatus⟩]

/-- Map rows of view 18. -/
def mapRows18 : List MapRow :=
  [⟨18, 0x0, 1, 0x0, 1, 0x0, .shwIndexLo⟩,
   ⟨18, 0x4, 1, 0x0, 1, 0x0, .shwIndexHi⟩,
   ⟨18, 0x8, 1, 0x0, 1, 0x0, .shwStat⟩,
   ⟨18, 0xc, 1, 0x0, 1, 0x0, .shwSelected⟩,
   ⟨18, 0x10, 1, 0x0, 1, 0x0, .shwOwner⟩]

/-- Map rows of view 19. -/
def mapRows19 : List MapRow :=
  [⟨19, 0x1000000, 1, 0x0, 1, 0x0, .prtState⟩,
   ⟨19, 0x1000034, 1, 0x0, 1, 0x0, .prtLivenessTimeout⟩,
   ⟨19, 0x1000008, 1, 0x0, 1, 0x0, .prtApparent⟩,
   ⟨19, 0x1000010, 1, 0x0, 1, 0x0, .prtQuotaT0⟩,
   ⟨19, 0x1000018, 1, 0x0, 1, 0x0, .prtQuotaT1⟩,
   ⟨19, 0x1000020, 1, 0x0, 1, 0x0, .prtQuotaT2⟩,
   ⟨19, 0x1000028, 1, 0x0, 1, 0x0, .prtClusters⟩,
   ⟨19, 0x1000030, 1, 0x0, 1, 0x0, .prtLiveness⟩,
   ⟨19, 0x1000038, 1, 0x0, 1, 0x0, .prtUnmatched⟩,
   ⟨19, 0x100003c, 1, 0x0, 1, 0x0, .prtFrozenWrites⟩,
   ⟨19, 0x1000040, 1, 0x0, 1, 0x0, .prtUnmatchedHpa⟩,
   ⟨19, 0x1001000, 1, 0x0, 1, 0x0, .prtFeatCtrl⟩,
   ⟨19, 0x1001100, 1, 0x0, 64, 0x4, .prtFeatHost⟩,
   ⟨19, 0x1001200, 1, 0x0, 64, 0x4, .prtFeatAgreed⟩,
   ⟨19, 0x1002000, 1, 0x0, 1, 0x0, .shwIndexLo⟩,
   ⟨19, 0x1002004, 1, 0x0, 1, 0x0, .shwIndexHi⟩,
   ⟨19, 0x1002008, 1, 0x0, 1, 0x0, .shwStat⟩,
   ⟨19, 0x100200c, 1, 0x0, 1, 0x0, .shwSelected⟩,
   ⟨19, 0x2000000, 4096, 0x1000, 1, 0x0, .qdTail⟩,
   ⟨19, 0x2000004, 4096, 0x1000, 1, 0x0, .qdHead⟩,
   ⟨19, 0x2000008, 4096, 0x1000, 1, 0x0, .qdStatus⟩,
   ⟨19, 0x200000c, 4096, 0x1000, 1, 0x0, .qdCtrl⟩,
   ⟨19, 0x2000010, 4096, 0x1000, 1, 0x0, .qdRingBase⟩,
   ⟨19, 0x2000018, 4096, 0x1000, 1, 0x0, .qdSeed⟩,
   ⟨19, 0x2000020, 4096, 0x1000, 1, 0x0, .qdLaunchNo⟩,
   ⟨19, 0x2000028, 4096, 0x1000, 1, 0x0, .qdGlare⟩,
   ⟨19, 0x2000030, 4096, 0x1000, 1, 0x0, .qdSpill⟩,
   ⟨19, 0x2000038, 4096, 0x1000, 1, 0x0, .qdDone⟩,
   ⟨19, 0x2000040, 4096, 0x1000, 1, 0x0, .qdFailed⟩,
   ⟨19, 0x3000000, 8192, 0x40, 1, 0x0, .soValue⟩,
   ⟨19, 0x3000008, 8192, 0x40, 1, 0x0, .soLock⟩,
   ⟨19, 0x300000c, 8192, 0x40, 1, 0x0, .soTarget⟩,
   ⟨19, 0x3000010, 8192, 0x40, 1, 0x0, .soWaits⟩]

/-- Map rows of view 20. -/
def mapRows20 : List MapRow :=
  [⟨20, 0xc, 1, 0x0, 1, 0x0, .cylRateCap⟩,
   ⟨20, 0x10, 1, 0x0, 1, 0x0, .cylRateCtrl⟩,
   ⟨20, 0x14, 1, 0x0, 1, 0x0, .cylRateStatus⟩,
   ⟨20, 0x18, 1, 0x0, 1, 0x0, .cylRateCount⟩]

/-- Map rows of a view: the blocks of R8 by number, BAR0 (19), the DVSEC (20). -/
def mapRows (view : Nat) : List MapRow :=
  match view with
  | 0 => mapRows0
  | 1 => mapRows1
  | 2 => mapRows2
  | 3 => mapRows3
  | 4 => mapRows4
  | 5 => mapRows5
  | 6 => mapRows6
  | 7 => mapRows7
  | 8 => mapRows8
  | 9 => mapRows9
  | 10 => mapRows10
  | 11 => mapRows11
  | 12 => mapRows12
  | 13 => mapRows13
  | 14 => mapRows14
  | 15 => mapRows15
  | 16 => mapRows16
  | 17 => mapRows17
  | 18 => mapRows18
  | 19 => mapRows19
  | 20 => mapRows20
  | _ => []

/-- Where an offset falls in one map row: the indices, and the byte offset inside the register (0 or 4). -/
def MapRow.hit (m : MapRow) (off : Nat) : Option (RegId × Nat) :=
  if off < m.base then none else
  let d := off - m.base
  let a := if m.si = 0 then 0 else min (d / m.si) (m.ni - 1)
  let e := d - a * m.si
  let b := if m.sj = 0 then 0 else min (e / m.sj) (m.nj - 1)
  let r := e - b * m.sj
  if r < m.name.row.width / 8 then some (⟨m.name, a, b⟩, r) else none

/-- The register at an offset of a view, and the byte offset inside it; none where the map assigns nothing (R11). -/
def lookupIn : List MapRow → Nat → Option (RegId × Nat)
  | [], _ => none
  | m :: t, off => match m.hit off with
    | some x => some x
    | none => lookupIn t off

/-- The management-view blocks of R8: base, size and number. -/
def mgmtBlocks : List (Nat × Nat × Nat) :=
  [(0, 0x100000, 0), (0x100000, 0x100000, 1), (0x200000, 0x100000, 2), (0x300000, 0x100000, 3), (0x400000, 0x100000, 4),
   (0x500000, 0x80000, 5), (0x580000, 0x80000, 6), (0x600000, 0x80000, 7), (0x680000, 0x80000, 8), (0x700000, 0x100000, 9),
   (0x800000, 0x100000, 10), (0x900000, 0x100000, 11), (0xA00000, 0x100000, 12), (0xB00000, 0x100000, 13),
   (0xC00000, 0x100000, 14), (0xD00000, 0x80000, 15), (0xD80000, 0x80000, 16), (0xE00000, 0x100000, 17), (0xF00000, 0x100000, 18)]

/-- The register at an offset of the management view (R8). -/
def lookupMgmt (off : Nat) : Option (RegId × Nat) :=
  match mgmtBlocks.find? (fun b => decide (b.1 ≤ off ∧ off < b.1 + b.2.1)) with
  | none => none
  | some b => lookupIn (mapRows b.2.2) (off - b.1)

/-- The register file: keys of registers whose value differs from their reset value. -/
abbrev RegFile := Store Word

/-- The value a register holds after module cold reset (R14). -/
def RegId.resetWord (r : RegId) : Word :=
  let i := r.i % 8192
  match r.name with
  | .lnsUStatus => if i < 16 then 2 else 0
  | .lpcCState => let c := i % 17; if c = 16 then 0 else BitVec.ofNat 64 ((c % 8) * 16 + (2 * (i / 17) + c / 8) * 256)
  | .eccChState => 0x10000
  | _ => BitVec.ofNat 64 r.name.row.reset

/-- The register that a key of the register file stands for. -/
def RegId.ofKey (k : Nat) : RegId := { name := RegName.ofNat (k / 8192 / 8192), i := k / 8192 % 8192, j := k % 8192 }

/-- The register holding a value; every register is read here. -/
def RegFile.read (f : RegFile) (r : RegId) : Word := Store.get r.resetWord r.key f

/-- Store a register value, cut to the register's width. -/
def RegFile.write (f : RegFile) (r : RegId) (v : Word) : RegFile :=
  Store.set r.resetWord r.key (if r.name.row.width = 32 then v &&& 0xFFFFFFFF else v) f

/-- The canonical form: keys rising, no register listed at its reset value, and every value cut to its register's width. -/
def RegFile.wf (f : RegFile) : Bool :=
  Store.wf (fun k => (RegId.ofKey k).resetWord) f &&
    f.all (fun e => decide ((RegId.ofKey e.1).name.row.width = 32 → e.2 &&& 0xFFFFFFFF = e.2))

end Sys2Proof.Machine
end

