-- ==== Sys2Proof/Machine/Xts.lean ====
section
/-! DEFINITION. AES-256-XTS over one 64-byte sector (09 R321: IEEE 1619, NIST SP 800-38E; FIPS 197). -/

namespace Sys2Proof.Machine

/-- Multiply two bytes in GF(2^8) modulo x^8 + x^4 + x^3 + x + 1. -/
def aesMul : Nat → Nat → Nat → Nat
  | 0, _, _ => 0
  | n + 1, a, b => (if b % 2 = 1 then a else 0) ^^^ aesMul n (if 128 ≤ a then (2 * a) % 256 ^^^ 0x1B else 2 * a) (b / 2)
/-- Product of two bytes. -/
def aesX (a b : Nat) : Nat := aesMul 8 a b
/-- Inverse of a byte, 0 for 0: its 254th power. -/
def aesInv (a : Nat) : Nat :=
  let p2 := aesX a a
  let p4 := aesX p2 p2
  let p8 := aesX p4 p4
  let p16 := aesX p8 p8
  let p32 := aesX p16 p16
  let p64 := aesX p32 p32
  let p128 := aesX p64 p64
  aesX (aesX (aesX p2 p4) (aesX p8 p16)) (aesX (aesX p32 p64) p128)
/-- A byte rotated left. -/
def rotByte (x n : Nat) : Nat := (x * 2 ^ n + x / 2 ^ (8 - n)) % 256
/-- SubBytes of one byte, and its inverse. -/
def aesSub (x : Nat) : Nat := let i := aesInv x; i ^^^ rotByte i 1 ^^^ rotByte i 2 ^^^ rotByte i 3 ^^^ rotByte i 4 ^^^ 0x63
def aesUnsub (x : Nat) : Nat := aesInv (rotByte x 1 ^^^ rotByte x 3 ^^^ rotByte x 6 ^^^ 0x05)

/-- XOR of two byte lists of one length. -/
def xorBytes (a b : List Nat) : List Nat := (a.zip b).map (fun x => x.1 ^^^ x.2)
/-- Words 8, 9, … of the AES-256 key expansion: `l` the words so far, last first. -/
def aesExpand : Nat → Nat → List (List Nat) → List (List Nat)
  | 0, _, l => l
  | n + 1, i, l =>
    let t := l.headD []
    let t := if i % 8 = 0 then
        match (t.drop 1 ++ t.take 1).map aesSub with
        | h :: r => (h ^^^ 2 ^ (i / 8 - 1)) :: r
        | [] => []
      else if i % 8 = 4 then t.map aesSub else t
    aesExpand n (i + 1) (xorBytes (l.getD 7 []) t :: l)
/-- The fifteen round keys of a 256-bit key, given as 32 bytes. -/
def aesKeys (k : List Nat) : List (List Nat) :=
  let w := (aesExpand 52 8 (((List.range 8).map (fun i => (k.drop (4 * i)).take 4)).reverse)).reverse
  (List.range 15).map (fun r => (w.drop (4 * r)).take 4 |>.flatten)
/-- Byte r + 4c of a block moves from column c + r, or to it. -/
def shiftRows (s : List Nat) : List Nat := (List.range 16).map (fun i => s.getD (i % 4 + 4 * ((i / 4 + i % 4) % 4)) 0)
def unshiftRows (s : List Nat) : List Nat := (List.range 16).map (fun i => s.getD (i % 4 + 4 * ((i / 4 + 4 - i % 4) % 4)) 0)
/-- Every column times the circulant matrix of a row. -/
def mixCols (m : List Nat) (s : List Nat) : List Nat :=
  (List.range 16).map (fun i => (List.range 4).foldl (fun a j => a ^^^ aesX (m.getD ((j + 4 - i % 4) % 4) 0) (s.getD (i / 4 * 4 + j) 0)) 0)
/-- The AES-256 cipher of a block and its inverse (FIPS 197). -/
def aesEnc (ks : List (List Nat)) (b : List Nat) : List Nat :=
  let s := ((List.range 13).map (· + 1)).foldl (fun s r => xorBytes (mixCols [2, 3, 1, 1] (shiftRows (s.map aesSub))) (ks.getD r [])) (xorBytes b (ks.getD 0 []))
  xorBytes (shiftRows (s.map aesSub)) (ks.getD 14 [])
def aesDec (ks : List (List Nat)) (b : List Nat) : List Nat :=
  let s := ((List.range 13).map (13 - ·)).foldl (fun s r => mixCols [14, 11, 13, 9] (xorBytes ((unshiftRows s).map aesUnsub) (ks.getD r []))) (xorBytes b (ks.getD 14 []))
  xorBytes ((unshiftRows s).map aesUnsub) (ks.getD 0 [])

/-- The bytes of a number, least significant first, and back. -/
def leBytes (n v : Nat) : List Nat := (List.range n).map (fun i => v / 256 ^ i % 256)
def ofLe (l : List Nat) : Nat := l.foldr (fun b a => b + 256 * a) 0

/-- A key of the striped space: K1 and K2 (R323). -/
structure XtsKey where
  k1 : BitVec 256
  k2 : BitVec 256
  deriving DecidableEq, Repr

/-- The whitening of block j of a sector: the tweak under K2, times the j-th power of the primitive element of GF(2^128) (R321). -/
def xtsTweak (k : XtsKey) (sector : Nat) : Nat → List Nat
  | 0 => aesEnc (aesKeys (leBytes 32 k.k2.toNat)) (leBytes 16 sector)
  | j + 1 =>
    let t := ofLe (xtsTweak k sector j)
    leBytes 16 ((2 * t) % 2 ^ 128 ^^^ (if 2 ^ 127 ≤ t then 0x87 else 0))
/-- Encrypt, and decrypt, block j of the sector with an address: the data unit is the sector, the tweak its address as a 128-bit little-endian value (R321). -/
def xtsEnc (k : XtsKey) (sector j : Nat) (b : List Nat) : List Nat :=
  let t := xtsTweak k sector j
  xorBytes (aesEnc (aesKeys (leBytes 32 k.k1.toNat)) (xorBytes b t)) t
def xtsDec (k : XtsKey) (sector j : Nat) (b : List Nat) : List Nat :=
  let t := xtsTweak k sector j
  xorBytes (aesDec (aesKeys (leBytes 32 k.k1.toNat)) (xorBytes b t)) t

/-- What a flip of encrypted bits does to the plain bytes of block j (R321, R349). -/
def xtsDamage (k : XtsKey) (sector j : Nat) (plain flip : List Nat) : List Nat :=
  xorBytes plain (xtsDec k sector j (xorBytes (xtsEnc k sector j plain) flip))

end Sys2Proof.Machine
end

