-- ==== Sys2Proof/Machine/Parts.lean ====
section
/-! DEFINITION. The parts that State is made of, unit by unit: event logs, links, logical devices, partitions. -/

namespace Sys2Proof.Machine

/-- An event record (R605). `reg` and `bit` name the event register bit; PART, LINK and REQ are none where the record carries 0xFF. -/
structure EvRec where
  reg : RegName
  bit : Nat := 0
  status : Nat := 0
  part : Option Nat := none
  link : Option Nat := none
  req : Option Nat := none
  count : Nat := 1
  addr : Nat := 0
  value : Nat := 0
  args : List Nat := []
  handle : Nat := 0
  /-- Module time at which it was raised, in ns. -/
  at_ : Nat := 0
  deriving DecidableEq, Repr

/-- A 1 ms gathering window of one kind and key (R626): when it opened, the first gathered record, how many were gathered, and the MSI-X message tied to the record. -/
structure Gather where
  opened : Nat
  first : Option EvRec := none
  count : Nat := 0
  msix : Option (Nat × Nat) := none
  deriving DecidableEq, Repr

/-- What the module sends out. -/
inductive Output where
  /-- S2M data response (R112, R133). -/
  | cxlData (link ld tag : Nat) (poison : Bool) (data : Line) (load : DevLoad)
  /-- S2M completion without data. -/
  | cxlCmp (link ld tag : Nat) (load : DevLoad)
  /-- The value a register read returns. -/
  | regValue (req : Req) (off : Nat) (value : Nat)
  /-- A register access completed as Unsupported Request (R10). -/
  | unsupported (req : Req) (off : Nat)
  /-- A configuration access completed with Configuration Retry Status (R94). -/
  | cfgRetry (req : Req) (off : Nat)
  /-- A register access that a crossing lost completes with TIMEOUT (R34). -/
  | timedOut (req : Req) (off : Nat)
  /-- Bytes that a read of the shadow window returns, and whether any of its lines is poisoned (R180, R183). -/
  | windowData (link ld off size value : Nat) (poison : Bool)
  /-- An MSI-X message (R134). -/
  | msix (link ld vector : Nat)
  /-- A DMA write of `len` bytes to host memory (R475, R477). -/
  | dmaWrite (link ld addr len value : Nat)
  /-- A DMA read of `len` bytes from host memory (R475). -/
  | dmaRead (link ld tag addr len : Nat)
  /-- A CXL memory-device mailbox reply (R115): return code and payload. -/
  | cxlMbox (link ld code : Nat) (payload : List Nat)
  /-- Event records returned by a mailbox (R115, R603). -/
  | events (link ld : Option Nat) (recs : List EvRec)
  /-- A management mailbox reply (R602): opcode, STATUS, payload. -/
  | mgmt (opcode status : Nat) (payload : List Nat)
  /-- A PLDM or SPDM reply: command number of the table, completion code, payload. -/
  | pldm (command code : Nat) (payload : List Nat)
  /-- Attestation answer (R600). -/
  | spdm (code : Nat) (payload : List Nat)
  /-- Fabric-manager API answer (R112). -/
  | fm (payload : List Nat)
  /-- GPF phase 2 completion (R112). -/
  | gpfDone (link : Nat)
  /-- An epoch on the Reflect link (R528, R531). -/
  | reflect (part hub epoch generation : Nat) (async rebuild : Bool) (recs : List MirRec)
  /-- An epoch acknowledgement (R534). -/
  | epochAck (part hub epoch status : Nat)
  /-- A Reflect keep-alive, HELLO answer or retransmit request, by code. -/
  | reflectCtl (m code : Nat) (args : List Nat)
  /-- Firmware data asked for (R597). -/
  | fwPull (component offset length : Nat)
  deriving DecidableEq, Repr

/-- A CXL.io read that is outstanding: its tag, the descriptor that it serves (none of a queue when that descriptor was reset), and the byte offset of its data (R140, R475). -/
structure IoTag where
  tag : Nat
  q : Option Nat
  n : Nat
  off : Nat
  len : Nat
  deriving DecidableEq, Repr

/-- State of one host link beside its registers. -/
structure LinkSt where
  /-- The mode of the last training: true multi-logical (R111). -/
  mld : Bool := false
  /-- CXL.io reads outstanding (R112, R140). -/
  ioTags : List IoTag := []
  /-- Times of equalisation failures at 128 GT/s (R124). -/
  eqFails : List Nat := []
  /-- Streams have keys (R129). -/
  keyed : Bool := false
  /-- A period of R131 or R132 without active streams has raised its event record. -/
  ideTold : Bool := false
  /-- IDE policy of the PORT record: 0 off, 1 offered, 2 required (R131). -/
  idePolicy : Nat := 0
  /-- The partner accepts IDE, L0p. -/
  ideBoth : Bool := false
  l0p : Bool := false
  /-- PERST_N of the port is asserted (R110). -/
  perst : Bool := false
  /-- State code of LNK_STATUS before L1 or Recovery. -/
  back : Nat := 0
  /-- Width cap set by the firmware power loop, lanes (R126); 16 none. -/
  fwCap : Nat := 16
  /-- Width to which L0p has narrowed the link, lanes (R125); 16 when it has not. -/
  l0pWidth : Nat := 16
  /-- Module time in µs of each entry of the lost-response ring, by entry: TIME of R142 before it wraps (R143). -/
  lostAt : Store Nat := []
  deriving DecidableEq, Repr

/-- State of one logical device, a (link, LD-ID) pair. -/
structure LdSt where
  /-- Memory_Active in the LD's CXL DVSEC (R95). -/
  memActive : Bool := false
  /-- Bus Master Enable (R134). -/
  bme : Bool := false
  /-- Max_Read_Request_Size in bytes (R112). -/
  mrrs : Nat := 512
  /-- The MSI-X table in BAR0, 16 bytes per vector (R112, R172). -/
  msixTable : Memory := []
  /-- MSI-X vectors held in the PBA, ascending (R134). -/
  pba : List Nat := []
  /-- Event Interrupt Policy bytes for the four logs (R115). -/
  policy : List Nat := [0, 0, 0, 0]
  /-- Event logs: (log number, record), oldest first; 0 Informational, 1 Warning, 2 Failure, 3 Fatal (R606). -/
  log : List (Nat × EvRec) := []
  /-- Timestamp base: host time and the module time at which it was set. -/
  tsHost : Nat := 0
  tsAt : Nat := 0
  /-- Alert configuration bytes. -/
  alert : List Nat := []
  /-- Scan Media (R115): spans being scanned and results. -/
  scan : Option (Nat × Nat) := none
  scanHits : List (Nat × Nat) := []
  /-- The current Memory_Active-clear period has raised its record (R96). -/
  inactTold : Bool := false
  deriving DecidableEq, Repr

/-- An isolation table entry (R157). -/
structure IsoEntry where
  attr : Attr
  owner : Nat
  base : Nat
  len : Nat
  target : Nat
  matches48 : Nat := 0
  wrapped : Bool := false
  deriving DecidableEq, Repr

/-- A poison-list entry (R343): apparent address, length in bytes. -/
structure PoisonEnt where
  addr : Nat
  len : Nat
  deriving DecidableEq, Repr

/-- State of one partition beside its registers. -/
structure PartSt where
  /-- PART record in force (R63), LENS ranges (R203), QOS record (R502). -/
  cfg : Option PartRec := none
  lens : List LensRec := []
  qos : Option QosRec := none
  comp : Nat := 0
  /-- Liveness watchdog armed, and the tick of the last write (R167). -/
  armed : Bool := false
  liveTick : Nat := 0
  /-- Poison list (R343). -/
  poison : List PoisonEnt := []
  /-- Feature negotiation has run since the last reset of the table (R608). -/
  negotiated : Bool := false
  /-- Watermarks that DEBT has already reported (R221), bits 0 to 2. -/
  wmTold : Nat := 0
  deriving DecidableEq, Repr

/-- A damaged byte of a stored page: its place in the covered bytes followed by PARITY (R329), the bits that differ,
and whether the damage lies below channel parity, so that reconstruction undoes it (R278, R349). -/
structure ErrByte where
  off : Nat
  xor : Nat
  below : Bool
  deriving DecidableEq, Repr

/-- One page of a frame: its CODECS value and allotment (R233), the fields of its tail entry (R192), and the damage of its stored copies. -/
structure PageSt where
  codec : Nat := 1
  allot : Nat := 0
  param : Nat := 0
  len : Nat := 0
  gen : Nat := 0
  poison : BitVec 64 := 0
  errs : List ErrByte := []
  replErrs : List ErrByte := []
  deriving DecidableEq, Repr

/-- STATE of a frame-map entry (R233). -/
inductive FrameState where
  | zero | homed | penumbra | replicating
  deriving DecidableEq, Repr

/-- A NAND page that holds 256 sectors of a run (R297, R300): its stripe, which data member of it, and the key slot that encrypted it (R323). -/
structure NandPage where
  stripe : Nat
  member : Nat
  slot : Nat
  deriving DecidableEq, Repr

/-- A frame-map entry (R233) with its tail (R190). The default is the entry of a ZERO frame (R234). -/
structure FrameSt where
  state : FrameState := .zero
  home : Nat := 0
  repl : Option Nat := none
  pin : Nat := 0
  reloc : Bool := false
  noMigrate : Bool := false
  stamp : Nat := 0
  base : Nat := 0
  replBase : Nat := 0
  pattern : Word := 0
  heat : List Nat := List.replicate 16 0
  pages : List PageSt := List.replicate 16 {}
  /-- The tier 1 copy of the entry fails its CRC: 1 channel parity still reconstructs it, 2 it does not (R238). -/
  mapBad : Nat := 0
  /-- The page whose uncorrectable read set NO_MIGRATE (R257); 16 none. -/
  failPage : Nat := 16
  /-- Where the FTL keeps a tier 2 run, by parts of 256 sectors (R300, R306). -/
  nand : List NandPage := []
  deriving DecidableEq, Repr

/-- State of a merge slot that is not FREE (R206). -/
inductive SlotState where
  | filling | sealed | encoding
  deriving DecidableEq, Repr

/-- An open merge slot (R204 to R217, R335, R337). -/
structure SlotSt where
  hub : Nat
  part : Nat
  /-- Apparent page number, bits [46:12] of the address. -/
  page : Nat
  state : SlotState := .filling
  data : Page := 0
  /-- Bytes written since the slot opened or since the last snapshot. -/
  written : PageMask := 0
  /-- The content is complete: filled, or written whole. -/
  filled : Bool := false
  /-- Lines written since the last commit (R337). -/
  fresh : BitVec 64 := 0
  poison : BitVec 64 := 0
  ageAt : Nat := 0
  sealAt : Nat := 0
  /-- Sectors reserved (R217). -/
  resv : Nat := 0
  snap : Option (Page × BitVec 64) := none
  /-- Time of the first write accepted after the snapshot. -/
  laterAt : Option Nat := none
  /-- Requester identity and level of the write that opened the slot (R291, R501). -/
  req : Nat := 0
  level : Nat := 3
  /-- A correction slot (R335): the page is rewritten with its codec, ALLOT and GEN. -/
  corr : Bool := false
  /-- Damaged bytes' sectors that the correction rewrites, for the read-back of R338: sector index, and whether it was reconstructed. -/
  fixed : List (Nat × Bool) := []
  /-- Lines whose CRC no longer holds (R337). -/
  bad : BitVec 64 := 0
  /-- Lens unit that took the slot. -/
  unit : Nat := 0
  /-- The commit waits for the relocation area (R220). -/
  waitReloc : Bool := false
  deriving DecidableEq, Repr

/-- A host write held for a slot (R212, R265). -/
structure HeldWrite where
  link : Nat
  ld : Nat
  tag : Nat
  hpa : Nat
  reqPart : Nat
  owner : Nat
  addr : Nat
  data : Line
  be : BitVec 64
  poison : Bool
  level : Nat
  at_ : Nat
  /-- Its response has already been logged as lost (R137). -/
  lost : Bool := false
  /-- Its place in the hub's arrival order (R212). -/
  seq : Nat := 0
  deriving DecidableEq, Repr

/-- Who else than a host has a store held for a slot (R212): a core, a kernel (its result record, or a library program), a descriptor. -/
inductive Holder where
  | core (c : Nat)
  | kernel (id : Nat)
  | desc (q n : Nat)
  deriving DecidableEq, Repr

/-- A store of the compute plane or of a descriptor held for a slot (R212): it goes on when its holder runs again and its turn has come. -/
structure HeldStore where
  who : Holder
  part : Nat
  page : Nat
  seq : Nat
  deriving DecidableEq, Repr

/-- A host read held for flash data (R259) or for a slot's fill (R207). -/
structure HeldRead where
  link : Nat
  ld : Nat
  tag : Nat
  hpa : Nat
  reqPart : Nat
  owner : Nat
  addr : Nat
  level : Nat
  /-- Time of port ingress. -/
  at_ : Nat
  /-- The wait is for a slot's fill. -/
  fill : Bool
  deriving DecidableEq, Repr

/-- What a move does (R247 to R252, R220, R340). -/
inductive MoveKind where
  | promote | demote | replicate | replDown | goHome | retire
  deriving DecidableEq, Repr

/-- A queued or running move (R251, R254, R628). `cls` is the class of R251: 0 demand promotion, 1 room for a promotion, 2 hint, 3 quota excess, 4 heat. -/
structure Move where
  part : Nat
  frame : Nat
  cls : Nat
  kind : MoveKind
  target : Nat
  running : Bool := false
  /-- Place of the destination run: tier, base, allotments. -/
  destTier : Nat := 0
  destBase : Nat := 0
  destAllot : List Nat := []
  /-- The hint descriptor that asked for it, (queue, count) (R252). -/
  hint : Option (Nat × Nat) := none
  /-- A heat demotion, which a rise of heat drops or aborts (R247, R257). -/
  heatDown : Bool := false
  /-- Budget cleaning asked for it (R265). -/
  cleaning : Bool := false
  /-- The frame whose promotion needs the room (R248). -/
  serves : Option Nat := none
  /-- A half of its target tier that the move leaves, and so may not land in (R283, R284). -/
  shut : Option Nat := none
  startAt : Nat := 0
  deriving DecidableEq, Repr

/-- Row-hammer counts of one row group (R292). -/
structure RhGroup where
  cnt : Nat := 0
  lead : Nat := 0
  lcnt : Nat := 0
  deriving DecidableEq, Repr

/-- A flush that runs (R213): what asked for it, and the (partition, page) pairs whose commit it awaits. -/
structure Flush where
  who : FlushWho
  pages : List (Nat × Nat)
  deriving DecidableEq, Repr

/-- The Lens units and the merge buffer. -/
structure LensSt where
  /-- Open slots of both hubs, in opening order. -/
  slots : List SlotSt := []
  heldW : List HeldWrite := []
  /-- Held stores of others than hosts, and the next place in the arrival order of all held writes (R212). -/
  heldS : List HeldStore := []
  seq : Nat := 0
  /-- Deferred write-back list: hub, partition, page (R336). -/
  wb : List (Nat × Nat × Nat) := []
  flushes : List Flush := []
  encPtr : List Nat := [0, 0]
  decPtr : List Nat := [0, 0]
  presPtr : List Nat := [0, 0]
  deriving DecidableEq, Repr

/-- A line of the frame-map cache (R236): the frame's key, the not-recently-used bit's opposite, and the entry as tier 1 holds it. -/
structure MapLine where
  key : Nat
  used : Bool
  stored : FrameSt
  deriving DecidableEq, Repr

/-- The tier managers. -/
structure TierSt where
  /-- Frame map: key partition × 2^31 + frame number; an unlisted frame is ZERO. -/
  frames : Store FrameSt := []
  /-- Queued and running moves, oldest request first. -/
  moves : List Move := []
  heldR : List HeldRead := []
  victimPtr : Nat := 0
  /-- Sectors of abandoned runs: tier, base, length (R238). -/
  abandoned : List (Nat × Nat × Nat) := []
  /-- Last frame key each hub's sweeper visited, and when its sweep started (R242). -/
  sweepKey : List Nat := [0, 0]
  sweepAt : List Nat := [0, 0]
  /-- Frames whose flash data stands in the staging buffer (R259): key. -/
  staged : List Nat := []
  /-- Hint descriptors, (queue, count), one of whose moves was declined, refused or dropped (R252). -/
  declined : List (Nat × Nat) := []
  mapHits : Nat := 0
  mapMisses : Nat := 0
  /-- Lines of the frame-map cache by set: key hub × 2^23 + set (R236). -/
  mapCache : Store (List MapLine) := []
  /-- Budget cleaning runs: from 90% of the budget until below 85% (R265). -/
  cleaning : Bool := false
  /-- When the aging epoch began (R241). -/
  epochAt : Nat := 0
  deriving DecidableEq, Repr

/-- A byte lane after its sweep (R285, R287): delay and eye width in taps of the read and the write side, and how far each delay has moved from its swept centre. -/
structure LaneSt where
  readDelay : Nat
  readEye : Nat
  writeDelay : Nat
  writeEye : Nat
  readDrift : Int := 0
  writeDrift : Int := 0
  deriving DecidableEq, Repr

/-- The saved results of a controller's sweep (R286): lanes, the temperature of its devices, and the CRC over them. -/
structure TrainSave where
  lanes : List LaneSt
  temp : Nat
  crc : Nat
  deriving DecidableEq, Repr

/-- Where a tier 0 or tier 1 sector lies: ECC channel index (R350), and the byte address in the channel or pseudo-channel. -/
structure Place where
  chan : Nat
  pch : Nat
  addr : Nat
  deriving DecidableEq, Repr

/-- A request in a memory controller's queue (R288, R498): a refresh of a bank, or an access to a row with its level and requester. The list's order is age. -/
structure CtrlReq where
  refresh : Bool := false
  level : Nat := 0
  req : Nat := 0
  bank : Nat
  row : Nat := 0
  place : Place := ⟨0, 0, 0⟩
  deriving DecidableEq, Repr

/-- The memory controllers. -/
structure DramSt where
  /-- Queue of each controller, 0 to 33 and 64 + stack (R496, R498); the open row of each bank, and the row hits that have passed an older request in a row. -/
  queue : Store (List CtrlReq) := []
  openRow : Store (Option Nat) := []
  rowHits : Store Nat := []
  /-- When each bank was last refreshed (R288). -/
  refAt : Store Nat := []
  rh : Store RhGroup := []
  /-- When the row-hammer window began (R291), and when a throttled requester last activated a row: key 64 × controller + requester (R293). -/
  rhAt : Nat := 0
  actAt : Store (Option Nat) := []
  /-- Watchdog expiries: controller number and time (R281, R284). -/
  expiries : List (Nat × Nat) := []
  /-- Requesters throttled until the end of the window after this one: controller, requester, windows left (R293). -/
  throttle : List (Nat × Nat × Nat) := []
  /-- Channel sectors that no longer hold what is written (the medium's damage, R338): ECC channel index, sector. -/
  stuck : List (Nat × Nat) := []
  /-- The remap store (R339): key 16 × ECC channel index + entry, the frame whose sector data the line holds; a line not listed reads as zero. -/
  remapStore : Store (Option Nat) := []
  /-- Withheld sectors (R340): ECC channel index, sector. -/
  withheld : List (Nat × Nat) := []
  /-- Lanes in use by controller number, 0 to 33 and 64 + stack (R285, R287), and the saved results in the always-on SRAM (R286). -/
  lanes : Store (List LaneSt) := []
  saved : Store (Option TrainSave) := []
  /-- When a controller last probed its lanes, and when it last rewrote its saved results (R287). -/
  probeAt : Store Nat := []
  savedAt : Store Nat := []
  /-- When the rebuild of each hub's group began (R281). -/
  rebuildAt : List Nat := [0, 0]
  /-- Channels whose lost sectors cannot be rebuilt: group, lower bound stripe, upper bound stripe (R280). -/
  lostStripes : List (Nat × Nat × Nat) := []
  deriving DecidableEq, Repr

/-- A stripe of the array (R300): the LUNs of its data members, then of its parity; the bays whose member is lost. -/
structure Stripe where
  members : List Nat
  gone : List Nat := []
  deriving DecidableEq, Repr

/-- A program or an erase in progress on a LUN (R299): when it ends, or what is left of it while it is suspended. -/
structure NandBusy where
  lun : Nat
  erase : Bool
  ends : Nat
  left : Option Nat := none
  deriving DecidableEq, Repr

/-- A flash read of a page that has not arrived: its LUN, and how often it has timed out (R299, R307). -/
structure NandRead where
  lun : Nat
  part : Nat
  page : Nat
  tries : Nat
  deriving DecidableEq, Repr

/-- One carrier bay beside its registers (R308 to R319). -/
structure BaySt where
  /-- Time of the last recognised press (R315). -/
  pressedAt : Option Nat := none
  /-- An open abort window: true removal, false power-on; and when it opened (R316, R318). -/
  window : Option (Bool × Nat) := none
  /-- The evacuation is of a WORN carrier (R314). -/
  worn : Bool := false
  /-- Timeouts counted in the last second (R307). -/
  expiries : List Nat := []
  /-- Stripes of the system area with a member on the carrier. -/
  live : Nat := 0
  /-- The carrier may rejoin with its contents at a reset (R320). -/
  rejoin : Bool := false
  deriving DecidableEq, Repr

/-- A partition's journal in flash (R97, R98, R263): complete, its map, and the frames whose flush had not finished. -/
structure Journal where
  complete : Bool
  frames : Store FrameSt
  unfinished : List Nat
  /-- The key slot of the partition that encrypted it (R322). -/
  slot : Nat := 0
  deriving DecidableEq, Repr

/-- A kernel, descriptor or queue that waits on a flash-homed page (R262, R307), since a time. -/
structure FlashWait where
  who : FlashWaiter
  part : Nat
  page : Nat
  since : Nat
  deriving DecidableEq, Repr

/-- The flash array. -/
structure FlashSt where
  bays : List BaySt := List.replicate 4 {}
  /-- Stripes by number, and the number the next takes at least (R300). -/
  stripes : Store (Option Stripe) := []
  nextStripe : Nat := 0
  /-- Programs and erases in progress, and reads that wait for flash (R299). -/
  busy : List NandBusy := []
  reads : List NandRead := []
  /-- Keys by 2 × partition + slot (R323), and the module metadata key of the FTL's own tables (R322). -/
  keys : Store (Option XtsKey) := []
  metaKey : Option XtsKey := none
  /-- Stripes of the system area that lack two members (R310). -/
  lost : Nat := 0
  /-- Stripes of the system area that lack one (R309). -/
  exposed : Nat := 0
  /-- The array has lost a position that a new carrier may take (R311). -/
  lostPos : Option Nat := none
  /-- Re-striping runs, or has stopped for want of space and resumes when space frees (R309). -/
  restriping : Bool := false
  short : Bool := false
  journals : Store (Option Journal) := []
  waits : List FlashWait := []
  /-- Partitions that hold a key (R323). -/
  keyed : List Nat := []
  deriving DecidableEq, Repr

/-- Halves of register accesses that wait: latched HI values (R12), held LO writes (R13), held FE writes (R17). Keys: the requester's code × 2^40 + the register's key. -/
structure AccSt where
  latch : Store (BitVec 32) := []
  lo : Store (Option (BitVec 32)) := []
  fe : List (RegId × Nat) := []
  deriving DecidableEq, Repr

/-- The management event log and the gathering windows (R603, R605, R626). -/
structure EvSt where
  log : List EvRec := []
  next : Nat := 1
  /-- The highest handle that Get Events has returned (R613). -/
  seen : Nat := 0
  gather : Store (Option Gather) := []
  deriving DecidableEq, Repr

/-- Bytes of an image copy. -/
abbrev ImgBytes := List Byte

/-- The image copies and loads (R48, R51, R58, R71, R102). -/
structure ImgSt where
  /-- Staging window: bytes written; a byte nothing has written is undefined (R83). -/
  staging : Store (Option Byte) := []
  inForce : Option Image := none
  /-- The image in force is the minimal image (R82, R84). -/
  minimal : Bool := false
  /-- SPI boot flash copies and boot areas. -/
  slotA : Option ImgBytes := none
  slotB : Option ImgBytes := none
  pendingCopy : Option ImgBytes := none
  lastGood : Option ImgBytes := none
  boot : List (Option ImgBytes) := [none, none, none, none]
  /-- P-384 keys by slot; none where the slot is not written. Slot 0 holds Cylayn's key, a fused value of Config. -/
  keys : List (Option (BitVec 768)) := [none, none, none, none]
  /-- A load runs. -/
  loading : Bool := false
  /-- The running reload fails with BUSY at its apply step (R165, R171). -/
  spoiled : Bool := false
  /-- WARM (with what its start will meet) or SHUTDOWN (none) held until BUSY clears (R102). -/
  heldReset : Option (Option StartEnv) := none
  /-- Partitions that have taken a partition reload (R59). -/
  reloads : List Nat := []
  deriving DecidableEq, Repr

/-- A token bucket (R506): tokens in bytes at a time. -/
structure Bucket where
  tokens : Nat
  time : Nat
  deriving DecidableEq, Repr

/-- Regulation state beside its registers (R506, R507, R511, R513). -/
structure QosSt where
  /-- Key 2p + side (0 host, 1 compute); none is a full bucket. -/
  buckets : Store (Option Bucket) := []
  /-- Costs delivered in the last 10 µs: key 8p + 4·side + class; (time, bytes). -/
  recent : Store (List (Nat × Nat)) := []
  /-- Time each urgency pin was asserted (R511). -/
  pinAt : List (Option Nat) := [none, none, none, none]
  /-- Background bytes per hub in the last 10 µs: (time, bytes) (R512, R513). -/
  bg : Store (List (Nat × Nat)) := []
  /-- When the next background request may be issued: key hub, or 8 × kind + hub for the cap of a kind, 1 scrub, 2 flash translation, 3 rebuild (R281, R306, R345, R512). -/
  bgFree : Store Nat := []
  /-- When each partition's last measurement window ended (R514), and when the background rate was last sampled (R512). -/
  windowAt : Store Nat := []
  bgAt : Nat := 0
  /-- A guarantee of the partition was missed at this time (R133). -/
  missAt : Store (Option Nat) := []
  /-- Round-robin pointer of each hub's directory queue over requester identities (R496). -/
  rrPtr : List Nat := [0, 0]
  /-- The level that the request in service carries to every later arbiter (R500). -/
  level : Nat := 3
  deriving DecidableEq, Repr

/-- What waits for an epoch's acknowledgement (R534). -/
inductive Await where
  | hostWrite (link ld tag reqPart : Nat)
  /-- A store of a core: its transfer group (8 for ST) + 16 × its number, pool partition, byte address and length. -/
  | store (core tag part a n : Nat)
  | desc (q n : Nat)
  | sync (src : SyncSrc) (status value : Nat)
  deriving DecidableEq, Repr

/-- Mirror state of one partition beside its registers (R528 to R541). Lists of two are per hub sub-stream. -/
structure MirPart where
  openRecs : List (List MirRec) := [[], []]
  openAt : List Nat := [0, 0]
  sent : List Nat := [0, 0]
  acked : List Nat := [0, 0]
  applied : List Nat := [0, 0]
  /-- Time the newest epoch of each sub-stream closed (primary), or the newest applied one had closed (secondary). -/
  closedAt : List Nat := [0, 0]
  recv : List Epoch := []
  /-- Epochs sent and not acknowledged, for R532's second request: hub, number, REBUILD, records. -/
  unacked : List (Nat × Nat × Bool × List MirRec) := []
  /-- Epochs asked for again once (R532). -/
  retried : List (Nat × Nat) := []
  /-- Hub, epoch, what waits. -/
  awaiting : List (Nat × Nat × Await) := []
  /-- Rebuild pointer: frames below it are shipped (R540). -/
  rebuildPtr : Option Nat := none
  /-- Mirroring was stopped by DETACH, and only ATTACH brings it back (R539). -/
  detached : Bool := false
  /-- SNAPSHOT waits for these epochs of the two sub-streams. -/
  snapEpoch : Option (Nat × Nat) := none
  /-- The exchange of roles waits for these epochs (R538 step 3). -/
  switchEpoch : Option (Nat × Nat) := none
  /-- A planned switchover waits for descriptors and kernels to end (R538), since this time. -/
  switching : Option Nat := none
  /-- Queue states shipped by TABLE records (secondary). -/
  queues : List QueueShip := []
  /-- Host requests held by a planned switchover (R538), oldest first. -/
  heldReq : List Instr := []
  deriving DecidableEq, Repr

/-- A pair generation record in the health record (R522). -/
structure PairRec where
  role : Nat
  generation : Nat
  partner : BitVec 64
  deriving DecidableEq, Repr

/-- Mirror state of the module. -/
structure MirrorSt where
  parts : Store MirPart := []
  /-- Pair generation records by partition; kept across every reset (R522). -/
  pairs : Store (Option PairRec) := []
  /-- The straps no longer agree with the MIRROR record: both ports stay down (R49). -/
  barred : Bool := false
  /-- Time of the last valid flit per mirror link; replays of the flit under way. -/
  lastFlit : List Nat := [0, 0]
  /-- When the last keepalive went out on each mirror link (R527). -/
  keptAt : List Nat := [0, 0]
  replays : List Nat := [0, 0]
  /-- Time partner loss was declared (R535). -/
  lostAt : Option Nat := none
  deriving DecidableEq, Repr

/-- A pinned buffer of the shadow window (R181, R182): a swap frame's 1 MiB, its poisoned lines by page 0 to 255, and the pages that differ from their stored content. -/
structure ShwBuf where
  index : Nat
  data : Memory := []
  poison : Store (BitVec 64) := []
  dirty : List Nat := []
  deriving DecidableEq, Repr

/-- The shadow window beside its registers (R178 to R185). -/
structure ShwSt where
  /-- The frame the window shows. -/
  cur : Option ShwBuf := none
  /-- The frame still being written back. -/
  old : Option ShwBuf := none
  /-- SHW_INDEX_LO was written since the last write to SHW_INDEX_HI. -/
  loFresh : Bool := false
  /-- Index of the swap that runs. -/
  next : Option Nat := none
  deriving DecidableEq, Repr

/-- Crossing watchdogs (R34, R35): expiries per island pair, and acknowledges that came after expiry. -/
structure CrossSt where
  timeouts : Store Nat := []
  unexpected : Nat := 0
  /-- Handshake phase of each pair: toggled by an acknowledge, back at 0 after an expiry (R32, R34). -/
  phase : Store Nat := []
  /-- Time of the last acknowledge of each pair (R33, R35). -/
  acked : Store (Option Nat) := []
  /-- Time of the last expiry (R514). -/
  lastAt : Option Nat := none
  /-- Pairs whose expired request phase has not been acknowledged since (R35). -/
  late : List Nat := []
  deriving DecidableEq, Repr

/-- What a module reset hands to the next start, and the pin that starts it (R88, R101, R102, R104, R583). -/
structure StartSt where
  /-- CAUSE, CLEAN and FLUSHED of the next start. -/
  cause : Nat := 0
  clean : Bool := false
  flushed : Bool := false
  /-- MOD_RST_N has been asserted and its deassertion has not been taken. -/
  held : Bool := false
  /-- A cold reset follows the flush or shutdown that runs; what its start will meet, once MOD_RST_N is deasserted. -/
  coldAfter : Bool := false
  coldEnv : Option StartEnv := none
  /-- Safe mode or manufacturing mode is in force: a warm reset that leaves it puts the last-good image back (R49). -/
  special : Bool := false
  /-- Manufacturing test access is enabled (R46). -/
  testAccess : Bool := false
  deriving DecidableEq, Repr

/-- The hold-up store's monitor beside its registers (R568 to R584). -/
structure HupSt where
  /-- Consecutive samples that show the pattern of R574, by sense wire. -/
  wireRun : List Nat := List.replicate 13 0
  /-- Consecutive samples that show a departure of R576, by cell. -/
  cellRun : List Nat := List.replicate 12 0
  /-- Consecutive samples whose charge count disagrees (R573). -/
  staleRun : Nat := 0
  failed : Bool := false
  /-- The string was at its target at the last sample. -/
  full : Bool := false
  /-- When the last capacitance test began, and when the last one began that was not discarded (R571). -/
  testAt : Option Nat := none
  testedAt : Option Nat := none
  /-- L has exceeded the effective budget by 1 GiB since this time (R578). -/
  riseAt : Option Nat := none
  /-- L has been computed since the module reset (R578). -/
  computed : Bool := false
  /-- When L was last computed, and the time of the last sample (R569, R577). -/
  limitAt : Option Nat := none
  sampleAt : Option Nat := none
  /-- The input has been below 40 V since this time; it stays set while the input is lost (R580). -/
  lowAt : Option Nat := none
  /-- When the hand-over that runs began (R581). -/
  flushAt : Option Nat := none
  /-- The hand-over comes from the thermal trip, and ends in power-off (R595). -/
  trip : Bool := false
  deriving DecidableEq, Repr

/-- The firmware processors, banks and update agent beside their registers (R587 to R602). -/
structure FwSt where
  /-- What updates have written to banks A and B; none as manufactured (R595). -/
  banks : List (Option Component) := [none, none]
  /-- The bank that runs, and the bank that the next module reset will try first (R596, R598). -/
  active : Nat := 0
  pend : Option Nat := none
  /-- The running bank came in by activation and has not yet raised FWM_SEC_VERSION (R598). -/
  fresh : Bool := false
  /-- The library that an update has put in place of the manufactured one (R595). -/
  lib : Option Component := none
  /-- PLDM update state: 0 idle, 1 learn components, 2 ready to transfer, 3 download, 4 verify, 5 apply (R597, DSP0267). -/
  pldm : Nat := 0
  table : List Component := []
  cur : Option Component := none
  /-- Bytes of the component asked for so far. -/
  pulled : Nat := 0
  /-- Components applied and not yet activated. -/
  done : List Component := []
  /-- Module time in ms of each processor's last heartbeat (R588). -/
  beats : List Nat := List.replicate 12 0
  /-- Times of each processor's restarts (R592). -/
  restarts : List (List Nat) := List.replicate 12 []
  /-- Work that waits for a processor, oldest first (R591). -/
  waiting : List Instr := []
  /-- Hardware holds every core island at 0.80 GHz (R591). -/
  clamp : Bool := false
  /-- End of the last period of the power loops (R31, R593). -/
  loopAt : Option Nat := none
  /-- Power-loop periods in a row below 95% of the cap (R593), by hub. -/
  below : List Nat := [0, 0]
  /-- Frequency that power alone allows each core island, in 10 MHz units; none is its CLOCK setting (R593). -/
  powerFreq : Store (Option Nat) := []
  /-- Thermal limits that act: core islands and their lowered frequency, stacks and carriers and their issue rate in percent (R594). -/
  hotCores : Store (Option Nat) := []
  hotStacks : Store (Option Nat) := []
  hotBays : Store (Option Nat) := []
  /-- The mailbox data area (R602, R610). -/
  mbox : Memory := []
  deriving DecidableEq, Repr

/-- Supply of a core island: body bias and SRAM assist in force, and its own voltage, in mV (R30, R547). -/
structure IslandSt where
  bias : Int := 0
  assist : Nat := 0
  volt : Nat := 0
  deriving DecidableEq, Repr

/-- Power-state control beside its registers (R549 to R562). -/
structure PwrSt where
  /-- Supply of the powered core islands (R30, R547). -/
  cores : Store IslandSt := []
  /-- Body bias in mV of the hub logic islands and of the always-on domain (R547). -/
  hubBias : Int := 0
  alwaysBias : Int := 0
  /-- Word-line underdrive of the retained hub table SRAMs, and retention voltage of the always-on SRAM, in mV; 0 for none (R547). -/
  underdrive : Nat := 0
  retention : Nat := 0
  /-- When the running drain began. -/
  drainAt : Nat := 0
  /-- Writes held for blocks whose hub logic is unpowered in Night (R560), oldest first: value, and the bits it acts on. -/
  heldWr : List (RegId × Nat × Nat) := []
  /-- The module's I3C dynamic address (R560). -/
  i3c : Option (BitVec 7) := none
  deriving DecidableEq, Repr

end Sys2Proof.Machine
end

