-- ==== Sys2Proof/Machine/PageCode.lean ====
section
/-! DEFINITION. The page code (R328 to R330): Reed–Solomon over GF(2^10) in four interleaved codewords, decoded on the damage of a stored page.
The code is linear, so what the decoder does depends on the damage alone. -/

namespace Sys2Proof.Machine

/-- Multiplication by x in GF(2^10), field polynomial x^10 + x^3 + 1 (R328). -/
def gfX (a : Nat) : Nat := if a < 512 then 2 * a else (2 * a) ^^^ 0x409

/-- Product in GF(2^10); `n` bits of b are left. -/
def gfMulN : Nat → Nat → Nat → Nat
  | 0, _, _ => 0
  | n + 1, a, b => (if b % 2 = 1 then a else 0) ^^^ gfMulN n (gfX a) (b / 2)

/-- Product in GF(2^10). -/
def gfMul (a b : Nat) : Nat := gfMulN 10 a b

/-- Power in GF(2^10) by squaring; `n` bits of the exponent are left. -/
def gfPowN : Nat → Nat → Nat → Nat
  | 0, _, _ => 1
  | n + 1, a, e => gfMul (if e % 2 = 1 then a else 1) (gfPowN n (gfMul a a) (e / 2))

/-- The power alpha^e, where alpha is x and has order 1023. -/
def alphaPow (e : Nat) : Nat := gfPowN 10 2 (e % 1023)

/-- Inverse of a non-zero element. -/
def gfInv (a : Nat) : Nat := gfPowN 10 a 1022

/-- A polynomial's value, lowest coefficient first. -/
def polyEval : List Nat → Nat → Nat
  | [], _ => 0
  | c :: t, x => c ^^^ gfMul x (polyEval t x)

/-- Sum of two polynomials. -/
def polyAdd : List Nat → List Nat → List Nat
  | [], b => b
  | a, [] => a
  | x :: a, y :: b => (x ^^^ y) :: polyAdd a b

/-- A polynomial times a constant. -/
def polyScale (c : Nat) (a : List Nat) : List Nat := a.map (gfMul c)

/-- Product of polynomials. -/
def polyMul : List Nat → List Nat → List Nat
  | [], _ => []
  | x :: a, b => polyAdd (polyScale x b) (0 :: polyMul a b)

/-- Formal derivative in characteristic 2: the odd coefficients. -/
def polyDeriv : List Nat → List Nat
  | [] => []
  | [_] => []
  | _ :: x :: t => x :: 0 :: polyDeriv t

/-- Generator polynomial with p roots alpha^0 .. alpha^(p-1) (R329). -/
def genPoly : Nat → List Nat
  | 0 => [1]
  | p + 1 => polyMul [alphaPow p, 1] (genPoly p)

/-- A damaged symbol of one codeword: the degree of its place in the codeword polynomial, and the value added to it. -/
abbrev SymErr := Nat × Nat

/-- The first p syndromes of a damage pattern (R330). -/
def syndromes (p : Nat) (e : List SymErr) : List Nat :=
  (List.range p).map (fun m => e.foldl (fun acc x => acc ^^^ gfMul x.2 (alphaPow (m * x.1))) 0)

/-- Berlekamp–Massey over the syndromes: the error locator, lowest coefficient first, and its length. -/
def bmStep (syn : List Nat) : Nat → Nat → List Nat → List Nat → Nat → Nat → Nat → List Nat × Nat
  | 0, _, sg, _, l, _, _ => (sg, l)
  | k + 1, n, sg, bp, l, m, b =>
    let d := (List.range (l + 1)).foldl (fun acc i => acc ^^^ gfMul (sg.getD i 0) (if i ≤ n then syn.getD (n - i) 0 else 0)) 0
    if d = 0 then bmStep syn k (n + 1) sg bp l (m + 1) b
    else
      let t := polyAdd sg (List.replicate m 0 ++ polyScale (gfMul d (gfInv b)) bp)
      if 2 * l ≤ n then bmStep syn k (n + 1) t sg (n + 1 - l) 1 d
      else bmStep syn k (n + 1) t bp l (m + 1) b

/-- The corrections of a decoder that corrects up to t = p/2 symbols in a codeword of length n (R330); none is uncorrectable. -/
def rsDecode (p n : Nat) (e : List SymErr) : Option (List SymErr) :=
  if e.length ≤ p / 2 then some e else
  let syn := syndromes p e
  if syn.all (· == 0) then some [] else
  let (sg, l) := bmStep syn p 0 [1] [1] 0 1 1
  if p / 2 < l then none else
  let roots := (List.range n).filter (fun d => polyEval sg (alphaPow (1023 - d % 1023)) == 0)
  if roots.length ≠ l then none else
  let omega := (polyMul syn sg).take p
  let fix := roots.map (fun d =>
    let xi := alphaPow (1023 - d % 1023)
    (d, gfMul (alphaPow d) (gfMul (polyEval omega xi) (gfInv (polyEval (polyDeriv sg) xi)))))
  if syndromes p fix = syn then some fix else none

/-- Symbol errors of codeword w among the message symbols: `m` is the damage of the covered bytes from symbol j on. -/
def msgErrs (w kw p : Nat) : Nat → Nat → Nat → List SymErr
  | 0, _, _ => []
  | n + 1, j, m =>
    if m = 0 then [] else
    let r := msgErrs w kw p n (j + 1) (m / 1024)
    if j % 4 = w ∧ m % 1024 ≠ 0 then (kw - 1 - j / 4 + p, m % 1024) :: r else r

/-- Symbol errors of codeword w among the parity symbols. -/
def parErrs (w p m : Nat) : List SymErr :=
  (List.range p).filterMap (fun i =>
    let v := (m / 2 ^ (10 * (w * p + i))) % 1024
    if v = 0 then none else some (p - 1 - i, v))

/-- The number of message symbols of a page of `len` payload bytes (R329). -/
def symCount (len : Nat) : Nat := (8 * (len + 16) + 9) / 10

/-- What the page code makes of a stored copy: uncorrectable, or the number of corrected symbols and the damage left in the covered bytes. -/
structure CodeResult where
  ok : Bool
  symbols : Nat
  left : Nat
  deriving DecidableEq, Repr

/-- Decode one codeword: the corrected symbols and the damage that its message symbols keep, as a pattern over the covered string. -/
def decodeWord (P len w cov par : Nat) : Option (Nat × Nat) :=
  let p := P / 4
  let n := symCount len
  let kw := (n + 3 - w) / 4
  let e := msgErrs w kw p n 0 cov ++ parErrs w p par
  match rsDecode p (kw + p) e with
  | none => none
  | some fix =>
    let pat := fix.foldl (fun acc x => if p ≤ x.1 then acc ^^^ (x.2 * 2 ^ (10 * (4 * (kw - 1 - (x.1 - p)) + w))) else acc) 0
    if 2 ^ (8 * (len + 16)) ≤ pat then none else some (fix.length, pat)

/-- Decode a page of `len` payload bytes at strength P with the given damage of covered bytes and PARITY (R330). -/
def decodePage (P len cov par : Nat) : CodeResult :=
  if cov = 0 ∧ par = 0 then ⟨true, 0, 0⟩ else
  match decodeWord P len 0 cov par, decodeWord P len 1 cov par, decodeWord P len 2 cov par, decodeWord P len 3 cov par with
  | some a, some b, some c, some d => ⟨true, a.1 + b.1 + c.1 + d.1, ((cov ^^^ a.2) ^^^ b.2) ^^^ (c.2 ^^^ d.2)⟩
  | _, _, _, _ => ⟨false, 0, cov⟩

/-- Damage bytes as patterns over the covered bytes and over PARITY. -/
def errMasks (len : Nat) (e : List ErrByte) : Nat × Nat :=
  e.foldl (fun a x => if x.off < len + 16 then (a.1 ^^^ ((x.xor % 256) * 2 ^ (8 * x.off)), a.2)
    else (a.1, a.2 ^^^ ((x.xor % 256) * 2 ^ (8 * (x.off - (len + 16)))))) (0, 0)

/-- Sectors of a payload of `len` bytes (R191). -/
def usedSectors (len : Nat) : Nat := (len + 63) / 64

/-- Allotted sectors of a page that uses s (R191). -/
def allotFor (s : Nat) : Nat := min 64 (s + (s + 7) / 8)

/-- Tail-entry size and tail size in sectors by strength (R193). -/
def entrySize (P : Nat) : Nat := if P = 8 then 32 else if P = 16 then 40 else if P = 32 then 56 else 96
def tailSectors (P : Nat) : Nat := if P = 8 then 8 else if P = 16 then 10 else if P = 32 then 14 else 24

end Sys2Proof.Machine
end

