-- ==== Sys2Proof/Config.lean ====
section
/-! DEFINITION. Free values: what the spec leaves open. Each is opaque, so a claim holds whatever it is. -/

namespace Sys2Proof

/-- A fresh free number per use, applied to State's counter of free values (log 4). -/
opaque Config.freeNat : Nat → Nat
/-- A staging-window byte that nothing has written (R83: undefined), by offset (log 8). -/
opaque Config.stagingByte : Nat → Byte
/-- PAYLOAD_LEN of a page under codec 2, 3, 4 or 5 with a PARAM and the reference page of codec 5 (R202: the bitstreams are internal; log 10). -/
opaque Config.payloadLen (codec param : Nat) (page ref : Page) : Nat
/-- A miscorrected payload of codec 2 to 5 still decodes (R330 gives no assurance either way; log 11). -/
opaque Config.misDecodes (codec : Nat) (page : Page) (damage : List (Nat × Nat)) : Bool
/-- The page that a miscorrected payload of codec 2 to 5 decodes to (log 11). -/
opaque Config.misPage (codec : Nat) (page : Page) (damage : List (Nat × Nat)) : Page
/-- Cylayn's public key of slot 0, written at manufacture (R58; log 12). -/
opaque Config.cylaynKey : BitVec 768
/-- STR_ACTIVE_DIGEST of the minimal image, whose bytes the spec does not give (R82, R83; log 12). -/
opaque Config.minimalDigest : BitVec 384
/-- Body layouts that the spec does not give, read from the body bytes (R60; log 14). -/
opaque Config.portBody : List Byte → PortRec
opaque Config.compBody : List Byte → Nat
opaque Config.routeBody : List Byte → Nat × Nat
opaque Config.clockBody : List Byte → Nat × Nat × List BiasRec
opaque Config.shadowBody : List Byte → Bool
/-- The image copy in the boot area of a carrier that is put into a bay; none where it holds none (R51; log 78). -/
opaque Config.bootArea : Nat → Option (List Byte)
/-- What the pins, memories, firmware banks and reference clocks show a start that a command without its own description runs (log 42). -/
opaque Config.startEnv : Nat → StartEnv
/-- The module's own identity and firmware version and digest (R47, R599, R603; log 15). -/
opaque Config.moduleId : BitVec 64
opaque Config.fwVersion (bank : Nat) : Word
opaque Config.fwSecurity (bank : Nat) : Nat
opaque Config.fwDigest (bank : Nat) : BitVec 384
opaque Config.libVersion : Nat
opaque Config.libKernels : BitVec 32
opaque Config.libDigest : BitVec 384
/-- Digest of the immutable boot code (R600; log 15). -/
opaque Config.bootDigest : BitVec 384
/-- What FP0 answers to an SPDM request other than for measurements: by request code, payload and a free number (R600, DSP0274; log 55). -/
opaque Config.spdmAnswer (code : Nat) (payload : List Nat) (free : Nat) : List Nat
/-- What the security-and-boot processor's CTR_DRBG gives for half a key, by a free number (R323; log 83). -/
opaque Config.drbg (free : Nat) : BitVec 256
/-- What a library step of OP 2 to 5 writes: by library version, step entry, columns, input bytes, and a free number for what the step reads beside IN (R412; log 34). -/
opaque Config.libStep (lib entry cols input free : Nat) : Nat
/-- What kernels 3 to 6 write: by library version, argument block and a free number (R412; log 34). -/
opaque Config.libKernel (lib block free : Nat) : Nat
/-- Where in the first 16 MiB of BAR0 the MSI-X table and the PBA stand, in units of 8 bytes (R172; log 65). -/
opaque Config.msixTableAt : Nat
opaque Config.msixPbaAt : Nat
/-- The set of the frame-map cache that an entry falls into, which of the lines that are not recently used gives way to a new one,
and the stack of its hub that holds a cached entry (R236; log 13). -/
opaque Config.mapSet (key : Nat) : Nat
opaque Config.mapVictim (key misses : Nat) : Nat
opaque Config.mapStack (key : Nat) : Nat
/-- The position, 0 to 15, of the LPDDR5X channel of its hub that holds an entry of the frame map in tier 1, and its stripe (R227, R289; log 13). -/
opaque Config.mapChan (key : Nat) : Nat
opaque Config.mapStripe (key : Nat) : Nat

/-- The voltage in mV that a core island takes with a frequency (R30; log 54). -/
opaque Config.coreVolt (core tenMHz : Nat) : Nat
/-- Where the longest run of passing taps of a lane starts, and how long it is, as a free number of the sweep (R285). -/
opaque Config.laneSweep (free lane : Nat) (write : Bool) : Nat × Nat

end Sys2Proof
end

