-- ==== Sys2Proof/Machine/CompParts.lean ====
section
/-! DEFINITION. The compute plane's parts of State: cores, kernels, queues and their descriptors, sync objects (11, 13, 14). -/

namespace Sys2Proof.Machine

/-- A page that a TLD asked for and that has not arrived (R428, R439). `off` is a byte offset, or the tile register for space 1; `xid` names the TLD. -/
structure TldPage where
  xid : Nat
  group : Nat
  addr : Nat
  dsp : Nat
  off : Nat
  em : Nat
  deriving DecidableEq, Repr

/-- One core: its kernel and its storage (R360, R361, R423 to R428, R434). -/
structure CoreSt where
  /-- The kernel that runs on the core, until it ends. -/
  kid : Option Nat := none
  /-- The core has executed END. -/
  ended : Bool := false
  pc : Nat := 0
  s : List Word := List.replicate 32 0
  lc : List Nat := [0, 0, 0, 0]
  imem : Store Word := []
  tiles : Memory := []
  acc : Memory := []
  /-- Bit 2n: An's NaN flag; bit 2n + 1: its Inf flag (R404). -/
  flags : Nat := 0
  mem : Memory := []
  bufs : List Memory := [[], [], [], []]
  /-- Page slots of each engine's operand buffer that hold data of the running kernel, as bits (R368, R510). -/
  loaded : List Nat := [0, 0, 0, 0]
  tld : List TldPage := []
  xid : Nat := 0
  /-- Bytes of the store at pc that have been accepted while it waits. -/
  pos : Nat := 0
  /-- BARs passed per scope, and the scope the core waits at (R457). -/
  bars : List Nat := [0, 0, 0, 0]
  atBar : Option Nat := none
  /-- A SYNC waits (R430). -/
  inSync : Bool := false
  /-- MMAs with REFL issued (R446), blocks escalated (R435). -/
  reflN : Nat := 0
  glare : Nat := 0
  deriving DecidableEq, Repr

/-- A launch after its checks: waiting for clusters, or running (R356 to R374). -/
structure KernelSt where
  id : Nat
  part : Nat
  queue : Nat
  count : Nat
  /-- The argument block (R373). -/
  block : List Byte
  running : Bool := false
  clusters : List Nat := []
  startAt : Nat := 0
  seed : Nat := 0
  launchNo : Nat := 0
  /-- CMP_P_REFLECT at dispatch (R418), and the library version. -/
  reflect : Word := 0
  lib : Word := 0
  spill : Nat := 0
  glare : Nat := 0
  refl : Nat := 0
  nan : Bool := false
  inf : Bool := false
  /-- The early-end cause that stands, and when it arose; its cores have stopped (R369). -/
  fault : Option EndCause := none
  faultAt : Nat := 0
  /-- KERNEL_OUT of a library kernel (R378). -/
  out : Nat := 0
  deriving DecidableEq, Repr

/-- A fetched descriptor that has not completed (R464 to R478). `raw` is its 64 bytes. -/
structure DescSt where
  n : Nat
  raw : Nat
  link : Nat
  ld : Nat
  started : Bool := false
  /-- A launch that has passed its checks and waits for clusters. -/
  launched : Bool := false
  startAt : Nat := 0
  status : Option Nat := none
  detail : Nat := 0
  /-- Bytes done by a copy or fill. -/
  pos : Nat := 0
  /-- RESULT of a sync operation. -/
  result : Option Nat := none
  /-- Bytes asked for by host reads so far, what has arrived, and the pieces that arrived, (offset, length) (R112, R475). -/
  asked : Nat := 0
  host : Option Nat := none
  came : List (Nat × Nat) := []
  /-- Completion: 1 the status word, 2 the completion object's change awaits its epoch's acknowledgement (R477, R534). -/
  stage : Nat := 0
  deriving DecidableEq, Repr

/-- One queue beside its registers: fetched descriptors in count order, and the doorbells not yet passed, (tail, link, LD) (R475). -/
structure QueueSt where
  descs : List DescSt := []
  bells : List (Nat × Nat × Nat) := []
  deriving DecidableEq, Repr

/-- What a waiter waits for (R483, R484). -/
inductive WaitKind where
  | ge (v : Word) | eq (v : Word) | lock
  deriving DecidableEq, Repr

/-- A pending wait or lock request, with its owner tag and deadline (R482 to R485). -/
structure SyncWait where
  src : SyncSrc
  kind : WaitKind
  part : Nat
  queue : Nat
  deadline : Option Nat := none
  deriving DecidableEq, Repr

/-- A sync object (R481): LOCK 0 FREE, 1 HELD, 2 ABANDONED; waits in arrival order. -/
structure SyncObj where
  value : Word := 0
  target : Nat := 0
  lock : Nat := 0
  owner : Nat := 0
  share : Nat := 0
  waits : List SyncWait := []
  deriving DecidableEq, Repr

/-- The compute plane. -/
structure CompSt where
  kernels : List KernelSt := []
  nextKid : Nat := 0
  /-- Round-robin pointer of each partition over its queues (R357). -/
  rr : List Nat := List.replicate 16 0
  /-- ROUTE share of each cluster to hub 0, in sixteenths (R60, R82). -/
  route : List Nat := List.replicate 32 8
  /-- A library delivered by a firmware update that has not yet taken effect (R375). -/
  pendLib : Option Component := none
  deriving DecidableEq, Repr

end Sys2Proof.Machine
end

