-- ==== Sys2Proof/Machine/State.lean ====
section
/-! DEFINITION. The machine state, the reasons a step can stop, and the state after reset. -/

namespace Sys2Proof.Machine

/-- The JX-B640: module time, the queue of waiting commands, what it has sent, its register file, and each unit's state. -/
structure State where
  /-- Module time in ns (R142). -/
  time : Nat := 0
  /-- Free values consumed so far; the MODEL's own field. -/
  free : Nat := 0
  /-- Commands that wait, first in first out; the MODEL's own field. -/
  pending : List Instr := []
  /-- What the module has sent, oldest first. -/
  out : List Output := []
  regs : RegFile := []
  acc : AccSt := {}
  ev : EvSt := {}
  img : ImgSt := {}
  links : Store LinkSt := []
  lds : Store LdSt := []
  /-- Binding table (R149): key 16 × link + LD-ID. -/
  binding : Store (Option Nat) := []
  /-- Isolation table (R158): key 64 × partition + range. -/
  iso : Store (Option IsoEntry) := []
  parts : Store PartSt := []
  lens : LensSt := {}
  tier : TierSt := {}
  dram : DramSt := {}
  flash : FlashSt := {}
  qos : QosSt := {}
  mir : MirrorSt := {}
  power : PwrSt := {}
  start : StartSt := {}
  hup : HupSt := {}
  fw : FwSt := {}
  shw : ShwSt := {}
  cross : CrossSt := {}
  queues : Store QueueSt := []
  /-- Sync objects by module number (R481). -/
  sync : Store SyncObj := []
  /-- Cores by number 8 × cluster + index; shared memories by cluster (R360). -/
  cores : Store CoreSt := []
  shared : Store Memory := []
  comp : CompSt := {}
  /-- Pool contents as committed: key partition × 2^47 + apparent address. -/
  pool : Memory := []
  deriving DecidableEq, Repr

/-- Why the machine stops with a fault: it has no reason to. The spec gives every command of the table an effect, and every access that finds nothing an answer (R10, R11, R148, R150). -/
inductive Fault
  deriving DecidableEq, Repr

/-- Why the machine refuses a command. -/
inductive Refusal where
  /-- Raised by an arm of the dispatch that has no meaning yet. Safe. -/
  | notModelled (mnemonic : String)
  deriving DecidableEq, Repr

/-- The machine after module reset, before its start sequence has run (PHASE 0): every register at the value of its Reset column. -/
def State.reset : State := {}

end Sys2Proof.Machine
end

