-- ==== Sys2Proof/Machine/Ops.lean ====
section
/-! DEFINITION. The named operations every family shares: registers and counters, module time, bindings, event records, MSI-X messages. -/

namespace Sys2Proof.Machine

/-- The outcome of a command. -/
abbrev Res := Host.Outcome State Fault Refusal

/-- A stored register value. -/
def State.rd (s : State) (n : RegName) (i : Nat := 0) (j : Nat := 0) : Word := s.regs.read ⟨n, i, j⟩
/-- Store a register value. -/
def State.wr (s : State) (n : RegName) (v : Word) (i : Nat := 0) (j : Nat := 0) : State := { s with regs := s.regs.write ⟨n, i, j⟩ v }
/-- A field of a register: bits [lo+len-1:lo]. -/
def State.rdF (s : State) (n : RegName) (lo len : Nat) (i : Nat := 0) (j : Nat := 0) : Nat := fld (s.rd n i j) lo len
/-- Store a field of a register. -/
def State.wrF (s : State) (n : RegName) (lo len v : Nat) (i : Nat := 0) (j : Nat := 0) : State := s.wr n (setFld (s.rd n i j) lo len v) i j
/-- A bit of a register. -/
def State.rdB (s : State) (n : RegName) (b : Nat) (i : Nat := 0) (j : Nat := 0) : Bool := s.rdF n b 1 i j == 1
/-- Store a bit of a register. -/
def State.wrB (s : State) (n : RegName) (b : Nat) (v : Bool) (i : Nat := 0) (j : Nat := 0) : State := s.wrF n b 1 (if v then 1 else 0) i j
/-- Set a bit of a register: an event bit, or a state bit. -/
def State.setB (s : State) (n : RegName) (b : Nat) (i : Nat := 0) : State := s.wrB n b true i
/-- Clear a bit of a register. -/
def State.clrB (s : State) (n : RegName) (b : Nat) (i : Nat := 0) : State := s.wrB n b false i
/-- A 32-bit error counter rises by k and sticks at all ones (R18). -/
def State.incErr (s : State) (n : RegName) (i : Nat := 0) (k : Nat := 1) : State :=
  s.wr n (BitVec.ofNat 64 (min ((s.rd n i).toNat + k) (2 ^ 32 - 1))) i
/-- A 48-bit event counter rises by k: it wraps and sets its overflow bit (R18). R18 has a wrap raise an interrupt and names neither the interrupt nor its enable;
the model raises none (DESIGN CHOICE, log 70). -/
def State.incEvt (s : State) (n : RegName) (i : Nat := 0) (k : Nat := 1) : State := s.wr n (evtCount (s.rd n i) k) i

/-- Twelve digest registers: digest bytes 0 to 3 in DIGEST0 (R83, R599, R375). -/
def State.putDigest (s : State) (n : RegName) (d : BitVec 384) : State :=
  (List.range 12).foldl (fun (s : State) k => s.wr n (BitVec.ofNat 64 (ofBytes ((List.range 4).map (fun j => (d.extractLsb' (8 * (47 - (4 * k + j))) 8))))) k) s

/-- Module time in µs, low 32 bits (R142). -/
def State.us32 (s : State) : Nat := (s.time / 1000) % 2 ^ 32
/-- Module time reaches at least `t`: the command reports an event that falls at `t` (log 2). -/
def State.reach (s : State) (t : Nat) : State := { s with time := max s.time t }
/-- Send something. -/
def State.send (s : State) (o : Output) : State := { s with out := s.out ++ [o] }
/-- Take a fresh free value. -/
def State.nextFree (s : State) : Nat × State := (Config.freeNat s.free, { s with free := s.free + 1 })

/-- A reset of registers discards their held LO writes and latched HI values, of every requester (R12, R13). -/
def State.dropAcc (s : State) (names : List RegName) (i : Nat) : State :=
  let hit (k : Nat) : Bool := names.any (fun n => k % 2 ^ 40 / 8192 == n.ctorIdx * 8192 + i)
  { s with acc := { s.acc with latch := s.acc.latch.filter (fun e => !hit e.1), lo := s.acc.lo.filter (fun e => !hit e.1) } }

/-- State of a link. -/
def State.link (s : State) (n : Nat) : LinkSt := Store.get {} n s.links
/-- Store the state of a link. -/
def State.setLink (s : State) (n : Nat) (l : LinkSt) : State := { s with links := Store.set {} n l s.links }
/-- State of a logical device. -/
def State.ld (s : State) (link ld : Nat) : LdSt := Store.get {} (16 * link + ld) s.lds
/-- Store the state of a logical device. -/
def State.setLd (s : State) (link ld : Nat) (v : LdSt) : State := { s with lds := Store.set {} (16 * link + ld) v s.lds }
/-- State of a partition. -/
def State.part (s : State) (p : Nat) : PartSt := Store.get {} p s.parts
/-- Store the state of a partition. -/
def State.setPart (s : State) (p : Nat) (v : PartSt) : State := { s with parts := Store.set {} p v s.parts }
/-- Mirror state of a partition. -/
def State.mirPart (s : State) (p : Nat) : MirPart := Store.get {} p s.mir.parts
/-- Store the mirror state of a partition. -/
def State.setMirPart (s : State) (p : Nat) (v : MirPart) : State := { s with mir := { s.mir with parts := Store.set {} p v s.mir.parts } }

/-- A binding is active for LD-ID 0, and for the others on a link last trained to a switch (R111, R149). -/
def State.pairActive (s : State) (link ld : Nat) : Bool := ld == 0 || (s.link link).mld
/-- The partition a (link, LD-ID) pair is bound to (R148, R149). -/
def State.bound (s : State) (link ld : Nat) : Option Nat :=
  if s.pairActive link ld then Store.get none (16 * link + ld) s.binding else none
/-- The logical devices whose active binding is the partition, in ascending pair number (R111). -/
def State.ldsOf (s : State) (p : Nat) : List (Nat × Nat) :=
  s.binding.filterMap (fun e => if e.2 = some p ∧ s.pairActive (e.1 / 16) (e.1 % 16) then some (e.1 / 16, e.1 % 16) else none)
/-- The partition's apparent capacity in bytes (R63). -/
def State.apparent (s : State) (p : Nat) : Nat := match (s.part p).cfg with | none => 0 | some r => r.apparent
/-- The partition is durable (R63). -/
def State.durable (s : State) (p : Nat) : Bool := match (s.part p).cfg with | none => false | some r => r.durable
/-- Memory_Active of the partition (R95, R174). -/
def State.memActive (s : State) (p : Nat) : Bool := s.rdB .prtState 0 p
/-- Quarantine runs or holds (R168, R174). -/
def State.quarantined (s : State) (p : Nat) : Bool := s.rdB .prtState 3 p || s.rdB .prtState 4 p
/-- Set or clear Memory_Active of one LD (R95); setting it ends the LD's period of R96. -/
def State.ldActive (s : State) (link ld : Nat) (on : Bool) : State :=
  let d := s.ld link ld
  s.setLd link ld { d with memActive := on, inactTold := d.inactTold && !on }
/-- Set or clear Memory_Active: of each LD bound to the partition (R95), in PRT_STATE and in STR_START_STATE (R105, R174). Setting it ends the period of R96, and the liveness watchdog waits for its next write (R167).
A secondary and a FENCED primary serve no host, so that it stays clear there (R530, R535). -/
def State.setMemActive (s : State) (p : Nat) (on : Bool) : State :=
  let on := on && s.rdF .mirPState 0 2 p != 2 && s.rdF .mirPState 4 4 p != 5
  let s := (s.wrB .prtState 0 on p).wrB .strStartState (16 + p) on
  let s := (s.binding.filter (fun e => e.2 == some p)).foldl (fun s e => s.ldActive (e.1 / 16) (e.1 % 16) on) s
  if on then s.setPart p { s.part p with armed := false } else s

/-- The partition that owns the shadow window (R177). -/
def State.shwOwner (s : State) : Option Nat := if s.rdB .shwOwner 4 then some (s.rdF .shwOwner 0 4) else none

/-- A link in L1 goes back to the state it came from (R127). -/
def State.leaveL1 (s : State) (link : Nat) : State :=
  let st := s.rdF .lnkStatus 0 4 link
  if st ≠ 4 ∧ st ≠ 5 then s else
  let b := (s.link link).back
  (s.setLink link { s.link link with back := 0 }).wrF .lnkStatus 0 4 b link
/-- Send something that a link in L1 wakes up for: an MSI-X message or DMA (R127). -/
def State.sendUp (s : State) (link : Nat) (o : Output) : State := (s.leaveL1 link).send o

/-- A firmware processor does not run: it restarts, is halted or is powered down (R591, R611). -/
def State.fpDown (s : State) (n : Nat) : Bool := s.rdF .fwmPState 0 2 n != 0
/-- A firmware processor restarts or stays halted (R591). -/
def State.fpBusy (s : State) (n : Nat) : Bool := s.rdF .fwmPState 0 2 n == 1 || s.rdF .fwmPState 0 2 n == 2
/-- The module drains for, enters or stands in Night or Eclipse, or a hand-over runs: queues do not fetch, and no move starts (R552, R553, R581). -/
def State.nightBound (s : State) : Bool := s.hup.flushAt.isSome || (s.rdB .pwrState 7 && decide (2 ≤ s.rdF .pwrState 2 2)) || decide (2 ≤ s.rdF .pwrState 0 2)
/-- An island group departs with states of at least `d` and an entry has passed its commit step, or the module stands in such a state: its watchdogs are paused (R558). -/
def State.departed (s : State) (d : Nat) : Bool :=
  decide (d ≤ s.rdF .pwrState 0 2) || (s.rdB .pwrState 7 && decide (d ≤ s.rdF .pwrState 2 2) && decide (0 < s.rdF .pwrState 8 4))
/-- The hubs are without power: Night and Eclipse, until an exit's first step (R556, R557, R558). -/
def State.hubsOff (s : State) : Bool :=
  decide (2 ≤ s.rdF .pwrState 0 2) && !(s.rdB .pwrState 7 && decide (s.rdF .pwrState 2 2 < s.rdF .pwrState 0 2))
/-- A stack of the hub is above its thermal limit, so that the hub's background traffic is stopped (R594). -/
def State.hubHot (s : State) (h : Nat) : Bool := s.fw.hotStacks.any (fun e => e.1 / 4 == h && e.2.isSome)
/-- Work waits until a processor runs again (R591). -/
def State.fpWait (s : State) (i : Instr) : State := { s with fw := { s.fw with waiting := s.fw.waiting ++ [i] } }

/-- Keep a vector list ascending without repeats (R134). -/
def insertVec (v : Nat) : List Nat → List Nat
  | [] => [v]
  | x :: t => if v < x then v :: x :: t else if v = x then x :: t else x :: insertVec v t

/-- Raise an MSI-X vector of a logical device: sent with Bus Master Enable 1, else held in the PBA (R134). -/
def State.msix (s : State) (link ld vec : Nat) : State :=
  let d := s.ld link ld
  if d.bme then s.sendUp link (.msix link ld vec) else s.setLd link ld { d with pba := insertVec vec d.pba }

/-- The CXL event log of a record, by its STATUS (R606): 0 Informational, 1 Warning, 2 Failure. -/
def EvRec.log (r : EvRec) : Nat :=
  if r.status = 0x09 ∨ r.status = 0x05 ∨ r.status = 0x0F then 2
  else if r.status = 0 ∨ r.status = 0x10 ∨ r.status = 0x11 then 0 else 1

/-- Add a record to an LD's event log, and interrupt by its policy (R115, R606). -/
def State.logLd (s : State) (link ld : Nat) (r : EvRec) : State :=
  let d := s.ld link ld
  let pol := d.policy.getD r.log 0
  let s := s.setLd link ld { d with log := d.log ++ [(r.log, r)] }
  if pol % 4 = 1 then s.msix link ld (pol / 16) else s

/-- Raise an event record: to the management event log, and to the event logs of the LDs of its PART (R605, R606). -/
def State.raise (s : State) (r : EvRec) : State :=
  let r := { r with handle := s.ev.next, at_ := s.time, count := min r.count (2 ^ 32 - 1) }
  let s := { s with ev := { s.ev with log := s.ev.log ++ [r], next := s.ev.next + 1 } }
  match r.part with
  | none => s
  | some p => (s.ldsOf p).foldl (fun s d => s.logLd d.1 d.2 r) s

/-- Set an event bit and raise its record. -/
def State.event (s : State) (r : EvRec) (i : Nat := 0) : State := (s.setB r.reg r.bit i).raise r

/-- Kinds of gathered records (R626). -/
def gkUnmatched : Nat := 0
def gkFrozen : Nat := 1
def gkNospace : Nat := 2
def gkSpill : Nat := 3
def gkDeepMiss : Nat := 4
def gkUncorr : Nat := 5
def gkMiss : Nat := 6
def gkReflect : Nat := 7

/-- Key of a gathering window. -/
def gatherKey (kind key : Nat) : Nat := kind * 65536 + key % 65536

/-- Send the MSI-X vector tied to a record on every LD of a partition whose Bus Master Enable is 1 (R516, R626). -/
def State.tiedMsix (s : State) (m : Option (Nat × Nat)) : State :=
  match m with
  | none => s
  | some (p, vec) => (s.ldsOf p).foldl (fun s d => if (s.ld d.1 d.2).bme then s.msix d.1 d.2 vec else s) s

/-- Raise a record that is limited to one per kind and key per 1 ms (R626): at once and opening a window when none is open, gathered otherwise. -/
def State.raiseGathered (s : State) (kind key : Nat) (r : EvRec) (m : Option (Nat × Nat) := none) : State :=
  let k := gatherKey kind key
  let opened := { s with ev := { s.ev with gather := Store.set none k (some { opened := s.time, msix := m }) s.ev.gather } }
  match Store.get none k s.ev.gather with
  | none => (opened.raise { r with count := 1 }).tiedMsix m
  | some g =>
    if g.opened + 1000000 ≤ s.time ∧ g.first = none then (opened.raise { r with count := 1 }).tiedMsix m
    else
      let g' := { g with first := some (g.first.getD r), count := g.count + 1, msix := if g.first.isSome then g.msix else m }
      { s with ev := { s.ev with gather := Store.set none k (some g') s.ev.gather } }

/-- The end of a gathering window (R626): one record for what was gathered, which starts a new window; otherwise the window closes. -/
def State.gatherEnd (s : State) (kind key : Nat) : State :=
  let k := gatherKey kind key
  match Store.get none k s.ev.gather with
  | none => s
  | some g =>
    let s := s.reach (g.opened + 1000000)
    match g.first with
    | none => { s with ev := { s.ev with gather := Store.set none k none s.ev.gather } }
    | some r =>
      let s := { s with ev := { s.ev with gather := Store.set none k (some { opened := s.time }) s.ev.gather } }
      (s.raise { r with count := g.count }).tiedMsix g.msix

/-- Requester identity of host traffic of a partition (R291). -/
def reqHost (p : Nat) : Nat := p
/-- Requester identity of compute and descriptor traffic of a partition (R291). -/
def reqComp (p : Nat) : Nat := 16 + p
/-- Requester identity of a hub's migrator (R291). -/
def reqMig (h : Nat) : Nat := 32 + h
/-- The scrubber, flash translation and the mirror (R291). -/
def reqScrub : Nat := 34
def reqFtl : Nat := 35
def reqMirror : Nat := 36

/-- Parity of the bits of a number, `n` bits long. -/
def parity : Nat → Nat → Nat
  | 0, _ => 0
  | n + 1, v => (v % 2 + parity n (v / 2)) % 2

/-- The owning hub of a frame number, bits [46:16] of the apparent address (R26). -/
def hubOf (frame : Nat) : Nat := parity 31 frame

/-- Status codes (R19). -/
def stDone : Nat := 0x00
def stRange : Nat := 0x01
def stAlign : Nat := 0x02
def stDenied : Nat := 0x03
def stTimeout : Nat := 0x04
def stPoisoned : Nat := 0x05
def stAbandoned : Nat := 0x06
def stBusy : Nat := 0x07
def stDrain : Nat := 0x08
def stUncorr : Nat := 0x09
def stFormat : Nat := 0x0A
def stNospace : Nat := 0x0B
def stReset : Nat := 0x0C
def stLinkLost : Nat := 0x0D
def stFetch : Nat := 0x0E
def stQuar : Nat := 0x0F
def stSpilled : Nat := 0x10
def stEscalated : Nat := 0x11

/-- Ranges that any partition holds in partition p's apparent space: (holder, entry). -/
def State.rangesInto (s : State) (p : Nat) : List (Nat × IsoEntry) :=
  s.iso.filterMap (fun e => match e.2 with | some x => if x.owner = p then some (e.1 / 64, x) else none | none => none)

/-- A span of p's apparent space overlaps a frozen range (R153, R154). -/
def State.inFrozen (s : State) (p a n : Nat) : Bool :=
  (s.rangesInto p).any (fun x => x.2.attr == .frozen && decide (a < x.2.target + x.2.len ∧ x.2.target < a + n))

/-- A frame of p lies in a window range (R153). -/
def State.inWindow (s : State) (p frame : Nat) : Bool :=
  (s.rangesInto p).any (fun x => x.1 == p && x.2.attr == .window && decide (x.2.target ≤ frame * 65536 ∧ frame * 65536 < x.2.target + x.2.len))

/-- A frame of p lies in a frozen range that its owner holds (R229). -/
def State.frozenFrame (s : State) (p frame : Nat) : Bool := s.inFrozen p (frame * 65536) 65536

/-- A frame of p lies in a range granted to another partition as shared or frozen (R92). -/
def State.grantedFrame (s : State) (p frame : Nat) : Bool :=
  (s.rangesInto p).any (fun x => x.1 != p && (x.2.attr == .shared || x.2.attr == .frozen) &&
    decide (x.2.target ≤ frame * 65536 ∧ frame * 65536 < x.2.target + x.2.len))

end Sys2Proof.Machine
end

