-- ==== Sys2Proof/Machine/Regulate.lean ====
section
/-! DEFINITION. What every request takes from regulation: its class and level, its cost, the budget state, DevLoad (15_bandwidth_qos, R133). -/

namespace Sys2Proof.Machine

/-- The QOS record of a partition; the default of R61 where it has none. -/
def State.qosRec (s : State) (p : Nat) : QosRec :=
  (s.part p).qos.getD { part := p, dirShare := 0, missVec := 0, hostBudget := 0, compBudget := 0, classes := [⟨0, 0, false⟩], masters := [] }

/-- The first master entry that covers a source (R503): 0 binding pairs by 16 × link + LD-ID, 1 queues by partition-relative index. -/
def State.master (s : State) (p source idx : Nat) : Option QosMaster :=
  (s.qosRec p).masters.find? (fun m => m.source == source && decide (m.first ≤ idx ∧ idx ≤ m.last))

/-- The class of a request (R503). -/
def State.classOf (s : State) (p source idx : Nat) : Nat := match s.master p source idx with | none => 0 | some m => m.cls

/-- The record of a class. -/
def State.classRec (s : State) (p cls : Nat) : QosClass := (s.qosRec p).classes.getD cls ⟨0, 0, false⟩

/-- Costs of the last 10 µs. -/
def recentSum (now : Nat) (l : List (Nat × Nat)) : Nat := l.foldl (fun a x => if now < x.1 + 10000 then a + x.2 else a) 0

/-- Key of the recent-cost table. -/
def recentKey (p side cls : Nat) : Nat := 8 * p + 4 * side + cls % 4

/-- Delivered cost of a class over the last 10 µs, both sides (R507). -/
def State.delivered (s : State) (p cls : Nat) : Nat :=
  recentSum s.time (Store.get [] (recentKey p 0 cls) s.qos.recent) + recentSum s.time (Store.get [] (recentKey p 1 cls) s.qos.recent)

/-- A guaranteed class is below its floor (R507); 1 GB/s over 10 µs is 10,000 bytes. -/
def State.belowFloor (s : State) (p cls : Nat) : Bool :=
  let c := s.classRec p cls
  c.guaranteed && decide (s.delivered p cls < c.floor * 10000)

/-- The largest PIN_LEVELS value of a master among asserted pins that are not stuck (R511). -/
def State.pinUrgency (s : State) (m : QosMaster) : Nat :=
  (List.range 4).foldl (fun a n => if s.rdB .qosUrgPins n && !s.rdB .qosUrgPins (4 + n) then max a (m.pinLevels / 4 ^ n % 4) else a) 0

/-- Budget of a side in GB/s (R502). -/
def State.budget (s : State) (p side : Nat) : Nat := if side = 0 then (s.qosRec p).hostBudget else (s.qosRec p).compBudget
/-- Tokens that a bucket holds now, in bytes; its depth is the cost of 10 µs at the budget (R506). -/
def State.tokens (s : State) (p side : Nat) : Nat :=
  let depth := s.budget p side * 10000
  match Store.get none (2 * p + side) s.qos.buckets with
  | none => depth
  | some b => min depth (b.tokens + s.budget p side * (s.time - b.time))
/-- The side is over budget: marked, and its bucket does not yet hold a full 10 µs of tokens again (R506). -/
def State.overBudget (s : State) (p side : Nat) : Bool := s.rdB .qosPState side p && decide (s.tokens p side < s.budget p side * 10000)

/-- The level a request takes at ingress (R500); `fill` is the urgency that a buffer-level master's wire gives (R510). -/
def State.levelOf (s : State) (p side source idx fill : Nat) : Nat :=
  let cls := s.classOf p source idx
  if s.overBudget p side && !s.belowFloor p cls then 1 else
  let b := if (s.classRec p cls).guaranteed then 5 else 3
  match s.master p source idx with
  | none => b
  | some m =>
    let b := if m.urg = 1 then max b 6 else b
    let u := if m.urg = 2 then fill else if m.urg = 3 then s.pinUrgency m else 0
    if 0 < u then max b (4 + u) else b

/-- Charge the cost of a request to a partition's side (R505, R506), and count one charged at level 1. -/
def State.charge (s : State) (p side cls level cost : Nat) : State :=
  let depth := s.budget p side * 10000
  let tok := s.tokens p side
  let key := recentKey p side cls
  let rec' := ((Store.get [] key s.qos.recent).filter (fun x => s.time < x.1 + 10000)) ++ [(s.time, cost)]
  let s := { s with qos := { s.qos with recent := Store.set [] key rec' s.qos.recent } }
  let s := if level = 1 then s.incEvt .qosPLowered p else s
  if depth = 0 then s else
  let s := if tok = depth then s.clrB .qosPState side p else s
  let put (s : State) (t : Nat) : State := { s with qos := { s.qos with buckets := Store.set none (2 * p + side) (some ⟨t, s.time⟩) s.qos.buckets } }
  if tok < cost then
    let s := if s.rdB .qosPState side p then s else (s.setB .qosPState side p).setB .qosPEvent 2 p
    put s 0
  else put s (tok - cost)

/-- The request in service carries a level from here on (R500, R501). -/
def State.atLevel (s : State) (l : Nat) : State := { s with qos := { s.qos with level := l } }

/-- The level of a hub's background requests: 4 within QOS_MIG_RESERVE over the last 10 µs, 2 beyond it (R513). -/
def State.bgLevel (s : State) (h : Nat) : Nat := if recentSum s.time (Store.get [] h s.qos.bg) < s.rdF .qosMigReserve 0 7 * 10000 then 4 else 2
/-- Background traffic waits until its rate in GB/s allows it, and takes up its share of it (R512). -/
def State.bgPipe (s : State) (key rate bytes : Nat) : State :=
  let s := s.reach (Store.get 0 key s.qos.bgFree)
  { s with qos := { s.qos with bgFree := Store.set 0 key (s.time + (bytes + rate - 1) / max rate 1) s.qos.bgFree } }
/-- A hub issues background traffic of a kind: at most at QOS_BG_RATE and at the cap of its kind, if it has one, and at the level of R513. How the traffic is shared out is the model's reading (DEDUCED, log 85). -/
def State.background (s : State) (h kind cap bytes : Nat) : State :=
  let s := s.bgPipe h (s.rdF .qosBgRate (16 * h) 16) bytes
  let s := if cap = 0 then s else s.bgPipe (8 * kind + h) cap bytes
  let l := s.bgLevel h
  let t := ((Store.get [] h s.qos.bg).filter (fun x => s.time < x.1 + 10000)) ++ [(s.time, bytes)]
  { s with qos := { s.qos with level := l, bg := Store.set [] h t s.qos.bg } }

/-- An arbiter's order (R496): highest level first, equal levels by a round-robin pointer over requester identities that moves past the winner, and equal requesters by age (DEDUCED, log 86). Answers the order and the pointer. -/
def arbitrate {α : Type} (level req : α → Nat) : Nat → Nat → List α → List α × Nat
  | 0, ptr, _ => ([], ptr)
  | n + 1, ptr, l =>
    let key (x : α) : Nat := (8 - min 8 (level x)) * 64 + (req x + 37 - ptr % 37) % 37
    match leastBy key l with
    | none => ([], ptr)
    | some x =>
      let i := (l.findIdx? (fun y => key y == key x)).getD 0
      let (r, p) := arbitrate level req n ((req x + 1) % 37) (l.eraseIdx i)
      (x :: r, p)

/-- The directory share of a partition on each hub (R502, R630). -/
def State.dirShare (s : State) (p : Nat) : Nat :=
  match (s.part p).qos with
  | some q => q.dirShare
  | none =>
    let ps := (List.range 16).filter (fun q => (s.part q).cfg.isSome)
    let sum := ps.foldl (fun a q => match (s.part q).qos with | some r => a + r.dirShare | none => a) 0
    let n := (ps.filter (fun q => (s.part q).qos.isNone)).length
    if n = 0 then 0 else (2048 - sum) / n

/-- Requests of a partition that a hub's directory holds (R508): reads and writes held there. -/
def State.dirUsed (s : State) (p h : Nat) : Nat :=
  min (s.dirShare p) ((s.tier.heldR.filter (fun r => r.reqPart == p && hubOf (r.addr / 65536) == h)).length
    + (s.lens.heldW.filter (fun r => r.reqPart == p && hubOf (r.addr / 65536) == h)).length)

/-- The partition is over budget and runs at lowered priority: not every class of it is kept up by its floor (R133, R507; DEDUCED, log 87). -/
def State.lowered (s : State) (p : Nat) : Bool :=
  (s.overBudget p 0 || s.overBudget p 1) && (List.range (s.qosRec p).classes.length).any (fun c => !s.belowFloor p c)

/-- DevLoad of a response for a partition on a hub (R133). -/
def State.devLoad (s : State) (p h : Nat) : DevLoad :=
  let n := s.dirUsed p h
  let cap := s.dirShare p
  let missed := match Store.get none p s.qos.missAt with | none => false | some t => decide (s.time < t + 100000)
  if decide (0 < cap ∧ cap ≤ n) || missed then .severe
  else if decide (0 < cap ∧ 3 * cap ≤ 4 * n) || s.lowered p then .moderate
  else if decide (0 < cap ∧ cap ≤ 4 * n) then .optimal else .light

/-- BOUNDS_HOLD in the configuration in force (R517). -/
def State.boundsHold (s : State) : Bool :=
  let uses (p side : Nat) : Bool := (s.qosRec p).masters.any (fun m => m.source == side && m.urg != 0)
  let urgent := (List.range 16).filter (fun p => uses p 0 || uses p 1)
  let sum (f : QosRec → Nat) : Nat := urgent.foldl (fun a p => a + f (s.qosRec p)) 0
  let quotas := (List.range 16).foldl (fun a p => a + (match (s.part p).cfg with | none => 0 | some r => r.mergeQuota)) 0
  urgent.all (fun p => (!uses p 0 || (s.qosRec p).hostBudget != 0) && (!uses p 1 || (s.qosRec p).compBudget != 0))
    && decide (sum (·.hostBudget) ≤ 512) && decide (sum (·.compBudget) ≤ 4000) && decide (quotas + (s.rd .lnsPressure).toNat ≤ 4096)

/-- BOUNDS_HOLD after a change of the configuration; a change of its value sets BOUNDS_CHANGED (R517). -/
def State.boundsUpdate (s : State) : State :=
  if s.boundsHold = s.rdB .qosStatus 0 then s else (s.wrB .qosStatus 0 s.boundsHold).setB .qosEvent 5

end Sys2Proof.Machine
end

