-- ==== Sys2Proof/Machine/Pool.lean ====
section
/-! DEFINITION. The frame map and the accounting over it: heat, occupancy, quotas, placement of runs (06 R188 to R221, 07 R228 to R265, 08 R269 to R296, 09 R303). -/

namespace Sys2Proof.Machine

/-- Key of a frame in the frame map. -/
def fkey (p frame : Nat) : Nat := p * 2 ^ 31 + frame % 2 ^ 31
/-- A frame-map entry; an unlisted frame is ZERO (R234). -/
def State.frame (s : State) (p f : Nat) : FrameSt := Store.get {} (fkey p f) s.tier.frames
/-- Store a frame-map entry. -/
def State.setFrame (s : State) (p f : Nat) (v : FrameSt) : State :=
  { s with tier := { s.tier with frames := Store.set {} (fkey p f) v s.tier.frames } }
/-- The listed frames of a partition: (frame number, entry). -/
def State.framesOf (s : State) (p : Nat) : List (Nat × FrameSt) :=
  s.tier.frames.filterMap (fun e => if e.1 / 2 ^ 31 = p then some (e.1 % 2 ^ 31, e.2) else none)
/-- Page k of a frame. -/
def FrameSt.page (f : FrameSt) (k : Nat) : PageSt := f.pages.getD k {}
/-- Replace page k of a frame. -/
def FrameSt.setPage (f : FrameSt) (k : Nat) (v : PageSt) : FrameSt := { f with pages := f.pages.set k v }
/-- The frame has a run of sectors (R190, R194). -/
def FrameSt.hasRun (f : FrameSt) : Bool := f.pages.any (fun p => decide (0 < p.allot))
/-- Page-code strength of a tier (R331, R350). -/
def State.strength (s : State) (t : Nat) : Nat := s.rdF .eccStrength (8 * t) 8
/-- The strength of a frame's home run; the relocation area uses tier 0's (R331). -/
def State.runStrength (s : State) (f : FrameSt) : Nat := s.strength (if f.reloc then 0 else f.home)
/-- Sectors of the home run, allotments and tail (R190). -/
def State.runLen (s : State) (f : FrameSt) : Nat :=
  if f.hasRun then f.pages.foldl (fun a p => a + p.allot) 0 + tailSectors (s.runStrength f) else 0
/-- Allotments of a run laid out afresh (R191). -/
def FrameSt.freshAllots (f : FrameSt) : List Nat :=
  f.pages.map (fun p => if p.codec = 1 ∨ p.codec = 6 ∨ p.codec = 7 then 0 else allotFor (usedSectors p.len))
/-- Sectors of a run laid out afresh in a tier. -/
def State.freshLen (s : State) (f : FrameSt) (t : Nat) : Nat :=
  let n := f.freshAllots.foldl (· + ·) 0
  if n = 0 then 0 else n + tailSectors (s.strength t)

/-- OCC of a tier in bytes (R216). -/
def State.occ (s : State) (p t : Nat) : Nat :=
  64 * (s.framesOf p).foldl (fun a e => if e.2.home = t then a + s.runLen e.2 else a) 0
/-- REPL of a tier in bytes (R230). -/
def State.replOcc (s : State) (p t : Nat) : Nat :=
  64 * (s.framesOf p).foldl (fun a e => if e.2.repl = some t then a + s.freshLen e.2 t else a) 0
/-- RESERVED in bytes (R216). -/
def State.reserved (s : State) (p : Nat) : Nat :=
  64 * s.lens.slots.foldl (fun a x => if x.part = p then a + x.resv else a) 0
/-- A page's stored content is not all zero: the pool lists no zero byte. -/
def State.pageHasData (s : State) (p page : Nat) : Bool :=
  let a := p * 2 ^ 47 + page * 4096
  s.pool.any (fun c => decide (a ≤ c.1 ∧ c.1 < a + 4096))

/-- MAPPED in bytes: pages that are not all zero (R216). -/
def State.mapped (s : State) (p : Nat) : Nat :=
  4096 * (s.framesOf p).foldl (fun a e => a + (e.2.pages.zipIdx.filter (fun x => x.1.codec == 7 || (x.1.codec != 1 && s.pageHasData p (16 * e.1 + x.2)))).length) 0
/-- The quota of a tier in bytes; tier 2 by its effective quota (R304). -/
def State.quota (s : State) (p t : Nat) : Nat :=
  match (s.part p).cfg with
  | none => 0
  | some r => if t = 0 then r.quota0 else if t = 1 then r.quota1 else (s.rd .carPQuotaT2Eff p).toNat
/-- The receive buffer that a mirrored partition keeps in tier 0 on the secondary (R524). -/
def State.recvBuf (s : State) (p : Nat) : Nat := if s.rdF .mirPState 0 2 p = 2 then 128 * 2 ^ 20 else 0
/-- The two pinned buffers of the shadow window's owner (R182). -/
def State.shwBytes (s : State) (p : Nat) : Nat := if s.shwOwner = some p then 2 ^ 21 else 0
/-- What of a quota runs may take: the receive buffer and the shadow window's buffers count against tier 0 (R182, R524). -/
def State.roomQuota (s : State) (p t : Nat) : Nat := s.quota p t - (if t = 0 then s.recvBuf p + s.shwBytes p else 0)
/-- FLAGS.SHADOW of a frame (R233): it is selected in the shadow window, or its write-back has not ended. -/
def State.shadowed (s : State) (p f : Nat) : Bool :=
  s.shwOwner == some p && (s.shw.cur.any (fun b => b.index == f / 16) || s.shw.old.any (fun b => b.index == f / 16))
/-- Q, the sum of the quotas (R216). -/
def State.quotaSum (s : State) (p : Nat) : Nat := s.quota p 0 + s.quota p 1 + s.quota p 2
/-- Bytes that the destinations of running moves will add to a tier's occupancy, and with `repl` to its replicas (R248, R254). -/
def State.landing (s : State) (p t : Nat) (repl : Bool) : Nat :=
  64 * s.tier.moves.foldl (fun a m => if m.running ∧ m.part = p ∧ m.destTier = t ∧ (s.frame p m.frame).home ≠ t ∧ (repl ∨ (m.kind ≠ MoveKind.replicate ∧ m.kind ≠ MoveKind.replDown)) then a + m.destAllot.foldl (· + ·) 0 + tailSectors (s.strength t) else a) 0
/-- DEBT in bytes (R216). -/
def State.debt (s : State) (p : Nat) : Nat := s.mapped p - s.quotaSum p
/-- Debt capacity in bytes (R216). -/
def State.debtCap (s : State) (p : Nat) : Nat := s.apparent p - s.quotaSum p
/-- Open slots of a partition on a hub (R224). -/
def State.slotsAll (s : State) (p h : Nat) : Nat := (s.lens.slots.filter (fun x => x.part == p && x.hub == h)).length
/-- Open slots of a partition on a hub that its MERGE_QUOTA counts, correction slots left out (R211, R335). -/
def State.slotsOf (s : State) (p h : Nat) : Nat := (s.lens.slots.filter (fun x => x.part == p && x.hub == h && !x.corr)).length
/-- Free merge slots of a hub (R27). -/
def State.slotsFree (s : State) (h : Nat) : Nat := 4096 - (s.lens.slots.filter (fun x => x.hub == h)).length
/-- Hubs with a FAILED stack, whose merge slots stand in the other hub's relocation area (R284). -/
def State.hubsFailed (s : State) : Nat := ((List.range 2).filter (fun h => (List.range 4).any (fun i => s.rdF .hbcStackState (4 * (4 * h + i)) 2 == 2))).length
/-- Relocation area in use, sectors (R220, R284). -/
def State.relocUsed (s : State) : Nat := s.hubsFailed * 4096 * 64 + s.tier.frames.foldl (fun a e => if e.2.reloc then a + s.runLen e.2 else a) 0
/-- Dirty volume of a partition (R263). -/
def State.dirty (s : State) (p : Nat) : Nat :=
  if s.durable p then
    s.occ p 0 + s.occ p 1 + 4096 * (s.lens.slots.filter (fun x => x.part == p)).length
      + 64 * (s.framesOf p).foldl (fun a e => if e.2.reloc && e.2.home == 2 then a + s.runLen e.2 else a) 0
  else 0
/-- TIR_DIRTY_TOTAL (R263). -/
def State.dirtyTotal (s : State) : Nat := (List.range 16).foldl (fun a p => a + s.dirty p) 0
/-- The effective budget (R264). -/
def State.dirtyBudget (s : State) : Nat := (s.rd .tirDirtyBudget).toNat

/-! Heat (R239 to R243). -/

/-- Aging epochs since module reset, low 16 bits (R241). -/
def State.epoch16 (s : State) : Nat := (s.rd .tirEpochNow).toNat % 65536
/-- Bring a frame's counters up to date (R241). -/
def State.aged (s : State) (f : FrameSt) : FrameSt :=
  let d := (s.epoch16 + 65536 - f.stamp % 65536) % 65536
  { f with heat := f.heat.map (fun h => h / 2 ^ min d 8), stamp := s.epoch16 }
/-- One more touch of page k (R240). -/
def heatTouch (h : List Nat) (k : Nat) : List Nat :=
  let v := min 255 (h.getD k 0 + 1)
  let h := h.set k v
  if v = 255 then h.map (· / 2) else h
/-- H of a frame: the largest counter among pages whose CODECS value is not 1 (R243). -/
def FrameSt.hot (f : FrameSt) : Nat :=
  ((f.heat.zip f.pages).filter (fun x => x.2.codec != 1)).foldl (fun a x => max a x.1) 0

/-! Where sectors lie (R271, R273, R274). -/

/-- Tier 0 place (R273). `pch` is the pseudo-channel, 0 to 31. -/
def place0 (n : Nat) : Place :=
  let u := n % 2 ^ 32
  let stack := 4 * (n / 2 ^ 32) + (u / 128) % 4
  let pch := (u / 4) % 32
  ⟨64 + 16 * stack + pch / 2, pch, (u / 512) * 256 + 64 * (u % 4)⟩

/-- Tier 1 stripe, position and channel before substitution (R273). -/
def pos1 (n : Nat) : Nat × Nat × Nat :=
  let hub := n / 2 ^ 35
  let m := n % 2 ^ 35
  let g := 2 * hub + (m / 7) % 2
  let stripe := m / 14
  let d := m % 7
  let pp := stripe % 8
  let pos := if d < pp then d else d + 1
  (stripe, pos, 17 * hub + 8 * (g % 2) + pos)

/-- The spare channel that serves channel c, when one took its position (R281, R282). -/
def State.spareFor (s : State) (c : Nat) : Option Nat :=
  let h := c / 17
  if s.rdB .lpcSpare (8 * h + 6) && s.rdF .lpcSpare (8 * h) 6 == c then some (17 * h + 16) else none

/-- The channel in service at c's position for a stripe; none where its sectors must be reconstructed (R279, R280). -/
def State.servedBy (s : State) (c stripe : Nat) : Option Nat :=
  let out := s.rdF .lpcCState 0 3 c == 2 || s.rdF .lpcCState 0 3 c == 4
  if !out then some c else
  match s.spareFor c with
  | none => none
  | some sp =>
    let st := s.rdF .lpcCState 0 3 sp
    if st == 2 || st == 4 then none
    else if st == 3 && decide ((s.rd .lpcRebuildPtr (c / 17)).toNat ≤ stripe) then none
    else some sp

/-- Tier 1 place (R273, R281). -/
def State.place1 (s : State) (n : Nat) : Place :=
  let (stripe, _, c) := pos1 n
  ⟨(s.servedBy c stripe).getD c, 0, 64 * stripe⟩

/-- The place of a sector of a tier 0 or tier 1 run. -/
def State.place (s : State) (t n : Nat) : Place := if t = 0 then place0 n else s.place1 n

/-- The places that a read of a stored sector touches: its own, or the other seven of its stripe where it must be reconstructed (R273, R279). -/
def State.readPlaces (s : State) (t n : Nat) : List Place :=
  if t = 0 then [place0 n] else
  let (stripe, pos, c) := pos1 n
  match s.servedBy c stripe with
  | some x => [⟨x, 0, 64 * stripe⟩]
  | none => ((List.range 8).filter (fun i => i != pos)).filterMap (fun i => (s.servedBy (c - pos + i) stripe).map (fun x => ⟨x, 0, 64 * stripe⟩))

/-- The places that a write of a stored sector touches: its own and, in tier 1, its stripe's parity, whether the write covers the stripe or has to read it first; a position that is out of service is skipped (R278, R281).
Each command is one step, so the writes of one stripe are served in arrival order. -/
def State.writePlaces (s : State) (t n : Nat) : List Place :=
  if t = 0 then [place0 n] else
  let (stripe, pos, c) := pos1 n
  [c, c - pos + stripe % 8].filterMap (fun i => (s.servedBy i stripe).map (fun x => ⟨x, 0, 64 * stripe⟩))

/-- Channel sector number as a remap entry records it (R351). -/
def Place.sector (x : Place) : Nat := if 64 ≤ x.chan then (x.pch % 2) * 2 ^ 25 + x.addr / 64 else x.addr / 64

/-- PASR segment of a tier 1 sector (R289). -/
def pasrSeg (n : Nat) : Nat := ((n % 2 ^ 35) / 14) / 2 ^ 28 % 8

/-! Row-hammer counts (R291 to R293). -/

/-- Hashed bank bits of an address under four masks: BG in [3:2], BA in [1:0] (R275). -/
def hashBank (m : List Nat) (a : Nat) : Nat :=
  let b (i : Nat) := parity 64 (a &&& m.getD i 0)
  b 0 + 2 * b 1 + 4 * b 2 + 8 * b 3

/-- Row group of a place (R274, R291): key, and the location field of RH_LAST (R296). -/
def State.rowGroup (s : State) (x : Place) : Nat × Nat :=
  if 64 ≤ x.chan then
    let stack := (x.chan - 64) / 16
    let bank := hashBank ((List.range 4).map (fun i => (s.rd .hbcMask i).toNat)) x.addr
    let rg := x.addr / 2 ^ 14 / 64
    ((((64 + stack) * 32 + x.pch) * 16 + bank) * 8192 + rg, stack * 64 + x.pch * 512 + bank * 16384 + rg * 2 ^ 18)
  else
    let sub := x.addr / 64 % 4
    let rank := x.addr / 2 ^ 17 % 2
    let bank := hashBank ((List.range 4).map (fun i => (s.rd .lpcMask i).toNat)) x.addr
    let rg := x.addr / 2 ^ 18 / 64
    ((((x.chan * 4 + sub) * 2 + rank) * 16 + bank) * 8192 + rg, x.chan * 64 + sub * 4096 + rank * 2 ^ 14 + bank * 2 ^ 15 + rg * 2 ^ 19)

/-- Number of a place's controller: channel 0 to 33, or 64 + stack. -/
def Place.ctrl (x : Place) : Nat := if 64 ≤ x.chan then 64 + (x.chan - 64) / 16 else x.chan
/-- Row of a place (R274). -/
def Place.row (x : Place) : Nat := if 64 ≤ x.chan then x.addr / 2 ^ 14 else x.addr / 2 ^ 18

/-- A refresh, or a refresh management command, for a bank enters its controller's queue (R288, R293). -/
def State.refreshPush (s : State) (k bank : Nat) : State :=
  let r : CtrlReq := { refresh := true, bank := bank }
  { s with dram := { s.dram with queue := Store.set [] k (Store.get [] k s.dram.queue ++ [r]) s.dram.queue } }

/-- A crossing (R293): refresh management for the group's bank; throttle the leader on the controller; count; record. -/
def State.rhCrossing (s : State) (x : Place) (loc lead : Nat) : State :=
  let hb := decide (64 ≤ x.chan)
  let ctrl := x.ctrl
  let s := s.refreshPush ctrl ((s.rowGroup x).1 / 8192)
  let word := BitVec.ofNat 64 (lead + loc + s.us32 * 2 ^ 32)
  let s := { s with dram := { s.dram with throttle := (s.dram.throttle.filter (fun (t : Nat × Nat × Nat) => !(t.1 == ctrl && t.2.1 == lead))) ++ [(ctrl, lead, 2)] } }
  let part := if lead < 32 then some (lead % 16) else none
  if hb then
    ((((s.wrB .hbcSThrottle lead true ((x.chan - 64) / 16)).incEvt .hbcRhEvents).wr .hbcRhLast word)).event
      { reg := .hbcEvent, bit := 3, part := part, req := some lead, addr := x.addr, value := loc }
  else
    ((((s.wrB .lpcCThrottle lead true x.chan).incEvt .lpcRhEvents).wr .lpcRhLast word)).event
      { reg := .lpcEvent, bit := 3, part := part, req := some lead, addr := x.addr, value := loc }

/-- One activation of a place's row group by a requester (R292). -/
def State.activate (s : State) (req : Nat) (x : Place) : State :=
  let (k, loc) := s.rowGroup x
  let g := Store.get {} k s.dram.rh
  let c := min (g.cnt + 1) 65535
  let g' : RhGroup := if g.lead = req then { cnt := c, lead := req, lcnt := g.lcnt + 1 }
    else if g.lcnt = 0 then { cnt := c, lead := req, lcnt := 1 } else { cnt := c, lead := g.lead, lcnt := g.lcnt - 1 }
  let s := { s with dram := { s.dram with rh := Store.set {} k g' s.dram.rh } }
  let th := if 64 ≤ x.chan then s.rdF .hbcRhThresh 0 16 else s.rdF .lpcRhThresh 0 16
  if th ≤ c ∧ (c - th) % (th / 4) = 0 then s.rhCrossing x loc g'.lead else s

/-- The request of a controller's queue that is served next, and whether it is a row hit that passes an older request of its level (R498): refresh first, then level, then row hits, 16 of them in a row at most, then age. When a queue is served is the model's choice (DESIGN CHOICE, log 20). -/
def ctrlPick (hit : CtrlReq → Bool) (hits : Nat) (q : List CtrlReq) : Option (Nat × Bool) :=
  match q.findIdx? (·.refresh) with
  | some i => some (i, false)
  | none =>
    let top := q.foldl (fun a r => max a r.level) 0
    match q.findIdx? (fun r => r.level == top), q.findIdx? (fun r => r.level == top && hit r) with
    | some o, some r => if o < r ∧ hits < 16 then some (r, true) else some (o, false)
    | o, _ => o.map (fun i => (i, false))

/-- A throttled requester's activations on a controller are spaced at least RH_DELAY ns apart (R293). -/
def State.throttleWait (s : State) (k req : Nat) : State :=
  if !s.dram.throttle.any (fun t => t.1 == k && t.2.1 == req) then s else
  let key := 64 * k + req
  let d := if 64 ≤ k then s.rdF .hbcRhDelay 0 10 else s.rdF .lpcRhDelay 0 10
  let s := match Store.get none key s.dram.actAt with | none => s | some t => s.reach (t + d)
  { s with dram := { s.dram with actAt := Store.set none key (some s.time) s.dram.actAt } }

/-- A controller serves its queue (R288, R498): an access to a row that is not open activates it; a refresh closes its bank. -/
def State.ctrlServe (s : State) (k : Nat) : Nat → State
  | 0 => s
  | n + 1 =>
    let q := Store.get [] k s.dram.queue
    let opened (r : CtrlReq) : Bool := Store.get none r.bank s.dram.openRow == some r.row
    let hits := Store.get 0 k s.dram.rowHits
    match ctrlPick opened hits q with
    | none => s
    | some (i, pass) => match q[i]? with
      | none => s
      | some r =>
        let d : DramSt := { s.dram with queue := Store.set [] k (q.eraseIdx i) s.dram.queue, rowHits := Store.set 0 k (if pass then hits + 1 else 0) s.dram.rowHits }
        if r.refresh then ({ s with dram := { d with openRow := Store.set none r.bank none d.openRow, refAt := Store.set 0 r.bank s.time d.refAt } } : State).ctrlServe k n
        else
          let hit := opened r
          let s : State := { s with dram := { d with openRow := Store.set none r.bank (some r.row) d.openRow } }
          (if hit then s else (s.throttleWait k r.req).activate r.req r.place).ctrlServe k n

/-- A controller serves what stands in its queue, with the refreshes that this asks for; then its rows close (DESIGN CHOICE, log 20). -/
def State.ctrlDrain (s : State) (k : Nat) : State :=
  let s := s.ctrlServe k (2 * (Store.get [] k s.dram.queue).length)
  { s with dram := { s.dram with openRow := [], rowHits := [] } }

/-- A request enters its controller's queue, with the level in service (R498, R500). -/
def State.ctrlPush (s : State) (req : Nat) (x : Place) : State :=
  let (g, _) := s.rowGroup x
  let r : CtrlReq := { level := s.qos.level, req := req, bank := g / 8192, row := x.row, place := x }
  { s with dram := { s.dram with queue := Store.set [] x.ctrl (Store.get [] x.ctrl s.dram.queue ++ [r]) s.dram.queue } }

/-- A requester accesses places: they queue at their controllers, which serve them within the command (R292, R498). -/
def State.activateAll (s : State) (req : Nat) (l : List Place) : State :=
  let s := l.foldl (fun (s : State) x => s.ctrlPush req x) s
  ((l.map Place.ctrl).eraseDups).foldl (fun (s : State) k => s.ctrlDrain k) s
/-- The activations of reading sectors of a tier. -/
def State.activateReads (s : State) (req t : Nat) (l : List Nat) : State := if 2 ≤ t then s else s.activateAll req (l.flatMap (s.readPlaces t))
/-- The activations of writing sectors of a tier. -/
def State.activateWrites (s : State) (req t : Nat) (l : List Nat) : State := if 2 ≤ t then s else s.activateAll req (l.flatMap (s.writePlaces t))

/-! The remap store (R339). -/

/-- The remap entry that serves a channel sector. -/
def State.remapEntry (s : State) (x : Place) : Option Nat :=
  (List.range (s.rdF .eccChState 0 5 x.chan)).find? (fun i => let w := s.rd .eccChRemap x.chan i
    bit w 31 && decide (fld w 0 26 + fld w 58 5 * 2 ^ 26 = x.sector))
/-- A frame's data is written to sectors of tier 0 or 1: a remapped one goes to its store line. -/
def State.storeLines (s : State) (p f t : Nat) (sectors : List Nat) : State :=
  if 2 ≤ t then s else sectors.foldl (fun (s : State) n =>
    let x := s.place t n
    match s.remapEntry x with
    | none => s
    | some i => { s with dram := { s.dram with remapStore := Store.set none (16 * x.chan + i) (some (fkey p f)) s.dram.remapStore } }) s

/-! Room and placement of runs. -/

/-- Sectors that a hub half of a tier holds for runs: tier 0 (R27, R227), tier 1 (R227), tier 2 the array (R303). -/
def State.halfCap (s : State) (t : Nat) : Nat :=
  if t = 0 then (495 * 2 ^ 30 / 64) / 2 else if t = 1 then (3456 * 2 ^ 30 / 64) / 2 else (s.rd .carEffCap).toNat / 64

/-- The half of a tier that a run lies in. -/
def halfOf (t base : Nat) : Nat := if t = 0 then base / 2 ^ 32 else if t = 1 then base / 2 ^ 35 else 0

/-- Sectors of home runs and replicas in one half of a tier. -/
def State.halfUsed (s : State) (t h : Nat) : Nat :=
  s.tier.frames.foldl (fun a e =>
    let a := if e.2.home = t ∧ !e.2.reloc ∧ (t = 2 ∨ halfOf t e.2.base = h) then a + s.runLen e.2 else a
    if e.2.repl = some t ∧ halfOf t e.2.replBase = h then a + s.freshLen e.2 t else a) 0
  + s.tier.moves.foldl (fun a m => if m.running ∧ m.destTier = t ∧ (t = 2 ∨ halfOf t m.destBase = h)
      then a + m.destAllot.foldl (· + ·) 0 + tailSectors (s.strength t) else a) 0
  + s.tier.abandoned.foldl (fun a x => if x.1 = t ∧ halfOf t x.2.1 = h then a + x.2.2 else a) 0

/-- A half of a tier takes new runs: tier 0 without a DEGRADED or FAILED stack on the hub (R284), tier 1 without a FAILED group (R280), tier 2 with a writable array (R310). -/
def State.halfOpen (s : State) (t h : Nat) : Bool :=
  if t = 0 then (List.range 4).all (fun i => s.rdF .hbcStackState (4 * (4 * h + i)) 2 == 0)
  else if t = 1 then (List.range 2).all (fun i => s.rdF .lpcGroupState (4 * (2 * h + i)) 2 != 3)
  else decide (3 ≤ s.rdF .carArrayState 2 3) && !s.rdB .strStatus 5

/-- The half a run of `n` sectors is placed in: the owning hub's when it has room, else the other (R272); none without physical room. `shut`: a half that the run leaves (R283, R284). -/
def State.roomHalf (s : State) (t h n : Nat) (shut : Option Nat := none) : Option Nat :=
  let ok (x : Nat) : Bool := s.halfOpen t x && shut != some x && decide (s.halfUsed t x + n ≤ s.halfCap t)
  if t = 2 then (if ok 0 then some 0 else none) else
  if ok h then some h else if ok (1 - h) then some (1 - h) else none

/-- Sectors in use in one PASR segment of a hub's tier 1 half (by the run's first sector). -/
def State.segUsed (s : State) (h g : Nat) : Nat :=
  s.tier.frames.foldl (fun a e => if e.2.home = 1 ∧ !e.2.reloc ∧ e.2.hasRun ∧ halfOf 1 e.2.base = h ∧ pasrSeg e.2.base = g then a + s.runLen e.2 else a) 0

/-- Sectors of one PASR segment of a hub's half; segment 7 also holds the hub's half of the frame map (R289). -/
def segCap (g : Nat) : Nat := if g = 7 then 14 * 2 ^ 28 - 2 ^ 30 else 14 * 2 ^ 28

/-- PASR segments in the order the tier 1 allocator takes them (R290): retained in Eclipse, then in Night, then the others. -/
def State.segOrder (s : State) : List Nat :=
  let n := s.rdF .lpcPasr 0 8
  let e := s.rdF .lpcPasr 8 8
  let has (m g : Nat) : Bool := m / 2 ^ g % 2 == 1
  ((List.range 8).filter (has e)) ++ ((List.range 8).filter (fun g => has n g && !has e g)) ++ ((List.range 8).filter (fun g => !has n g && !has e g))

/-- Sectors of a tier that hold something: first sector and length of home runs, replicas, destinations of moves and abandoned runs. -/
def State.taken (s : State) (t : Nat) : List (Nat × Nat) :=
  s.tier.frames.flatMap (fun e =>
      (if (if e.2.reloc then 0 else e.2.home) = t ∧ e.2.hasRun then [(e.2.base, s.runLen e.2)] else [])
        ++ (if e.2.repl = some t then [(e.2.replBase, s.freshLen e.2 t)] else []))
    ++ s.tier.moves.filterMap (fun m => if m.running ∧ m.destTier = t then some (m.destBase, m.destAllot.foldl (· + ·) 0 + tailSectors (s.strength t)) else none)
    ++ s.tier.abandoned.filterMap (fun x => if x.1 = t then some x.2 else none)
/-- What keeps a run of n sectors from lying at b, by the sector after it: another run, or a withheld sector (R340). -/
def State.runBar (s : State) (t b n : Nat) : Option Nat :=
  match (s.taken t).find? (fun x => decide (x.1 < b + n ∧ b < x.1 + x.2)) with
  | some x => some (x.1 + x.2)
  | none =>
    if t = 2 ∨ s.dram.withheld.isEmpty then none else
    ((List.range n).find? (fun i => let x := s.place t (b + i); s.dram.withheld.contains (x.chan, x.sector))).map (fun i => b + i + 1)
/-- The first place from offset b of an area on where a run of n sectors is clear; the search starts over at its end. -/
def State.clearFrom (s : State) (t lo size n : Nat) : Nat → Nat → Nat
  | 0, b => b
  | m + 1, b => match s.runBar t (lo + b) n with
    | none => b
    | some x => s.clearFrom t lo size n m (if x - lo + n ≤ size then x - lo else 0)

/-- The sector address given to a new run: its half and, in tier 1, its segment follow the rules; where in it the run lies, clear of all others and of withheld sectors (R340), is a free value (log 21). -/
def State.newBase (s : State) (t half n : Nat) : Nat × State :=
  let (v, s) := s.nextFree
  let (lo, size) :=
    if t = 0 then (half * 2 ^ 32, 2 ^ 32)
    else if t = 1 then
      let g := ((s.segOrder).find? (fun g => decide (s.segUsed half g + n ≤ segCap g))).getD 7
      (half * 2 ^ 35 + g * (14 * 2 ^ 28), segCap g)
    else (0, 2 ^ 40)
  (lo + s.clearFrom t lo size n (2 * ((s.taken t).length + s.dram.withheld.length) + 1) (v % (size - n)), s)

end Sys2Proof.Machine
end

