-- ==== Sys2Proof/Machine/Ftl.lean ====
section
/-! DEFINITION. The flash translation layer: NAND pages, stripes, operations in progress on a LUN, keys (09 R297 to R324). -/

namespace Sys2Proof.Machine

/-! Bays and stripes (R297, R300, R303, R308). A LUN is numbered 16 × controller + LUN, so that its bay is the number divided by 128. -/

/-- STATE of a bay (R308). -/
def State.bayState (s : State) (b : Nat) : Nat := s.rdF .carBSlotStatus 4 3 b
/-- Bays whose carriers are writable (R303). -/
def State.writeBays (s : State) : List Nat := (List.range 4).filter (fun b => s.bayState b == 3 || s.bayState b == 7)
/-- Writable carriers (R303). -/
def State.writable (s : State) : Nat := s.writeBays.length
/-- A carrier holds a member of a stripe. -/
def Stripe.has (t : Stripe) (b : Nat) : Bool := t.members.any (fun m => m / 128 == b) && !t.gone.contains b
/-- NAND pages that hold a frame's run; what a frame that has left tier 2 held there is stale. -/
def FrameSt.onFlash (e : FrameSt) : List NandPage := if e.home == 2 && !e.reloc && e.hasRun then e.nand else []
/-- The NAND pages with stored data: partition, frame, part of the run, page. A durable partition's journal keeps its frames' (R97). -/
def State.nandPages (s : State) : List (Nat × Nat × Nat × NandPage) :=
  let pages (p f : Nat) (e : FrameSt) : List (Nat × Nat × Nat × NandPage) := e.onFlash.zipIdx.map (fun x => (p, f, x.2, x.1))
  s.tier.frames.flatMap (fun e => pages (e.1 / 2 ^ 31) (e.1 % 2 ^ 31) e.2)
    ++ s.flash.journals.flatMap (fun j => match j.2 with | some j' => j'.frames.flatMap (fun e => pages j.1 e.1 e.2) | none => [])
/-- Numbers of the stripes that hold stored data and meet a test, ascending. -/
def State.stripesIn (s : State) (f : Stripe → Bool) : List Nat :=
  let live := s.nandPages.map (fun x => x.2.2.2.stripe)
  (s.flash.stripes.filter (fun x => match x.2 with | some t => f t && live.contains x.1 | none => false)).map (·.1)
/-- A stripe lacks one member (R309), or two (R310). -/
def Stripe.exposed (t : Stripe) : Bool := t.gone.length == 1
def Stripe.lost (t : Stripe) : Bool := decide (2 ≤ t.gone.length)
/-- CAR_RESTRIPE_LEFT: exposed stripes, the system area's among them (R309). -/
def State.exposedAll (s : State) : Nat := s.flash.exposed + (s.stripesIn Stripe.exposed).length
/-- Lost stripes (R310). -/
def State.lostAll (s : State) : Nat := s.flash.lost + (s.stripesIn Stripe.lost).length
/-- Live members on a carrier; CAR_B_LIVE gives them in bytes (R325). -/
def State.liveOn (s : State) (b : Nat) : Nat := (s.flash.bays.getD b {}).live + (s.stripesIn (fun t => t.has b)).length

/-! Operations on a LUN (R299, R307). How long a program or an erase takes, below its timeout, is a free value (log 22). -/

/-- A program or an erase begins on a LUN, for a free time (DESIGN CHOICE, log 22). -/
def State.nandBegin (s : State) (lun : Nat) (erase : Bool) : State :=
  let (v, s) := s.nextFree
  let busy := s.flash.busy.filter (fun b => b.left.isSome || decide (s.time < b.ends))
  let b : NandBusy := { lun := lun, erase := erase, ends := s.time + 1 + v % (if erase then 50000000 else 10000000) }
  { s with flash := { s.flash with busy := busy ++ [b] } }
/-- Operations in progress on a LUN stop for a read (R299). -/
def State.nandSuspend (s : State) (lun : Nat) : State :=
  { s with flash := { s.flash with busy := mapIf (fun (b : NandBusy) => b.lun == lun && b.left.isNone && decide (s.time < b.ends)) (fun b => { b with left := some (b.ends - s.time) }) s.flash.busy } }
/-- Suspended operations resume on the LUNs that no read waits for (R299), and, with `lun`, on one whose suspend failed (R307). -/
def State.nandResume (s : State) (lun : Option Nat := none) : State :=
  let go (b : NandBusy) : Bool := b.left.isSome && (lun == some b.lun || s.flash.reads.all (fun r => r.lun != b.lun))
  { s with flash := { s.flash with busy := mapIf go (fun b => { b with ends := s.time + b.left.getD 0, left := none }) s.flash.busy } }

/-! Programming (R300, R306, R309, R321 to R323). -/

/-- Program one stripe, whose data members take parts of runs: (partition, frame, part). Its number is the next whose parity falls on a writable bay; the LUNs are a free value (log 22). -/
def State.programStripe (s : State) (units : List (Nat × Nat × Nat)) : State :=
  let bays := s.writeBays
  let n := s.flash.nextStripe
  let i := (((List.range 4).map (fun k => n + k)).find? (fun i => bays.contains (i % 4))).getD n
  let (v, s) := s.nextFree
  let members := (bays.filter (fun b => b != i % 4) ++ [i % 4]).mapIdx (fun k b => 128 * b + v / 128 ^ k % 128)
  let s := { s with flash := { s.flash with nextStripe := i + 1, stripes := Store.set none i (some { members := members }) s.flash.stripes } }
  let s := members.foldl (fun (s : State) m => s.nandBegin m false) s
  units.zipIdx.foldl (fun (s : State) x =>
    let e := s.frame x.1.1 x.1.2.1
    s.setFrame x.1.1 x.1.2.1 { e with nand := e.nand.set x.1.2.2 ⟨i, x.2, s.rdF .carPKey 0 1 x.1.1⟩ }) s
/-- Program parts of runs, stripe by stripe: 3+1 with four writable carriers, 2+1 with three (R300). -/
def State.program (s : State) (units : List (Nat × Nat × Nat)) : Nat → State
  | 0 => s
  | n + 1 =>
    if units.isEmpty || decide (s.writable < 3) then s else
    (s.programStripe (units.take (s.writable - 1))).program (units.drop (s.writable - 1)) n
/-- Parts of runs in the stripes of a list. -/
def State.partsIn (s : State) (l : List Nat) : List (Nat × Nat × Nat) := (s.nandPages.filter (fun x => l.contains x.2.2.2.stripe)).map (fun x => (x.1, x.2.1, x.2.2.1))
/-- Rewrite stripes elsewhere (R309, R312, R314, R316). -/
def State.rewriteStripes (s : State) (l : List Nat) : State := let u := s.partsIn l; s.program u u.length

/-- A key of a partition is erased once no page uses its slot and another is active (R323). -/
def State.keySweep (s : State) (p : Nat) : State :=
  let old := 1 - s.rdF .carPKey 0 1 p
  if s.nandPages.any (fun x => x.1 == p && x.2.2.2.slot == old) || (Store.get none p s.flash.journals).any (fun j => j.slot == old) then s
  else { s with flash := { s.flash with keys := Store.set none (2 * p + old) none s.flash.keys } }
/-- OLD_IN_USE of CAR_P_KEY (R326). -/
def State.oldInUse (s : State) (p : Nat) : Bool := s.nandPages.any (fun x => x.1 == p && x.2.2.2.slot != s.rdF .carPKey 0 1 p)
/-- Pages of a partition that the other slot encrypted are rewritten under the active key (R323). -/
def State.rekey (s : State) (p n : Nat) : State :=
  let u := ((s.nandPages.filter (fun x => x.1 == p && x.2.2.2.slot != s.rdF .carPKey 0 1 p)).take n).map (fun x => (x.1, x.2.1, x.2.2.1))
  (s.program u u.length).keySweep p
/-- A key pair from the CTR_DRBG, K1 ≠ K2 (R323): what the generator gives is a free value. -/
def State.freshKey (s : State) : XtsKey × State :=
  let a := Config.drbg s.free
  let b := Config.drbg (s.free + 1)
  (⟨a, if a = b then ~~~a else b⟩, { s with free := s.free + 2 })

/-- The NAND page that holds a sector of a frame's run: part (n - base) / 256 of it (DESIGN CHOICE, log 22). -/
def FrameSt.nandAt (e : FrameSt) (n : Nat) : Option NandPage := e.nand[(n - e.base) / 256]?
/-- Sectors of a run are written: the FTL programs the parts that hold them, all parts of a run laid out afresh (R300, R306). -/
def State.programRun (s : State) (p f : Nat) (sectors : List Nat) : State :=
  let e := s.frame p f
  if !(e.home == 2 && !e.reloc && e.hasRun) then s else
  let n := (s.runLen e + 255) / 256
  let parts := if e.nand.length = n then (sectors.map (fun x => (x - e.base) / 256)).eraseDups.filter (· < n) else List.range n
  let s := s.setFrame p f { e with nand := (List.range n).map (fun j => e.nand.getD j ⟨0, 0, 0⟩) }
  (s.program (parts.map (fun j => (p, f, j))) parts.length).keySweep p

/-- The LUN of a NAND page. -/
def State.lunOf (s : State) (x : NandPage) : Nat :=
  match Store.get none x.stripe s.flash.stripes with | some t => t.members.getD x.member 0 | none => 0

/-! Losing members (R309, R310, R319). -/

/-- Every stripe loses its member on a carrier; what ran there ends. -/
def State.loseMembers (s : State) (b : Nat) : State :=
  let t := Store.mapVals none (fun _ (o : Option Stripe) => o.map (fun t => if t.has b then { t with gone := t.gone ++ [b] } else t)) s.flash.stripes
  { s with flash := { s.flash with stripes := t, busy := s.flash.busy.filter (fun x => x.lun / 128 != b), reads := s.flash.reads.filter (fun x => x.lun / 128 != b) } }
/-- The reconstructed members of exposed stripes go onto a replacement carrier (R312). -/
def State.rebuildMembers (s : State) (b : Nat) (l : List Nat) : State :=
  l.foldl (fun (s : State) i => match Store.get none i s.flash.stripes with
    | none => s
    | some t =>
      let (v, s) := s.nextFree
      let lun := 128 * b + v % 128
      let t' : Stripe := { members := t.members.map (fun m => if t.gone.contains (m / 128) then lun else m) }
      ({ s with flash := { s.flash with stripes := Store.set none i (some t') s.flash.stripes } } : State).nandBegin lun false) s

/-! Flash reads (R259, R299, R307). -/

/-- A read of a page's sectors goes to flash: an operation in progress on a LUN that holds them is suspended (R299). -/
def State.flashRead (s : State) (p page : Nat) (sectors : List Nat) : State :=
  if s.flash.reads.any (fun r => r.part == p && r.page == page) then s else
  let e := s.frame p (page / 16)
  let luns := ((sectors.filterMap (fun n => e.nandAt n)).map (fun x => s.lunOf x)).eraseDups
  luns.foldl (fun (s : State) l => ({ s with flash := { s.flash with reads := s.flash.reads ++ [⟨l, p, page, 0⟩] } } : State).nandSuspend l) s
/-- Flash reads are done: what they suspended resumes (R299). -/
def State.flashReadEnd (s : State) (f : NandRead → Bool) : State :=
  ({ s with flash := { s.flash with reads := s.flash.reads.filter (fun r => !f r) } } : State).nandResume
/-- A LUN's read has failed twice: its pages are reconstructed (R307). -/
def State.readGaveUp (s : State) (lun : Nat) : Bool := s.flash.reads.any (fun r => r.lun == lun && decide (2 ≤ r.tries))

/-- The flash translation processors of a frame's hub are down, so that flash reads wait (R591; log 84); `none`: any of the four, so that FTL work waits. -/
def State.ftlDown (s : State) (hub : Option Nat) : Bool :=
  (hub != some 1 && (s.fpDown 3 || s.fpDown 4)) || (hub != some 0 && (s.fpDown 7 || s.fpDown 8))

end Sys2Proof.Machine
end

