-- ==== Sys2Proof/Machine/Ship.lean ====
section
/-! DEFINITION. What a primary ships on the Reflect link, and the poison list whose changes it ships (R343, R528, R540). -/

namespace Sys2Proof.Machine

/-- Role of a partition: 0 none, 1 primary, 2 secondary (R543). -/
def State.mirRole (s : State) (p : Nat) : Nat := s.rdF .mirPState 0 2 p
/-- State code of a partition's mirroring (R543). -/
def State.mirState (s : State) (p : Nat) : Nat := s.rdF .mirPState 4 4 p
/-- Synchronous mirroring is in force: what R534 names waits for its epoch's acknowledgement. -/
def State.mirSync (s : State) (p : Nat) : Bool := s.mirRole p == 1 && s.mirState p == 3 && s.rdF .mirPState 8 1 p == 0
/-- A change to a frame ships live: MIRRORED, or below the rebuild pointer (R528, R540). -/
def State.shipsFrame (s : State) (p f : Nat) : Bool :=
  s.mirRole p == 1 && (s.mirState p == 3 || (s.mirState p == 2 && (match (s.mirPart p).rebuildPtr with | none => false | some x => decide (f < x))))
/-- A change to a sync object or a queue ships live (R528, R540). -/
def State.shipsLive (s : State) (p : Nat) : Bool := s.mirRole p == 1 && (s.mirState p == 3 || s.mirState p == 2)

/-- Put a record into the open epoch of a sub-stream (R531). -/
def State.shipRec (s : State) (p h : Nat) (r : MirRec) : State :=
  let m := s.mirPart p
  let rs := m.openRecs.getD h []
  s.setMirPart p { m with openRecs := m.openRecs.set h (rs ++ [r]), openAt := if rs.isEmpty then m.openAt.set h s.time else m.openAt }

/-- The epoch number that the open records of a sub-stream will carry (R531). -/
def State.openEpoch (s : State) (p h : Nat) : Nat := (s.mirPart p).sent.getD h 0 + 1

/-- Ship a record about a frame (R528). -/
def State.shipFrame (s : State) (p f : Nat) (r : MirRec) : State := if s.shipsFrame p f then s.shipRec p (hubOf f) r else s

/-- The content of a page as committed. -/
def State.poolPage (s : State) (p page : Nat) : Page := BitVec.ofNat 32768 (s.pool.readN (p * 2 ^ 47 + page * 4096) 4096)
/-- Store the content of a page. -/
def State.setPoolPage (s : State) (p page : Nat) (v : Page) : State :=
  { s with pool := s.pool.writeN (p * 2 ^ 47 + page * 4096) 4096 v.toNat }

/-- Ship a MAP record (R528). -/
def State.shipMap (s : State) (p f : Nat) (pin : Nat) (lost : List Nat) (add del : List (Nat × Nat)) (clear : Bool) : State :=
  s.shipFrame p f (.map f pin lost add del clear)

/-- Add a poison-list entry, at most 512 and never twice (R343). -/
def State.addPoison (s : State) (p addr len : Nat) : State :=
  let d := s.part p
  if s.rdB .eccPoisonOvf p || d.poison.any (fun e => e.addr == addr && e.len == len) then s
  else if 512 ≤ d.poison.length then s.setB .eccPoisonOvf p
  else (s.setPart p { d with poison := d.poison ++ [⟨addr, len⟩] }).shipMap p (addr / 65536) (s.frame p (addr / 65536)).pin [] [(addr, len)] [] false

/-- Remove the poison-list entries that meet a test; an emptied list ends its overflow (R343). -/
def State.dropPoison (s : State) (p : Nat) (f : PoisonEnt → Bool) : State :=
  let d := s.part p
  let del := d.poison.filter f
  if del.isEmpty then s else
  let l := d.poison.filter (fun e => !f e)
  let s := s.setPart p { d with poison := l }
  let s := if l.isEmpty then s.clrB .eccPoisonOvf p else s
  del.foldl (fun s e => s.shipMap p (e.addr / 65536) (s.frame p (e.addr / 65536)).pin [] [] [(e.addr, e.len)] false) s

/-- A page's poison-list entry. -/
def State.addPoisonPage (s : State) (p page : Nat) : State := s.addPoison p (page * 4096) 4096

end Sys2Proof.Machine
end

