-- ==== Sys2Proof/Machine/Stored.lean ====
section
/-! DEFINITION. Stored pages: where their bytes lie, flip masks that damage them, and reading them back through the page code (10 R328 to R349, 08 R279, 09 R300). -/

namespace Sys2Proof.Machine

/-- One stored copy of a frame: tier, base sector, allotments, strength. -/
structure Copy where
  tier : Nat
  base : Nat
  allots : List Nat
  strength : Nat
  /-- In tier 2, the NAND pages that hold it, by parts of 256 sectors. -/
  nand : List NandPage := []
  deriving DecidableEq, Repr

/-- The home copy of a frame; the relocation area lies in tier 0 (R220). -/
def State.homeCopy (s : State) (f : FrameSt) : Copy :=
  ⟨if f.reloc then 0 else f.home, f.base, f.pages.map (·.allot), s.runStrength f, f.onFlash⟩
/-- The replica of a frame (R229). -/
def State.replCopy (s : State) (f : FrameSt) (t : Nat) : Copy := ⟨t, f.replBase, f.freshAllots, s.strength t, []⟩
/-- First sector of page k of a copy (R190). -/
def Copy.start (c : Copy) (k : Nat) : Nat := c.base + (c.allots.take k).foldl (· + ·) 0
/-- First sector of the tail (R190). -/
def Copy.tail (c : Copy) : Nat := c.start 16
/-- The sector that holds a byte of the covered string or PARITY of page k (R190, R192, R329). -/
def Copy.sectorOf (c : Copy) (k len off : Nat) : Nat :=
  if off < len then c.start k + off / 64 else c.tail + (k * entrySize c.strength + (off - len)) / 64
/-- Sectors that a commit of page k in place writes: its payload and the tail sectors of its entry (R191). -/
def Copy.written (c : Copy) (k len : Nat) : List Nat :=
  let a := k * entrySize c.strength
  ((List.range (usedSectors len)).map (fun i => c.start k + i)) ++
    ((List.range ((a + entrySize c.strength - 1) / 64 - a / 64 + 1)).map (fun i => c.tail + a / 64 + i))

/-! Flip masks (R348, R349). -/

/-- An armed flip takes a write of this requester. -/
def flipTakes (w : Word) (req : Nat) : Bool := bit w 63 && (!bit w 54 || fld w 48 6 == req)
/-- The offset used in a unit of `n` bytes (R348). -/
def flipOffset (w : Word) (n : Nat) : Nat := (((fld w 32 14) / 4 * 4) % n) / 4 * 4
/-- The bits that differ in byte i of the word. -/
def flipByte (w : Word) (i : Nat) : Nat := (fld w 0 32 / 256 ^ i) % 256
/-- Record a flip and disarm its unit (R349, R350). -/
def State.flipDone (s : State) (n : RegName) (i kind off req : Nat) : State :=
  ((s.wrB n 63 false i).setB .eccEvent 6).wr .eccFlipLast (BitVec.ofNat 64 (kind + i * 4 + off * 256 + req * 2 ^ 22 + s.us32 * 2 ^ 32))

/-- A hub Lens unit's flip corrupts the covered bytes of the commit it encodes, dropping bytes past their end. -/
def State.flipLens (s : State) (unit req len : Nat) : State × List ErrByte :=
  let w := s.rd .lnsUFlipMask unit
  if unit < 16 && flipTakes w req then
    let n := len + 16
    let o := flipOffset w n
    (s.flipDone .lnsUFlipMask unit 0 o req, (List.range 4).filterMap (fun i =>
      if o + i < n ∧ flipByte w i ≠ 0 then some ⟨o + i, flipByte w i, false⟩ else none))
  else (s, [])

/-- Which page's byte a byte of a sector of a copy is: (page, offset in covered bytes and PARITY); none where no page uses it. -/
def Copy.byteAt (c : Copy) (lens : List Nat) (sector b : Nat) : Option (Nat × Nat) :=
  if c.tail ≤ sector then
    let o := (sector - c.tail) * 64 + b
    let k := o / entrySize c.strength
    let e := o % entrySize c.strength
    if k < 16 ∧ 0 < c.allots.getD k 0 ∧ e < 16 + c.strength * 10 / 8 then some (k, lens.getD k 0 + e) else none
  else
    match (List.range 16).find? (fun k => decide (c.start k ≤ sector ∧ sector < c.start k + c.allots.getD k 0)) with
    | none => none
    | some k =>
      let o := (sector - c.start k) * 64 + b
      if o < lens.getD k 0 then some (k, o) else none

/-- The damage that one flipped word at byte `o` of a sector makes. -/
def wordDamage (c : Copy) (lens : List Nat) (sector o : Nat) (w : Word) : List (Nat × ErrByte) :=
  (List.range 4).filterMap (fun i =>
    match c.byteAt lens sector (o + i) with
    | some (k, off) => if flipByte w i ≠ 0 then some (k, ⟨off, flipByte w i, true⟩) else none
    | none => none)

/-- The NAND page that holds a sector of a copy. -/
def Copy.nandAt (c : Copy) (n : Nat) : Option NandPage := c.nand[(n - c.base) / 256]?

/-- What a flipped word of a NAND page does to the plain bytes of a sector: its block of 16 bytes decrypts otherwise (R321, R349). `text`: the bytes of the sector as they were encrypted. -/
def State.nandDamage (s : State) (p : Nat) (c : Copy) (lens : List Nat) (n o : Nat) (w : Word) (text : List Nat) : List (Nat × ErrByte) :=
  match (c.nandAt n).bind (fun x => Store.get none (2 * p + x.slot) s.flash.keys) with
  | none => wordDamage c lens n o w
  | some k =>
    let j := o / 16
    let flip := (List.range 16).map (fun i => if o % 16 ≤ i ∧ i < o % 16 + 4 then flipByte w (i - o % 16) else 0)
    let m := xtsDamage k n j ((text.drop (16 * j)).take 16) flip
    (List.range 16).filterMap (fun i => match c.byteAt lens n (16 * j + i) with
      | some (k, off) => if m.getD i 0 ≠ 0 then some (k, ⟨off, m.getD i 0, true⟩) else none
      | none => none)

/-- The bytes of a sector of a copy before encryption: those of a codec 0 page as stored, others from a free number, the Lens's bitstreams being internal (log 10, log 83). -/
def State.sectorText (s : State) (p f : Nat) (e : FrameSt) (c : Copy) (n free : Nat) : List Nat :=
  let lens := e.pages.map (·.len)
  (List.range 64).map (fun b => match c.byteAt lens n b with
    | some (k, off) => if (e.page k).codec = 0 ∧ off < 4096 then (s.poolPage p (16 * f + k)).toNat / 256 ^ off % 256 else free / 256 ^ b % 256
    | none => 0)

/-- Flash controllers' flips corrupt the NAND pages that a write of a run programs, data members and parity: each armed unit takes the first (R349). A flip of a parity page leaves the data as it is. -/
def State.flipNand (s : State) (p f : Nat) (e : FrameSt) (c : Copy) (req : Nat) (sectors : List Nat) : State × List (Nat × ErrByte) :=
  let lens := e.pages.map (·.len)
  let parts := (sectors.map (fun n => (n - c.base) / 256)).eraseDups
  let data := parts.filterMap (fun j => (c.nand[j]?).map (fun x => (some j, s.lunOf x)))
  let stripes := (parts.filterMap (fun j => (c.nand[j]?).map (·.stripe))).eraseDups
  let par : List (Option Nat × Nat) := stripes.filterMap (fun i => match Store.get none i s.flash.stripes with | some t => (t.members.getLast?).map (fun m => (none, m)) | none => none)
  (data ++ par).foldl (fun acc x =>
    let s := acc.1
    let fc := x.2 / 16
    let w := s.rd .flcCFlipMask fc
    if !flipTakes w req then acc else
    let o := flipOffset w 16384
    let (v, s) := s.nextFree
    let hit := match x.1 with
      | some j => let n := c.base + 256 * j + o / 64; s.nandDamage p c lens n (o % 64) w (s.sectorText p f e c n v)
      | none => []
    (s.flipDone .flcCFlipMask fc 3 o req, acc.2 ++ hit)) (s, [])

/-- Controllers' flips corrupt the sectors written to a copy in tier 0 or 1 by a requester: each armed unit takes the first such sector it writes (R349). -/
def State.flipWrites (s : State) (c : Copy) (lens : List Nat) (req : Nat) (sectors : List Nat) : State × List (Nat × ErrByte) :=
  sectors.foldl (fun acc n =>
    let s := acc.1
    if c.tier = 2 then acc else
      if c.tier = 1 ∧ (s.servedBy (pos1 n).2.2 (pos1 n).1).isNone then acc else
      let x := s.place c.tier n
      let (nm, i, kind) := if 64 ≤ x.chan then (RegName.hbcSFlipMask, (x.chan - 64) / 16, 2) else (RegName.lpcCFlipMask, x.chan, 1)
      let w := s.rd nm i
      if flipTakes w req then
        let o := flipOffset w 64
        (s.flipDone nm i kind o req, acc.2 ++ wordDamage c lens n o w)
      else acc) (s, [])

/-- Sectors of a frame's home run are written for a requester: NAND programs (R300), activations (R292), controllers' flips (R349). Answers the damage. -/
def State.storeHome (s : State) (p f req : Nat) (sectors : List Nat) : State × List (Nat × ErrByte) :=
  let s := s.programRun p f sectors
  let e := s.frame p f
  let c := s.homeCopy e
  let s := (s.activateWrites req c.tier sectors).storeLines p f c.tier sectors
  if c.tier = 2 then s.flipNand p f e c req sectors else s.flipWrites c (e.pages.map (·.len)) req sectors

/-- Add damage to the pages of a home copy. -/
def FrameSt.damage (f : FrameSt) (d : List (Nat × ErrByte)) : FrameSt :=
  d.foldl (fun f x => let p := f.page x.1; f.setPage x.1 { p with errs := p.errs ++ [x.2] }) f

/-! Reading a copy (R330, R333). -/

/-- How a sector of a copy is read: 0 direct, 1 reconstructed, 2 lost. -/
def State.sectorState (s : State) (c : Copy) (n : Nat) : Nat :=
  let t := c.tier
  if t = 0 then (if s.rdF .hbcStackState (4 * (((place0 n).chan - 64) / 16)) 2 = 2 then 2 else 0)
  else if t = 1 then
    let (stripe, _, c) := pos1 n
    if s.dram.lostStripes.any (fun x => x.1 == (2 * (c / 17) + c % 17 / 8) && decide (x.2.1 ≤ stripe ∧ stripe < x.2.2)) then 2
    else if (s.servedBy c stripe).isNone then 1 else 0
  else match c.nandAt n with
    | none => 0
    | some x => match Store.get none x.stripe s.flash.stripes with
      | none => 0
      | some st => if st.lost then 2 else if st.gone.contains (s.lunOf x / 128) || s.readGaveUp (s.lunOf x) then 1 else 0

/-- What reading one stored copy of a page gives: uncorrectable, or the damage left after correction, the symbols corrected,
and the sectors that held a corrected bit with whether they were reconstructed. -/
structure CopyRead where
  ok : Bool
  left : Nat := 0
  symbols : Nat := 0
  sectors : List (Nat × Bool) := []
  /-- Sectors that a recovery step of R333 reconstructed, and every reconstruction made on the way (R279). -/
  again : List Nat := []
  recon : List Nat := []
  deriving DecidableEq, Repr

/-- The read needed a correction, by the page code or by a recovery step (R330, R333). -/
def CopyRead.fixed (r : CopyRead) : Bool := r.symbols != 0 || !r.again.isEmpty || !r.sectors.isEmpty

/-- The sectors that a write-back of the read marks as fixed, with whether each was reconstructed (R335, R338). -/
def CopyRead.rewrite (r : CopyRead) : List (Nat × Bool) := r.sectors ++ (r.again.filter (fun n => !r.sectors.any (fun x => x.1 == n))).map (fun n => (n, true))

/-- Decode with the damage that remains when the sectors meeting `gone` are reconstructed. -/
def tryDecode (c : Copy) (k len : Nat) (e : List ErrByte) (gone : Nat → Bool) : CodeResult :=
  let e := e.filter (fun x => !(x.below && gone (c.sectorOf k len x.off)))
  let m := errMasks len e
  decodePage c.strength len m.1 m.2

/-- Read page k of a copy with its damage: the plain decode, then the recovery steps of R333 where they apply. -/
def State.readCopy (s : State) (c : Copy) (k len : Nat) (e : List ErrByte) (recover : Bool) : CopyRead :=
  let all := c.written k len
  if all.any (fun n => s.sectorState c n == 2) then { ok := false } else
  let base (n : Nat) : Bool := s.sectorState c n == 1
  let lost := all.filter base
  if e.isEmpty then { ok := true, recon := lost } else
  let secs (gone : Nat → Bool) : List (Nat × Bool) := ((e.map (fun x => c.sectorOf k len x.off)).eraseDups).map (fun n => (n, gone n))
  let r := tryDecode c k len e base
  if r.ok then { ok := true, left := r.left, symbols := r.symbols, sectors := if r.symbols = 0 then [] else secs base, recon := lost } else
  if !recover then { ok := false, recon := lost } else
  -- step 1, the same sectors again, finds the same damage; steps 2 and 3 take the positions of the parity group and the members of the stripe in turn
  let tries : List (Nat → Bool) :=
    if c.tier = 1 then (List.range 8).map (fun pos n => (pos1 n).2.1 == pos)
    else if c.tier = 2 then (List.range 3).map (fun m n => (c.nandAt n).any (fun x => x.member == m))
    else []
  let made (l : List (Nat → Bool)) : List Nat := lost ++ lost ++ l.flatMap (fun g => lost ++ all.filter (fun n => g n && !base n))
  match tries.findIdx? (fun g => (tryDecode c k len e (fun n => base n || g n)).ok) with
  | none => { ok := false, recon := made tries }
  | some i =>
    let g := tries.getD i base
    let r := tryDecode c k len e (fun n => base n || g n)
    { ok := true, left := r.left, symbols := r.symbols, sectors := if r.symbols = 0 then [] else secs (fun n => base n || g n), again := all.filter (fun n => g n && !base n), recon := made (tries.take (i + 1)) }

/-- Read the stored sectors of page k of a copy for a requester: what it activates (R292) and reconstructs (R279), and what the page code makes of it. -/
def State.readStored (s : State) (req : Nat) (c : Copy) (k len : Nat) (e : List ErrByte) (recover : Bool) : State × CopyRead :=
  let r := s.readCopy c k len e recover
  let s := s.activateReads req c.tier (c.written k len)
  (if c.tier = 1 then r.recon.foldl (fun (s : State) n => s.incErr .lpcCRecon (pos1 n).2.2) s else s, r)

/-- A CODEC and PARAM that R196 allows. -/
def paramOk (codec param : Nat) : Bool :=
  decide ((codec = 0 ∧ param = 0) ∨ (codec = 2 ∧ param = 0) ∨ (codec = 3 ∧ param ≤ 2) ∨ (codec = 4 ∧ param ≤ 3) ∨ (codec = 5 ∧ param ≤ 15))

/-- A page delivered from storage: its data and poisoned lines; not `ok` is uncorrectable. `decodeErr` marks a payload that failed to decode (R202). -/
structure PageRead where
  ok : Bool
  data : Page := 0
  poison : BitVec 64 := 0
  decodeErr : Bool := false
  deriving DecidableEq, Repr

/-- A page of one 8-byte value. -/
def patternPage (v : Word) : Page := BitVec.ofNat 32768 ((2 ^ 32768 - 1) / (2 ^ 64 - 1) * v.toNat)

/-- The checks after the page code and the expansion of the payload (R330), for damage `left` that the code did not see. -/
def deliver (p : PageSt) (data : Page) (left : Nat) : PageRead :=
  if left = 0 then { ok := true, data := data, poison := p.poison } else
  let t := left / 2 ^ (8 * p.len)
  let pay := left % 2 ^ (8 * p.len)
  let cb := (p.codec + 16 * p.param) ^^^ (t / 2 ^ 64 % 256)
  let al := p.allot ^^^ (t / 2 ^ 72 % 256)
  let ln := p.len ^^^ (t / 2 ^ 80 % 65536)
  let po := p.poison ^^^ BitVec.ofNat 64 t
  if cb % 16 ≠ p.codec ∨ !paramOk (cb % 16) (cb / 16) ∨ al ≠ p.allot ∨ ln = 0 ∨ 4096 < ln ∨ (p.codec = 0 ∧ ln ≠ 4096) ∨ p.allot < usedSectors ln then { ok := false }
  else if p.codec = 0 then { ok := true, data := data ^^^ BitVec.ofNat 32768 pay, poison := po }
  else if pay = 0 ∧ cb / 16 = p.param ∧ ln = p.len then { ok := true, data := data, poison := po }
  else if Config.misDecodes p.codec data [(pay, cb * 65536 + ln)] then
    { ok := true, data := Config.misPage p.codec data [(pay, cb * 65536 + ln)], poison := po }
  else { ok := false, decodeErr := true }

end Sys2Proof.Machine
end

