-- ==== Sys2Proof/Machine/Channels.lean ====
section
/-! DEFINITION. Requests for moves (R251, R628), channels and stacks leaving service (R281 to R284), hard faults (R338 to R341). -/

namespace Sys2Proof.Machine

/-- The queued or running move of a frame. -/
def State.moveOf (s : State) (p f : Nat) (running : Bool) : Option Move :=
  s.tier.moves.find? (fun m => m.part == p && m.frame == f && m.running == running)

/-- A hint's move was dropped or declined: its descriptor remembers it (R252, R628). Key: (queue, count). -/
def State.hintDeclined (s : State) (h : Option (Nat × Nat)) : State :=
  match h with
  | none => s
  | some x => { s with tier := { s.tier with declined := if s.tier.declined.contains x then s.tier.declined else s.tier.declined ++ [x] } }

/-- Request a move. A frame keeps one queued move: the earlier class, at equal class the later request (R628). -/
def State.enqueue (s : State) (m : Move) : State :=
  match s.moveOf m.part m.frame false with
  | none => { s with tier := { s.tier with moves := s.tier.moves ++ [m] } }
  | some old =>
    if old.cls < m.cls then s.hintDeclined m.hint
    else
      let l := s.tier.moves.filter (fun x => !(x.part == m.part && x.frame == m.frame && !x.running))
      ({ s with tier := { s.tier with moves := l ++ [m] } }).hintDeclined (if old.hint = m.hint then none else old.hint)

/-- Remove the queued or running move of a frame. -/
def State.dropMove (s : State) (p f : Nat) (running : Bool) : State :=
  { s with tier := { s.tier with moves := s.tier.moves.filter (fun x => !(x.part == p && x.frame == f && x.running == running)) } }

/-- A frame's home run touches a tier 1 parity group. -/
def State.inGroup (s : State) (f : FrameSt) (g : Nat) : Bool :=
  f.home == 1 && !f.reloc && f.hasRun && (List.range (min 14 (s.runLen f))).any (fun i => let n := f.base + i; 2 * (n / 2 ^ 35) + (n % 2 ^ 35) / 7 % 2 == g)

/-- Queue moves of every frame that meets a test out of a half of a tier, at the priority of quota-excess demotions (R283, R284). -/
def State.evacuateRuns (s : State) (t half : Nat) (sel : FrameSt → Bool) : State :=
  s.tier.frames.foldl (fun s e =>
    if sel e.2 then s.enqueue { part := e.1 / 2 ^ 31, frame := e.1 % 2 ^ 31, cls := 3, kind := .retire, target := t, shut := some half } else s) s
/-- Drop a frame's replica (R230, R231). -/
def State.dropReplica (s : State) (p f : Nat) : State :=
  let e := s.frame p f
  s.setFrame p f { e with repl := none, replBase := 0, pages := e.pages.map (fun x => { x with replErrs := [] }) }

/-- Replicas in a half of a tier are made again elsewhere: they are dropped, and asked for anew at that priority (R231, R284). -/
def State.evacuateRepl (s : State) (t half : Nat) : State :=
  s.tier.frames.foldl (fun s e =>
    if e.2.repl = some t ∧ halfOf t e.2.replBase = half then
      (s.dropReplica (e.1 / 2 ^ 31) (e.1 % 2 ^ 31)).enqueue { part := e.1 / 2 ^ 31, frame := e.1 % 2 ^ 31, cls := 3, kind := .replicate, target := t, shut := some half }
    else s) s

/-- Automatic LPDDR5X rebuild is set by the SPARE record (R281, R302). -/
def State.lpAuto (s : State) : Bool :=
  match s.img.inForce with
  | none => true
  | some i => i.records.all (fun r => match r with | .spare x => !x.lpOnCommand | _ => true)

/-- A rebuild starts for a hub's degraded group: its spare takes the lost position from stripe 0 up (R281). -/
def State.rebuildStart (s : State) (h : Nat) : State :=
  let lost := (List.range 16).find? (fun i => let c := 17 * h + i; (s.rdF .lpcCState 0 3 c == 2 || s.rdF .lpcCState 0 3 c == 4) && s.rdF .lpcGroupState (4 * (2 * h + i / 8)) 2 == 1)
  match lost with
  | none => s.clrB .lpcRebuildCtrl h
  | some i =>
    if s.rdB .lpcSpare (8 * h + 6) || s.rdF .lpcCState 0 3 (17 * h + 16) == 4 || s.rdF .lpcCState 0 3 (17 * h + 16) == 2 then s.clrB .lpcRebuildCtrl h else
    let c := 17 * h + i
    let s := (s.wrF .lpcSpare (8 * h) 6 c).wrB .lpcSpare (8 * h + 6) true
    let s := ((s.wrF .lpcCState 0 3 3 (17 * h + 16)).wrF .lpcCState 4 3 (s.rdF .lpcCState 4 3 c) (17 * h + 16)).wrF .lpcCState 8 2 (2 * h + i / 8) (17 * h + 16)
    let s := { s with dram := { s.dram with rebuildAt := s.dram.rebuildAt.set h s.time } }
    ((s.wr .lpcRebuildPtr 0 h).wrF .lpcGroupState (4 * (2 * h + i / 8)) 2 2).setB .lpcRebuildCtrl h

/-- A hub's group is REBUILDING. -/
def State.rebuilding (s : State) (h : Nat) : Bool := (List.range 2).any (fun i => s.rdF .lpcGroupState (4 * (2 * h + i)) 2 == 2)
/-- The rebuild of a hub's group fills the stripe under its pointer and moves up, at most at 40 GB/s (R281, R512). -/
def State.rebuildStripe (s : State) (h : Nat) : State :=
  if s.rebuilding h && decide ((s.rd .lpcRebuildPtr h).toNat < 2 ^ 31) then
    (s.background h 3 40 512).wr .lpcRebuildPtr (s.rd .lpcRebuildPtr h + 1) h else s
/-- What goes on while no command waits (log 2): 1 ns passes, and each running rebuild does one stripe. A stripe is done in one step, so no write is ever held for the one under the pointer. -/
def State.idle (s : State) : State := ((({ s with time := s.time + 1 } : State).rebuildStripe 0).rebuildStripe 1)

/-- Entries of the frame map that stand in tier 1 only, on stripes of a group that have lost two sectors, can no longer be reconstructed (R238, R280). -/
def State.mapLost (s : State) (g lo : Nat) : State :=
  s.tier.frames.foldl (fun s e =>
    let p := e.1 / 2 ^ 31
    let f := e.1 % 2 ^ 31
    if 2 * hubOf f + Config.mapChan e.1 % 16 / 8 = g ∧ lo ≤ Config.mapStripe e.1 % 2 ^ 31 ∧ !(s.tier.mapCache.any (fun c => c.2.any (fun x => x.key == e.1))) then
      s.setFrame p f { e.2 with mapBad := 2 } else s) s

/-- An LPDDR5X channel leaves service (R281, R283). `st` is its new STATE: 2 out of service, 4 failed training.
The spare that serves or fills a position counts as that position: its loss is no second one (DEDUCED, log 89). -/
def State.channelOut (s : State) (c st : Nat) : State :=
  if s.rdF .lpcCState 0 3 c == 2 || s.rdF .lpcCState 0 3 c == 4 then s else
  let h := c / 17
  if c % 17 = 16 && !s.rdB .lpcSpare (8 * h + 6) then s.wrF .lpcCState 0 3 st c else
  let g := s.rdF .lpcCState 8 2 c
  let gs := s.rdF .lpcGroupState (4 * g) 2
  let s := s.wrF .lpcCState 0 3 st c
  let s := s.event { reg := .lpcEvent, bit := 0, addr := c, value := g }
  if c % 17 = 16 ∧ gs = 2 then
    -- the rebuild target fails: the position is lost as before, with no spare left
    ((s.wrF .lpcGroupState (4 * g) 2 1).clrB .lpcRebuildCtrl h).evacuateRuns 1 h (fun f => s.inGroup f g)
  else if gs = 1 ∨ gs = 2 ∨ gs = 3 then
    -- a second lost position (R283): stripes at and above the rebuild pointer lose two sectors
    let lo := if gs = 2 then (s.rd .lpcRebuildPtr h).toNat else 0
    let s := { s with dram := { s.dram with lostStripes := s.dram.lostStripes ++ [(g, lo, 2 ^ 31)] } }
    let s := ((s.wrF .lpcGroupState (4 * g) 2 3).clrB .lpcRebuildCtrl h).mapLost g lo
    (s.event { reg := .lpcEvent, bit := 2, addr := g }).evacuateRuns 1 h (fun f => s.inGroup f g)
  else
    let s := s.wrF .lpcGroupState (4 * g) 2 1
    if s.rdB .lpcSpare (8 * h + 6) then s.evacuateRuns 1 h (fun f => s.inGroup f g)
    else if s.lpAuto then s.rebuildStart h else s

/-- The hub loses its frame-map cache (R284): of the entries that stood in the failed stack, one that tier 1 holds as it was can still be read there, one that was changed since cannot. -/
def State.cacheLost (s : State) (h k : Nat) : State :=
  let lines := s.tier.mapCache.flatMap (fun c => if c.1 / 2 ^ 23 = h then c.2 else [])
  let s := lines.foldl (fun (s : State) x =>
    let p := x.key / 2 ^ 31
    let f := x.key % 2 ^ 31
    if Config.mapStack x.key % 4 ≠ k % 4 then s else s.setFrame p f { s.frame p f with mapBad := if s.frame p f = x.stored then 1 else 2 }) s
  { s with tier := { s.tier with mapCache := s.tier.mapCache.filter (fun c => c.1 / 2 ^ 23 != h) } }

/-- An HBM4 stack becomes DEGRADED (1) or FAILED (2) (R284). A FAILED hub's open merge slots stand in the other hub's relocation area from then on. -/
def State.stackDown (s : State) (k st : Nat) : State :=
  if st ≤ s.rdF .hbcStackState (4 * k) 2 then s else
  let h := k / 4
  let s := s.wrF .hbcStackState (4 * k) 2 st
  let s := s.event { reg := .hbcEvent, bit := if st = 2 then 2 else 0, addr := k }
  let s := if st = 2 then s.cacheLost h k else s
  (s.evacuateRuns 0 h (fun f => f.home == 0 && !f.reloc && f.hasRun && f.base / 2 ^ 32 == h)).evacuateRepl 0 h

/-- The sweep of one side of a lane: delay and eye width of the longest run of passing taps, out of 128 (R285). Where the run lies and how long it is are free values (DESIGN CHOICE, log 81); `weak`: it is shorter than 12 taps. -/
def sweepSide (v lane : Nat) (write weak : Bool) : Nat × Nat :=
  let (first, n) := Config.laneSweep v lane write
  let len := if weak then 1 + n % 11 else 12 + n % 117
  let first := first % (129 - len)
  ((first + (first + len - 1)) / 2, len)

/-- The saved results of a controller's sweep (R286): lanes, hottest device, and the CRC-32C of their fields, whose layout is the model's (DESIGN CHOICE, log 81). -/
def trainSave (lanes : List LaneSt) (temp : Nat) : TrainSave :=
  ⟨lanes, temp, crc32c ((lanes.flatMap (fun l => [l.readDelay, l.readEye, l.writeDelay, l.writeEye]) ++ [temp]).map (fun v => BitVec.ofNat 8 v))⟩
/-- A controller's lanes are saved in the always-on SRAM, with the temperature of its devices, a free value (R286, R287; log 56). -/
def State.saveLanes (s : State) (k : Nat) : State :=
  let (t, s) := s.nextFree
  { s with dram := { s.dram with saved := Store.set none k (some (trainSave (Store.get [] k s.dram.lanes) (t % 256))) s.dram.saved, savedAt := Store.set 0 k s.time s.dram.savedAt } }

/-- A watchdog of a memory controller's crossing expires: the third within 1 s takes it out of service (R281, R284). -/
def State.ctrlExpiry (s : State) (m : MemCtrl) : State :=
  let id := match m with | .lpc c => c.val | .hbc k => 64 + k.val
  let l := (s.dram.expiries.filter (fun x => s.time < x.2 + 1000000000)) ++ [(id, s.time)]
  let s := { s with dram := { s.dram with expiries := l } }
  if 3 ≤ (l.filter (fun x => x.1 == id)).length then
    match m with
    | .lpc c => s.channelOut c.val 2
    | .hbc k => s.stackDown k.val 2
  else s

/-- A channel sector is served from the remap store (R339). -/
def State.remapped (s : State) (x : Place) : Bool := (s.remapEntry x).isSome

/-- A sector no longer holds what is written to it, and no remap entry serves it. -/
def State.stuckAt (s : State) (x : Place) : Bool := s.dram.stuck.contains (x.chan, x.sector) && !s.remapped x

/-- The read-back of a corrected sector differs (R338 to R341): remap it, else retire its frame, else mark the channel degraded.
Answers whether the sector was remapped and whether the frame was retired. -/
def State.hardFault (s : State) (p f : Nat) (x : Place) (recon : Bool) : State × Bool × Bool :=
  let s := (s.incErr .eccChHard x.chan).setB .eccEvent 1
  let used := s.rdF .eccChState 0 5 x.chan
  if used < 16 then
    let sec := x.sector
    let w := (if 64 ≤ x.chan then sec else sec % 2 ^ 26 + sec / 2 ^ 26 * 2 ^ 58) + 2 ^ 31 + (if recon then 2 ^ 32 else 0)
    let s := (s.wr .eccChRemap (BitVec.ofNat 64 w) x.chan used).wrF .eccChState 0 5 (used + 1) x.chan
    let s := { s with dram := { s.dram with remapStore := Store.set none (16 * x.chan + used) (some (fkey p f)) s.dram.remapStore } }
    (if used + 1 = 16 then s.setB .eccEvent 2 else s, true, false)
  else
    let left := s.rdF .eccChState 8 9 x.chan
    let mv : Move := { part := p, frame := f, cls := 0, kind := .retire, target := (s.frame p f).home }
    if 0 < left then
      let s := { s with dram := { s.dram with withheld := s.dram.withheld ++ [(x.chan, x.sector)] } }
      let s := s.wrF .eccChState 8 9 (left - 1) x.chan
      ((s.event { reg := .eccEvent, bit := 3, part := some p, addr := f * 65536, value := x.chan }).enqueue mv, false, true)
    else
      let s := ((s.wrB .eccChState 24 true x.chan).event { reg := .eccEvent, bit := 4, part := some p, addr := f * 65536, value := x.chan }).enqueue mv
      (if 64 ≤ x.chan then s.stackDown ((x.chan - 64) / 16) 1 else s.channelOut x.chan 2, false, false)

end Sys2Proof.Machine
end

