-- ==== Sys2Proof/Machine/Slots.lean ====
section
/-! DEFINITION. Pages as readers and writers meet them: map access, stored reads with correction, merge slots (06 R204 to R223, 07 R229 to R238, 10 R333 to R337). -/

namespace Sys2Proof.Machine

/-! Merge slots. -/

/-- The open slot of a page. -/
def State.slot (s : State) (p page : Nat) : Option SlotSt := s.lens.slots.find? (fun x => x.part == p && x.page == page)
/-- Replace the open slot of a page. -/
def State.setSlot (s : State) (v : SlotSt) : State :=
  { s with lens := { s.lens with slots := mapIf (fun x => x.part == v.part && x.page == v.page) (fun _ => v) s.lens.slots } }
/-- The slot of a page becomes FREE; a Lens unit that encoded it is idle again (R206, R225). -/
def State.freeSlot (s : State) (p page : Nat) : State :=
  let s := match s.slot p page with | some x => if x.state == SlotState.encoding then s.clrB .lnsUStatus 0 x.unit else s | none => s
  { s with lens := { s.lens with slots := s.lens.slots.filter (fun x => !(x.part == p && x.page == page)) } }
/-- Bytes of a line as a page mask. -/
def lineMask (line : Nat) (be : Nat) : PageMask := BitVec.ofNat 4096 (be * 2 ^ (64 * line))
/-- A bit of the written mask per byte, as a mask of page bits. -/
def spread : Nat → Nat → Nat
  | 0, _ => 0
  | n + 1, m => (if m % 2 = 1 then 255 else 0) + 256 * spread n (m / 2)
/-- Lines all of whose bytes the mask selects: WRITTEN of R207. -/
def fullLines (m : PageMask) : BitVec 64 :=
  BitVec.ofNat 64 ((List.range 64).foldl (fun a i => if (m.toNat / 2 ^ (64 * i)) % 2 ^ 64 = 2 ^ 64 - 1 then a + 2 ^ i else a) 0)
/-- A line of a slot can be read (R207). -/
def SlotSt.lineReady (x : SlotSt) (line : Nat) : Bool := x.filled || decide ((x.written.toNat / 2 ^ (64 * line)) % 2 ^ 64 = 2 ^ 64 - 1)
/-- A line of a page. -/
def pageLine (d : Page) (line : Nat) : Line := BitVec.ofNat 512 (d.toNat / 2 ^ (512 * line))

/-- Seal a FILLING slot (R208). -/
def State.sealSlot (s : State) (x : SlotSt) : State := s.setSlot { x with state := .sealed, sealAt := s.time }

/-- Seal the oldest FILLING slot that meets a test. -/
def State.sealOldest (s : State) (f : SlotSt → Bool) : State :=
  match s.lens.slots.find? (fun x => x.state == .filling && f x) with
  | none => s
  | some x => s.sealSlot x

/-- The partition with the most slots on a hub that has a FILLING one, ties by the round-robin pointer (R211). -/
def State.pressureVictim (s : State) (h : Nat) : Option Nat :=
  let ptr := s.lens.presPtr.getD h 0
  let cands := ((List.range 16).map (fun i => (ptr + i) % 16)).filter (fun p => s.lens.slots.any (fun x => x.hub == h && x.part == p && x.state == .filling))
  leastBy (fun p => 4096 - (s.lens.slots.filter (fun x => x.hub == h && x.part == p)).length) cands

/-- The pressure rule of R211: seal until free, SEALED and ENCODING slots together reach LNS_PRESSURE + 64. `n` bounds the repetition by the slots of a hub. -/
def State.pressure (s : State) (h : Nat) : Nat → State
  | 0 => s
  | n + 1 =>
    let busy := (s.lens.slots.filter (fun x => x.hub == h && x.state != .filling)).length
    if s.rdF .lnsPressure 0 13 + 64 ≤ s.slotsFree h + busy then s else
    match s.pressureVictim h with
    | none => s
    | some p =>
      let s := s.sealOldest (fun x => x.hub == h && x.part == p)
      let s := { s with lens := { s.lens with presPtr := s.lens.presPtr.set h ((p + 1) % 16) } }
      (s.setB .lnsEvent h).pressure h n

/-- Apply the pressure rule when a hub's free slots are below LNS_PRESSURE (R211). -/
def State.checkPressure (s : State) (h : Nat) : State :=
  if s.slotsFree h < s.rdF .lnsPressure 0 13 then s.pressure h 4096 else s

/-- Sectors a slot for a page reserves (R217). -/
def State.reservation (s : State) (p page : Nat) : Nat :=
  let f := s.frame p (page / 16)
  let g := f.page (page % 16)
  if g.codec = 0 ∧ 0 < g.allot then 0 else
  (64 - g.allot) + (if f.hasRun then 0 else max (max (tailSectors (s.strength 0)) (tailSectors (s.strength 1))) (tailSectors (s.strength 2)))

/-- The reservation test (R217). In safe mode the flash is read-only, so that nothing may come to lie there (R45): only the room that tiers 0 and 1 have counts. -/
def State.reserveOk (s : State) (p r : Nat) : Bool :=
  decide (s.occ p 0 + s.occ p 1 + s.occ p 2 + s.reserved p + 64 * r ≤ s.quotaSum p)
    && (!s.rdB .strStatus 5 || decide (s.occ p 0 + s.occ p 1 + s.reserved p + 64 * r ≤ s.quota p 0 + s.quota p 1))

/-- The merge quota of a partition on each hub (R63). -/
def State.mergeQuota (s : State) (p : Nat) : Nat := match (s.part p).cfg with | none => 0 | some r => r.mergeQuota

/-- The dirty total has reached the effective budget, which holds a durable partition's new slots (R265). -/
def State.budgetFull (s : State) : Bool := decide (s.dirtyBudget ≤ s.dirtyTotal) && (List.range 16).any (fun p => s.durable p)

/-- How a write that needs a new slot fares. -/
inductive SlotOpen where
  | opened | held | nospace
  deriving DecidableEq, Repr

/-- Whether a slot for a page can be opened now: held by quota, by a full merge buffer or by a full budget (R211, R212, R265); refused by its reservation (R218). -/
def State.canOpen (s : State) (p page : Nat) : SlotOpen :=
  let h := hubOf (page / 16)
  if s.mergeQuota p ≤ s.slotsOf p h ∨ s.slotsFree h = 0 then .held
  else if s.durable p && s.budgetFull then .held
  else if s.reserveOk p (s.reservation p page) then .opened else .nospace

/-! Held writes and their turns (R212). -/

/-- A held write can go: its page has a slot, or one can be opened (or is refused) for it. -/
def State.heldGoes (s : State) (p page : Nat) : Bool := (s.slot p page).isSome || s.canOpen p page != .held
/-- An earlier held write of the page's hub can go, so that a write that needs a new slot waits behind it (R212). `seq` is the write's place in the arrival order. -/
def State.behind (s : State) (p page seq : Nat) : Bool :=
  (s.slot p page).isNone &&
    (s.lens.heldW.any (fun w => decide (w.seq < seq) && hubOf (w.addr / 65536) == hubOf (page / 16) && s.heldGoes w.owner (w.addr / 4096))
      || s.lens.heldS.any (fun w => decide (w.seq < seq) && hubOf (w.page / 16) == hubOf (page / 16) && s.heldGoes w.part w.page))
/-- The held store of a holder for a page. -/
def State.heldStore (s : State) (who : Holder) (p page : Nat) : Option HeldStore := s.lens.heldS.find? (fun x => x.who == who && x.part == p && x.page == page)
/-- The place of a holder's store in the arrival order: its own while it is held, else the next. -/
def State.storeSeq (s : State) (who : Holder) (p page : Nat) : Nat := match s.heldStore who p page with | some x => x.seq | none => s.lens.seq
/-- A holder's store is held for nothing any more. -/
def State.storeGone (s : State) (who : Holder) : State := { s with lens := { s.lens with heldS := s.lens.heldS.filter (fun x => x.who != who) } }
/-- A store is held for a slot: it takes its place and counts, once (R212). -/
def State.storeHeld (s : State) (who : Holder) (p page : Nat) : State :=
  if (s.heldStore who p page).isSome then s else
  let s := s.storeGone who
  let h : HeldStore := { who := who, part := p, page := page, seq := s.lens.seq }
  ({ s with lens := { s.lens with heldS := s.lens.heldS ++ [h], seq := s.lens.seq + 1 } } : State).incEvt .lnsPSlotStalls p

/-- Content of a codec 1 page from the frame map (R207, R233). -/
def FrameSt.constPage (f : FrameSt) (k : Nat) : Option Page :=
  let c := (f.page k).codec
  if c = 1 then some 0 else if c = 6 then some (patternPage f.pattern) else none

/-- Open a slot for a page (R207, R217); a codec 1 page fills at once. -/
def State.openSlot (s : State) (p page req level : Nat) : State :=
  let f := s.frame p (page / 16)
  let x : SlotSt := { hub := hubOf (page / 16), part := p, page := page, ageAt := s.time, resv := s.reservation p page, req := req, level := level }
  let x := match f.constPage (page % 16) with | some d => { x with data := d, filled := true } | none => x
  let s := { s with lens := { s.lens with slots := s.lens.slots ++ [x] } }
  s.checkPressure x.hub

/-- Write bytes of a line into a slot (R114, R207, R208, R209, R214). -/
def SlotSt.write (x : SlotSt) (now line : Nat) (data : Line) (be : BitVec 64) (poison : Bool) : SlotSt :=
  let m := lineMask line be.toNat
  let bits := BitVec.ofNat 32768 (spread 64 be.toNat * 2 ^ (512 * line))
  let d := (x.data &&& ~~~bits) ||| ((BitVec.ofNat 32768 (data.toNat * 2 ^ (512 * line))) &&& bits)
  let lb : BitVec 64 := BitVec.ofNat 64 (2 ^ line)
  let po := if poison then x.poison ||| lb else if be = BitVec.allOnes 64 then x.poison &&& ~~~lb else x.poison
  let bd := if be = BitVec.allOnes 64 then x.bad &&& ~~~lb else x.bad
  let la := if x.state = .encoding ∧ x.laterAt = none then some now else x.laterAt
  let x := { x with data := d, written := x.written ||| m, fresh := x.fresh ||| lb, poison := po, bad := bd, laterAt := la }
  if x.written ≠ BitVec.allOnes 4096 then x
  else if x.state = .filling then { x with state := .sealed, sealAt := now, filled := true } else { x with filled := true }

/-- A fill arrives: every byte not yet written is filled; a poisoned line of the fill stays poisoned unless written whole (R207, R214). -/
def SlotSt.fill (x : SlotSt) (data : Page) (poison : BitVec 64) : SlotSt :=
  if x.filled then x else
  let bits := BitVec.ofNat 32768 (spread 4096 x.written.toNat)
  { x with data := (x.data &&& bits) ||| (data &&& ~~~bits), poison := x.poison ||| (poison &&& ~~~(fullLines x.written)), filled := true }

/-! The frame map as it is accessed (R236 to R238). -/

/-- An entry that is always resident in the map cache (R236). -/
def State.resident (s : State) (p f : Nat) : Bool :=
  let e := s.frame p f
  e.state == .penumbra || e.state == .replicating || e.pin == 2 || s.shadowed p f || s.lens.slots.any (fun x => x.part == p && x.page / 16 == f)

/-- DEBT against the three watermarks (R221). -/
def State.checkDebt (s : State) (p : Nat) : State :=
  let cap := s.debtCap p
  if cap = 0 then s else
  let debt := s.debt p
  (List.range 3).foldl (fun s i =>
    let w := s.rdF .lnsPWatermark (8 * i) 8 p
    let d := s.part p
    let told := d.wmTold / 2 ^ i % 2 == 1
    if !told ∧ w * cap ≤ 100 * debt then
      (s.setPart p { d with wmTold := d.wmTold + 2 ^ i }).event { reg := .lnsPEvent, bit := i, part := some p, value := debt } p
    else if told ∧ 100 * debt < (w - 5) * cap then s.setPart p { d with wmTold := d.wmTold - 2 ^ i }
    else s) s

/-- Rebuild a frame whose entry cannot be reconstructed: every page lost, the run abandoned (R238). -/
def State.rebuildEntry (s : State) (p f : Nat) : State :=
  let e := s.frame p f
  let s := if e.hasRun then { s with tier := { s.tier with abandoned := s.tier.abandoned ++ [(if e.reloc then 0 else e.home, e.base, s.runLen e)] } } else s
  let lost : PageSt := { codec := 7 }
  let s := s.setFrame p f { state := .homed, home := e.home, pages := List.replicate 16 lost, stamp := s.epoch16 }
  let s := (List.range 16).foldl (fun s k => s.addPoisonPage p (16 * f + k)) s
  let s := s.shipMap p f 0 (List.range 16) [] [] false
  (s.event { reg := .tirEvent, bit := 3, part := some p, addr := f * 65536 }).checkDebt p

/-- The key of the cache set that an entry falls into: 2^23 sets of 16 lines in the half of its hub (R27, R236). -/
def mapSetKey (p f : Nat) : Nat := hubOf f * 2 ^ 23 + Config.mapSet (fkey p f) % 2 ^ 23
/-- The hub runs without a frame-map cache: one of its stacks is FAILED (R284). -/
def State.noMapCache (s : State) (h : Nat) : Bool := (List.range 4).any (fun i => s.rdF .hbcStackState (4 * (4 * h + i)) 2 == 2)
/-- The cache holds an entry. -/
def State.mapCached (s : State) (p f : Nat) : Bool :=
  !s.noMapCache (hubOf f) && (s.resident p f || (Store.get [] (mapSetKey p f) s.tier.mapCache).any (fun x => x.key == fkey p f))
/-- A line of a set is used: its bit sets, and when every line's bit is then set the others clear (R236). -/
def useLine (l : List MapLine) (key : Nat) : List MapLine :=
  let l := l.map (fun (x : MapLine) => if x.key = key then { x with used := true } else x)
  if l.all (fun x => x.used) then l.map (fun (x : MapLine) => { x with used := x.key == key }) else l
/-- The lines of a set after an access to an entry: a line that is not recently used and not resident gives way to a new one where all sixteen are taken, and is written back (R236). -/
def State.mapLines (s : State) (p f : Nat) (l : List MapLine) : List MapLine :=
  let key := fkey p f
  let line : MapLine := ⟨key, true, s.frame p f⟩
  if l.any (fun x => x.key == key) then useLine l key
  else if l.length < 16 then useLine (l ++ [line]) key
  else
    let free := l.filter (fun x => !s.resident (x.key / 2 ^ 31) (x.key % 2 ^ 31))
    let cands := if free.any (fun x => !x.used) then free.filter (fun x => !x.used) else free
    match cands with
    | [] => l
    | y :: _ => useLine (l.filter (fun x => x.key != (cands.getD (Config.mapVictim key s.tier.mapMisses % cands.length) y).key) ++ [line]) key

/-- Read an entry through the map cache (R236 to R238): count the access, check the entry's CRC when it comes from tier 1, and keep it in the cache. What is written to an entry stands in the cache, and goes to tier 1 with a fresh CRC. -/
def State.mapAccess (s : State) (p f : Nat) : State :=
  let hit := s.mapCached p f
  let s := { s with tier := { s.tier with mapHits := s.tier.mapHits + (if hit then 1 else 0), mapMisses := s.tier.mapMisses + (if hit then 0 else 1) } }
  let e := s.frame p f
  let s := if e.mapBad = 0 then s
    else if hit then s
    else if e.mapBad = 1 then (s.setFrame p f { e with mapBad := 0 }).incErr .lpcCRecon (17 * hubOf f + Config.mapChan (fkey p f) % 16)
    else s.rebuildEntry p f
  if s.noMapCache (hubOf f) then s else
  { s with tier := { s.tier with mapCache := Store.set [] (mapSetKey p f) (s.mapLines p f (Store.get [] (mapSetKey p f) s.tier.mapCache)) s.tier.mapCache } }

/-- Touch a page: its heat rises unless the frame is ZERO (R239, R240). -/
def State.touch (s : State) (p page : Nat) : State :=
  let e := s.frame p (page / 16)
  if e.state = .zero then s else
  let e := s.aged e
  s.setFrame p (page / 16) { e with heat := heatTouch e.heat (page % 16) }

/-! Stored reads. -/

/-- A hub unit expands a page: the decode pointer moves past the chosen unit, which counts it (R223). -/
def State.hubDecode (s : State) (h : Nat) (err : Bool) : State :=
  let u := 8 * h + s.lens.decPtr.getD h 0 % 8
  let s := { s with lens := { s.lens with decPtr := s.lens.decPtr.set h ((s.lens.decPtr.getD h 0 + 1) % 8) } }
  let s := s.incEvt .lnsUOutBytes u
  if err then (s.incErr .lnsUDecodeErr u).setB .lnsEvent 3 else s

/-- Count an uncorrectable page read (R342). -/
def State.countUncorr (s : State) : State := (s.incErr .eccUncorr).setB .eccEvent 0

/-- Count a corrected read (R334). -/
def State.countCorr (s : State) (tier symbols : Nat) (sectors : List (Nat × Bool)) : State :=
  let s := (s.incEvt .eccCorrPages).incEvt .eccCorrSymbols 0 symbols
  if tier = 2 then s else sectors.foldl (fun s x => s.incErr .eccChCorr (s.place tier x.1).chan) s

/-- Write back a corrected page through a merge slot (R335, R336): an open slot takes it as its fill; else a correction slot opens; else the address is deferred. -/
def State.writeBack (s : State) (p page req : Nat) (data : Page) (poison : BitVec 64) (sectors : List (Nat × Bool)) : State :=
  let h := hubOf (page / 16)
  match s.slot p page with
  | some x => s.setSlot (x.fill data poison)
  | none =>
    if s.slotsFree h = 0 then
      if s.lens.wb.contains (h, p, page) then s
      else if 256 ≤ (s.lens.wb.filter (fun x => x.1 == h)).length then (s.incErr .eccWbDropped).setB .eccEvent 5
      else { s with lens := { s.lens with wb := s.lens.wb ++ [(h, p, page)] } }
    else
      let x : SlotSt := { hub := h, part := p, page := page, state := .sealed, data := data, filled := true, poison := poison, ageAt := s.time, sealAt := s.time,
                          req := req, level := 4, corr := true, fixed := sectors }
      let s := { s with lens := { s.lens with slots := s.lens.slots ++ [x] } }
      let s := if s.mirSync p then (List.range 64).foldl (fun s l => s.shipFrame p (page / 16)
        (.line (page * 4096 + 64 * l) (BitVec.allOnes 64) (poison.getLsbD l) (pageLine data l))) s else s
      s.checkPressure h

/-- The reference page whose stored sectors a codec 5 page needs (R200, R223). -/
def FrameSt.refOf (e : FrameSt) (k : Nat) : Option Nat :=
  let g := e.page k
  if g.codec = 5 ∧ !([1, 6, 7].contains (e.page g.param).codec) then some g.param else none

/-- A read that needed correction counts, and its page is written back where that is asked (R334, R335). -/
def State.afterRead (s : State) (req p page tier : Nat) (r : CopyRead) (q : PageRead) (wb : Bool) : State :=
  if !r.fixed || !q.ok then s else
  let s := s.countCorr tier r.symbols r.sectors
  if wb then s.writeBack p page req q.data q.poison r.rewrite else s

/-- Read a page's sectors from a copy of its frame, with the checks that follow the page code (R223, R330): the read, and what it delivers. -/
def State.readFrom (s : State) (req p page : Nat) (c : Copy) (home : Bool) : State × CopyRead × PageRead :=
  let e := s.frame p (page / 16)
  let g := e.page (page % 16)
  let (s, r) := s.readStored req c (page % 16) g.len (if home then g.errs else g.replErrs) home
  (s, r, if r.ok then deliver g (s.poolPage p page) r.left else { ok := false })

/-- A page and the reference it needs, from one copy (R223). `sound` tells that no read needed correction and every check passed; what the reference was read as shows in a delta. -/
def State.readBoth (s : State) (req p page : Nat) (c : Copy) (home wb : Bool) : State × Bool × CopyRead × PageRead :=
  let e := s.frame p (page / 16)
  let (s, r, q) := s.readFrom req p page c home
  match e.refOf (page % 16) with
  | none => (s, q.ok && !r.fixed, r, q)
  | some j =>
    let ref := page / 16 * 16 + j
    let (s, r', q') := s.readFrom req p ref c home
    let s := if home then s.afterRead req p ref c.tier r' q' wb else s
    (s, q.ok && !r.fixed && q'.ok && !r'.fixed, r, if q'.ok then { q with data := q.data ^^^ q'.data ^^^ s.poolPage p ref } else { ok := false })

/-- Read page `page` of partition p from storage for a requester: from the replica when it is sound, else from the home with the recovery of R333 (R231).
`wb`: a correction is written back. `hub`: a hub unit expands the page. -/
def State.readPage (s : State) (req p page : Nat) (wb hub : Bool) : State × PageRead :=
  let f := page / 16
  let k := page % 16
  let e := s.frame p f
  let g := e.page k
  if g.codec = 7 then (s, { ok := true, data := 0, poison := BitVec.allOnes 64 })
  else match e.constPage k with
  | some d => (s, { ok := true, data := d })
  | none =>
    let expand (s : State) (err : Bool) : State := if hub && g.codec != 0 then s.hubDecode (hubOf f) err else s
    let home (s : State) : State × PageRead :=
      let c := s.homeCopy e
      let (s, _, r, q) := s.readBoth req p page c true wb
      if !r.ok then (s, q) else
      let s := expand s q.decodeErr
      (s.afterRead req p page c.tier r q wb, q)
    match e.repl with
    | some t =>
      let (s', sound, _, q) := s.readBoth req p page (s.replCopy e t) false false
      if sound then (expand s' false, q) else home (s'.dropReplica p f)
    | none => home s

/-- A page as every reader sees it: from its slot when one is open (R210), else from storage. For a slot line not yet readable the stored page shows through unwritten bytes. -/
def State.viewPage (s : State) (req p page : Nat) : State × PageRead :=
  match s.slot p page with
  | none => s.readPage req p page true true
  | some x =>
    if x.filled then (s, { ok := true, data := x.data, poison := x.poison }) else
    let (s, r) := s.readPage req p page true true
    if !r.ok then
      -- a fill that fails its page code poisons every line of the fill and lists the page (R214)
      let y := x.fill 0 (BitVec.allOnes 64)
      ((s.setSlot y).countUncorr.addPoisonPage p page, { ok := true, data := y.data, poison := y.poison })
    else
      let y := x.fill r.data r.poison
      (s.setSlot y, { ok := true, data := y.data, poison := y.poison })

end Sys2Proof.Machine
end

