-- ==== Sys2Proof/Machine/Commit.lean ====
section
/-! DEFINITION. Committing a page: codec choice, layout, placement, spill and relocation, watermarks, the durable budget (06 R190 to R221, 07 R245, R265, 10 R335 to R349). -/

namespace Sys2Proof.Machine

/-- Insert by a measure, ascending, after equals. -/
def insertBy {α : Type} (m : α → Nat) (x : α) : List α → List α
  | [] => [x]
  | y :: t => if m x < m y then x :: y :: t else y :: insertBy m x t
/-- Sort by a measure, ascending, stable. -/
def sortBy {α : Type} (m : α → Nat) (l : List α) : List α := l.foldl (fun acc x => insertBy m x acc) []

/-- LENS policy of a page: codec and PARAM; 255 is automatic (R153, R198, R203). -/
def State.lensPolicy (s : State) (p page : Nat) : Nat × Nat :=
  if s.inWindow p (page / 16) then (0, 0) else
  match (s.part p).lens.find? (fun r => decide (r.base ≤ page * 4096 ∧ page * 4096 < r.base + r.length)) with
  | none => (255, 0)
  | some r => (r.codec, r.param)

/-- The value of a page that is 512 copies of one (R197). -/
def patternOf (d : Page) : Option Word :=
  let v := BitVec.ofNat 64 d.toNat
  if d = patternPage v then some v else none

/-- The codec 1 form a page takes at its commit: CODECS value and the frame's pattern after it (R197). -/
def FrameSt.constForm (e : FrameSt) (k : Nat) (d : Page) (poison : BitVec 64) : Option (Nat × Word) :=
  if poison ≠ 0 then none else
  match patternOf d with
  | none => none
  | some v =>
    let others := ((List.range 16).any (fun j => j != k && (e.page j).codec == 6))
    if v = 0 then some (1, if others then e.pattern else 0)
    else if !others ∨ e.pattern = v then some (6, v) else none

/-- Payload bytes of a page under a codec and PARAM (R196); the lengths of codecs 2 to 5 are the Lens's own (log 10). -/
def codedLen (c par : Nat) (d ref : Page) : Nat := if c = 0 then 4096 else max 1 (Config.payloadLen c par d ref)

/-- The codec of a page that is not codec 1 (R198): codec, PARAM, PAYLOAD_LEN, and whether codec 4 fell back. -/
def State.chooseCodec (s : State) (p page : Nat) (d : Page) : Nat × Nat × Nat × Bool :=
  let (pc, pp) := s.lensPolicy p page
  if pc = 0 then (0, 0, 4096, false) else
  let fb := pc == 4 && (pp > 3 || (parsePage pp d.toNat).isNone)
  let cands : List (Nat × Nat) :=
    if pc = 255 then [(2, 0), (3, 0), (3, 2)]
    else if fb then [(2, 0)]
    else if pc = 5 ∧ pp = page % 16 then [(2, 0)]
    else [(pc, pp)]
  let ref := s.poolPage p (page / 16 * 16 + pp)
  match leastBy (fun c => usedSectors (codedLen c.1 c.2 d ref)) cands with
  | none => (0, 0, 4096, fb)
  | some c =>
    let n := codedLen c.1 c.2 d ref
    if 56 < usedSectors n then (0, 0, 4096, fb) else (c.1, c.2, n, fb)

/-- A pin keeps a replica in a tier (R252). -/
def pinKeeps (e : FrameSt) (t : Nat) : Bool := (e.pin == 2 && t == 0) || (e.pin == 1 && t == 1 && e.home == 2)

/-- A run of n sectors of a frame of hub h, `need` bytes of which are new in the quota, has room in a tier beside the partition's replicas there. -/
def State.roomBeside (s : State) (p t h n need : Nat) (shut : Option Nat) : Bool :=
  decide (s.occ p t + s.landing p t true + s.replOcc p t + need ≤ s.roomQuota p t) && (s.roomHalf t h n shut).isSome
/-- Drop replicas of a tier, coldest first, until a home run fits the quota and the space (R230). `m` bounds the repetition. -/
def State.dropReplicas (s : State) (p t h n need : Nat) (shut : Option Nat) : Nat → State
  | 0 => s
  | m + 1 =>
    if s.roomBeside p t h n need shut then s else
    match leastBy (fun x => (s.aged x.2).hot) ((s.framesOf p).filter (fun x => x.2.repl == some t && !pinKeeps x.2 t)) with
    | none => s
    | some x => (s.dropReplica p x.1).dropReplicas p t h n need shut m
/-- Room for a home run in a tier, replicas dropped where it needs theirs (R219, R230): the state after that, and the half. -/
def State.makeRoom (s : State) (p t h n need : Nat) (shut : Option Nat) : Option (State × Nat) :=
  let s := s.dropReplicas p t h n need shut (s.framesOf p).length
  if s.occ p t + s.landing p t false + need ≤ s.roomQuota p t then (s.roomHalf t h n shut).map (fun half => (s, half)) else none

/-- Place a run of a frame in the first tier of a list whose quota and space allow it (R219, R272): the state after replicas made room, the tier and the base. -/
def State.placeRun (s : State) (p f : Nat) (e : FrameSt) : List Nat → Option (State × Nat × Nat)
  | [] => none
  | t :: rest =>
    let n := s.freshLen e t
    match s.makeRoom p t (hubOf f) n (64 * n) none with
    | some (s, half) =>
      let (b, s) := s.newBase t half n
      some (s, t, b)
    | none => s.placeRun p f e rest

/-- The order in which tiers are tried for a run (R219). -/
def tierOrder (home : Nat) : List Nat := if home = 0 then [0, 1, 2] else if home = 1 then [1, 2, 0] else [2, 1, 0]

/-- Sectors of the relocation area: 992 MiB (R220). -/
def relocCap : Nat := 992 * 2 ^ 20 / 64

/-- Automatic moves leave a frame alone (R246). -/
def State.excluded (s : State) (p f : Nat) (e : FrameSt) : Bool :=
  e.state == .penumbra || e.state == .replicating || s.lens.slots.any (fun x => x.part == p && x.page / 16 == f)
    || s.shadowed p f || e.reloc || e.noMigrate || s.inWindow p f

/-- Budget-cleaning candidates: writable frames of durable partitions, tier 1 before tier 0, coldest first, of the given pin (R265). A frame that waits for another move can be one: R628 settles which move is kept. -/
def State.cleanCands (s : State) (pin : Nat) : List (Nat × Nat) :=
  let all := (List.range 16).flatMap (fun p => if s.durable p then (s.framesOf p).map (fun x => (p, x)) else [])
  let ok := all.filter (fun x => x.2.2.hasRun && x.2.2.home != 2 && x.2.2.pin == pin && !s.frozenFrame x.1 x.2.1 && !s.excluded x.1 x.2.1 x.2.2)
  (sortBy (fun x => (if x.2.2.home = 1 then 0 else 65536) + (s.aged x.2.2).hot) ok).map (fun x => (x.1, x.2.1))

/-- Ask for the cleaning demotions of frames that have none yet (R265). -/
def State.cleanPush (s : State) (l : List (Nat × Nat)) : State :=
  l.foldl (fun s x => if s.tier.moves.any (fun m => m.cleaning && m.part == x.1 && m.frame == x.2) then s
    else s.enqueue { part := x.1, frame := x.2, cls := 3, kind := .demote, target := 2, cleaning := true }) s

/-- The durable dirty budget (R265): cleaning from 90% of the budget until the total is below 85%, full from 100%, pinned frames as a last resort. -/
def State.checkBudget (s : State) : State :=
  if !(List.range 16).any (fun p => s.durable p) then s else
  let tot := s.dirtyTotal
  let bud := s.dirtyBudget
  let starts := decide (9 * bud ≤ 10 * tot)
  if !starts && !(s.tier.cleaning && decide (85 * bud ≤ 100 * tot)) then
    { s with tier := { s.tier with cleaning := false, moves := s.tier.moves.filter (fun m => m.running || !m.cleaning) } } else
  let s := { s with tier := { s.tier with cleaning := true } }
  let s := if starts then s.setB .tirEvent 0 else s
  let s := if bud ≤ tot then s.setB .tirEvent 1 else s
  let c0 := s.cleanCands 0
  if !c0.isEmpty ∨ tot ≤ bud then s.cleanPush c0 else
  if s.tier.moves.any (fun m => m.cleaning) then s else
  let c1 := s.cleanCands 1
  s.cleanPush (if c1.isEmpty then s.cleanCands 2 else c1)

/-- A page's poison-list entries go when it is stored clean (R343): its own, and its frame's once no page of the frame is lost or poisoned. -/
def State.cleanPoison (s : State) (p page : Nat) : State :=
  let e := s.frame p (page / 16)
  let frameClean := e.pages.all (fun x => x.codec != 7 && x.poison == 0)
  s.dropPoison p (fun x => (x.addr == page * 4096 && x.len == 4096) || (frameClean && x.addr == page / 16 * 65536 && x.len == 65536))

/-- Media that no longer hold what is written damage the sectors just written (R338). -/
def State.stuckDamage (s : State) (c : Copy) (lens : List Nat) (sectors : List Nat) : List (Nat × ErrByte) :=
  if 2 ≤ c.tier then [] else
  sectors.flatMap (fun n => if s.stuckAt (s.place c.tier n) then wordDamage c lens n 0 1 else [])

/-- Write the sectors of a frame just laid out or rewritten: Lens flip, controller flips, stuck media, activations (R349). -/
def State.writeSectors (s : State) (p f k req unit : Nat) (e : FrameSt) (covered : Bool) (sectors : List Nat) : State :=
  let (s, le) := if covered then s.flipLens unit req (e.page k).len else (s, [])
  let (s, ce) := (s.setFrame p f e).storeHome p f req sectors
  let e := s.frame p f
  let sd := s.stuckDamage (s.homeCopy e) (e.pages.map (·.len)) sectors
  s.setFrame p f (((e.damage (le.map (fun x => (k, x)))).damage ce).damage sd)

/-- The tier of a frame's first home (R245). -/
def State.firstHome (s : State) (p f : Nat) (e : FrameSt) : Nat := if s.inWindow p f ∨ e.pin = 2 then 0 else 1

/-- Commit a page's content (R190 to R200, R210, R219, R220). Answers whether the commit took effect; false: no room anywhere, it waits and has changed nothing but RELOC_WAIT (R220). `given`: codec, PARAM, PAYLOAD_LEN and GEN of a page that a primary sends (R529). -/
def State.commitContent (s0 : State) (p page req unit : Nat) (d : Page) (poison : BitVec 64) (given : Option (Nat × Nat × Nat × Nat) := none) : State × Bool :=
  let s := s0
  let f := page / 16
  let k := page % 16
  let e0 := s.frame p f
  let e := if e0.state = .zero then { e0 with heat := List.replicate 16 0, stamp := s.epoch16 } else { e0 with repl := if s.frozenFrame p f then e0.repl else none }
  let old := e.page k
  let e := { e with noMigrate := if e.failPage = k then false else e.noMigrate, failPage := if e.failPage = k then 16 else e.failPage }
  let changed := old.codec == 7 || d != s.poolPage p page || poison != old.poison
  -- R198: a stored range keeps every page stored; a page that a primary sends keeps the primary's choice (R529)
  let const : Option (Nat × Word) := match given with
    | some (c, _, _, _) => if c = 1 then e.constForm k d poison else none
    | none => if (s.lensPolicy p page).1 = 0 then none else e.constForm k d poison
  let (e, s) : FrameSt × State := match const with
    | some (c, pat) => ({ (e.setPage k { codec := c, allot := old.allot }) with pattern := pat }, s)
    | none =>
      let (cc, cp, cl, fb) := match given with | some (c, a, n, _) => (c, a, n, false) | none => s.chooseCodec p page d
      let g : PageSt := { codec := cc, allot := old.allot, param := cp, len := cl, gen := match given with | some (_, _, _, n) => n | none => if changed then (old.gen + 1) % 2 ^ 32 else old.gen, poison := poison }
      let e := e.setPage k g
      ({ e with pattern := if e.pages.any (fun x => x.codec == 6) then e.pattern else 0 }, if fb then s.incEvt .lnsPFormatFallback p else s)
  -- R200: codec 5 pages that reference this one are recoded in the same commit
  let refs := if changed then (List.range 16).filter (fun j => j != k && (e.page j).codec == 5 && (e.page j).param == k) else []
  let e := refs.foldl (fun e j => let x := e.page j
    e.setPage j { x with len := min 4096 (codedLen 5 k (s.poolPage p (16 * f + j)) d), errs := [] }) e
  let s := if refs.isEmpty then s else s.incEvt .lnsRefRecodes 0 refs.length
  let s := s.setPoolPage p page d
  let st : FrameState := if e.state = FrameState.zero then FrameState.homed else e.state
  let coded := if const.isSome then refs else k :: refs
  if e.pages.all (fun (x : PageSt) => x.codec == 1 || x.codec == 6) then
    let ps : List PageSt := e.pages.map (fun (x : PageSt) => { codec := x.codec })
    let e := { e with pages := ps, base := 0, reloc := false, repl := none, replBase := 0, state := st, nand := [] }
    if e.pages.all (fun x => x.codec == 1) then (s.setFrame p f { pin := e.pin }, true)
    else (s.setFrame p f { e with home := if e0.state = FrameState.zero then s.firstHome p f e else e.home }, true)
  else if const.isSome && !e0.hasRun then (s.setFrame p f { e with state := st }, true)
  else if e0.hasRun && !(e0.home == 2 && !e0.reloc && !s.halfOpen 2 0) && coded.all (fun j => decide (0 < (e.page j).allot ∧ usedSectors (e.page j).len ≤ (e.page j).allot)) then
    let c := s.homeCopy e
    (s.writeSectors p f (coded.headD k) req unit e (!coded.isEmpty)
      ((if const.isSome then c.written k 0 else []) ++ coded.flatMap (fun j => c.written j (e.page j).len)), true)
  else
    let home := if e0.hasRun then e.home else s.firstHome p f e
    let order := if s.durable p && s.budgetFull then [2, 1, 0] else tierOrder home
    let laid (s : State) (e : FrameSt) (t b : Nat) (rel : Bool) : State :=
      let al := e.freshAllots
      let pages := (e.pages.zip al).map (fun x => { x.1 with allot := x.2, errs := x.1.errs.map (fun y => { y with below := false }) })
      let e := { e with pages := pages, base := b, home := t, reloc := rel, state := st, nand := [] }
      let c := s.homeCopy e
      let s := if e0.hasRun then s.incEvt .lnsRelocations else s
      s.writeSectors p f (coded.headD k) req unit e true ((List.range 16).flatMap (fun j => if 0 < (e.page j).allot then c.written j (e.page j).len else []))
    match s.placeRun p f e order with
    | some (s, t, b) =>
      let s := laid s e t b false
      let spilled := t == 2 && order.headD 0 != 2
      (if spilled then (s.setB .lnsPEvent 3 p).raiseGathered gkSpill p { reg := .lnsPEvent, bit := 3, part := some p, addr := page * 4096 } else s, true)
    | none =>
      let n := s.freshLen e 0
      if s.relocUsed + n ≤ relocCap then
        let (b, s) := s.newBase 0 (hubOf f) n
        (laid s e home b true, true)
      else (s0.setB .lnsEvent 2, false)

/-- What follows every commit of new content: poison list, shipping, watermarks, budget (R221, R265, R343, R528). `direct`: a whole-page write that bypassed a slot. -/
def State.afterCommit (s : State) (p page : Nat) (d : Page) (poison : BitVec 64) (direct : Bool) : State :=
  let f := page / 16
  let s := s.incEvt .lnsPagesEncoded
  let s := if poison = 0 then s.cleanPoison p page else s
  let g := (s.frame p f).page (page % 16)
  let async := s.rdF .mirPState 8 1 p == 1 || s.mirState p == 2
  let s := if direct || async then
      s.shipFrame p f (if g.codec = 1 ∨ g.codec = 6 then .zero (page * 4096) (BitVec.ofNat 64 d.toNat) else .page (page * 4096) g.codec g.param g.len g.gen poison d)
    else s
  (s.checkDebt p).checkBudget

/-- Rewrite a corrected page in place (R335): payload and tail unchanged, PARITY fresh; then the read-back of R338. -/
def State.commitCorrection (s : State) (x : SlotSt) : State :=
  let f := x.page / 16
  let k := x.page % 16
  let e := s.frame x.part f
  let g := e.page k
  if g.allot = 0 then s else
  let e := { (e.setPage k { g with errs := [] }) with noMigrate := if e.failPage = k then false else e.noMigrate, failPage := if e.failPage = k then 16 else e.failPage }
  let c := s.homeCopy e
  let s := s.writeSectors x.part f k x.req x.unit e true (c.written k g.len)
  if c.tier = 2 then s else
  -- sectors of a run that the frame has left since are not read back
  (x.fixed.filter (fun n => (c.written k g.len).contains n.1)).foldl (fun s n =>
    let pl := s.place c.tier n.1
    -- what was written below the page code differs from what is read back
    if s.stuckAt pl || ((s.frame x.part f).page k).errs.any (fun z => z.below && c.sectorOf k g.len z.off == n.1) then
      let (s, rm, _) := s.hardFault x.part f pl n.2
      if rm then
        -- the remap store serves the sector from now on (R339)
        let e := s.frame x.part f
        s.setFrame x.part f { e with pages := e.pages.mapIdx (fun j y => { y with errs := y.errs.filter (fun z => c.sectorOf j y.len z.off != n.1) }) }
      else s
    else s) s

end Sys2Proof.Machine
end

