-- ==== Sys2Proof/Machine/PowerCore.lean ====
section
/-! DEFINITION. Power-state requests: their check, the pending request, the abort of an entry by a wake event (17 R548 to R554). -/

namespace Sys2Proof.Machine

/-- The POWER record in force; the minimal image's where the image has none (R61, R82). -/
def State.powerRec (s : State) : PowerRec :=
  let d : PowerRec := ⟨1600, 3, 0, 0, 100, 256 * 2 ^ 30⟩
  match s.img.inForce with
  | none => d
  | some i => i.records.foldl (fun a r => match r with | .power x => x | _ => a) d

/-- Runs that keep a lower state refused because its mask drops their segment (R290): bytes. -/
def State.exclBytes (s : State) (mask : Nat) : Nat :=
  s.tier.frames.foldl (fun a e =>
    let home := if e.2.home = 1 ∧ !e.2.reloc ∧ e.2.hasRun ∧ mask / 2 ^ pasrSeg e.2.base % 2 = 0 then 64 * s.runLen e.2 else 0
    let repl := if e.2.repl = some 1 ∧ mask / 2 ^ pasrSeg e.2.replBase % 2 = 0 then 64 * s.freshLen e.2 1 else 0
    a + home + repl) 0

/-- Runs in tier 0, the relocation area and replicas included: bytes. -/
def State.tier0Bytes (s : State) : Nat :=
  s.tier.frames.foldl (fun a e =>
    let home := if (e.2.home = 0 ∨ e.2.reloc) ∧ e.2.hasRun then 64 * s.runLen e.2 else 0
    let repl := if e.2.repl = some 0 then 64 * s.freshLen e.2 0 else 0
    a + home + repl) 0

/-- What keeps Night and Eclipse refused with BUSY (R290, R550). -/
def State.nightBusy (s : State) : Bool := decide (0 < s.exclBytes (s.rdF .lpcPasr 0 8))
/-- What keeps Eclipse refused with BUSY beside a carrier sequence or the mirror (R290, R550). -/
def State.eclipseBusy (s : State) : Bool :=
  decide (0 < s.exclBytes (s.rdF .lpcPasr 8 8)) || decide (0 < s.tier0Bytes) || s.tier.frames.any (fun e => e.2.pin == 2)
    || s.iso.any (fun e => match e.2 with | some x => x.attr == .window | none => false) || s.shw.cur.isSome
/-- A carrier sequence runs (R320, R550): a bay STARTING, EVACUATING or REBUILDING, an open abort window, or re-striping. -/
def State.carrierBusy (s : State) : Bool :=
  (List.range 4).any (fun b => [2, 5, 7].contains (s.rdF .carBSlotStatus 4 3 b) || (s.flash.bays.getD b {}).window.isSome) || s.flash.restriping
/-- A mirrored partition is in a state other than OFF, SOLO or DETACHED (R541). -/
def State.mirrorBusy (s : State) : Bool := (List.range 16).any (fun p => !([0, 4, 8].contains (s.mirState p)))

/-- The check of R550: the refusal's status, 0 when the request passes. -/
def State.pwrCheck (s : State) (req : Nat) : Nat :=
  if s.powerRec.deepest < req then stDenied
  else if req = 2 ∧ s.nightBusy then stBusy
  else if req = 3 ∧ s.eclipseBusy then stBusy
  else if 2 ≤ req ∧ (s.carrierBusy ∨ s.mirrorBusy) then stBusy
  else 0

/-- PWR_RESULT of a request. -/
def State.pwrResult (s : State) (status req : Nat) : State := s.wr .pwrResult (BitVec.ofNat 64 (status + 256 * req))

/-- The tier manager starts moving out the runs that a refused request met (R290). -/
def State.moveOutRuns (s : State) (req : Nat) : State :=
  let mask := if req = 2 then s.rdF .lpcPasr 0 8 else s.rdF .lpcPasr 8 8
  let room := (List.range 8).any (fun g => mask / 2 ^ g % 2 == 1 && (decide (s.segUsed 0 g + 1100 ≤ segCap g) || decide (s.segUsed 1 g + 1100 ≤ segCap g)))
  s.tier.frames.foldl (fun s e =>
    let p := e.1 / 2 ^ 31
    let f := e.1 % 2 ^ 31
    if !e.2.hasRun ∨ s.inWindow p f then s
    else if e.2.home = 1 ∧ !e.2.reloc ∧ mask / 2 ^ pasrSeg e.2.base % 2 = 0 then
      s.enqueue { part := p, frame := f, cls := 3, kind := if room then .retire else .demote, target := if room then 1 else 2 }
    else if req = 3 ∧ e.2.home = 0 ∧ !e.2.reloc ∧ e.2.pin ≠ 2 then s.enqueue { part := p, frame := f, cls := 3, kind := .demote, target := 1 }
    else s) s

/-- A hand-over or its flush runs (R581). -/
def State.handover (s : State) : Bool := s.hup.flushAt.isSome
/-- Gating is in retention mode (R563). -/
def State.retention (s : State) : Bool := s.rdF .strStartState 0 4 != 6 || s.rdF .strStraps 0 2 == 3 || s.handover
/-- The module is outside normal service or an image load runs, so that a request waits (R74, R102, R549, R563). -/
def State.startupOrLoad (s : State) : Bool := s.retention || s.rdB .strStatus 0

/-- A request when no transition runs (R549): checked and refused, or its transition starts. An entry starts with its drain (STEP 0), an exit with its first step. -/
def State.pwrStart (s : State) (req : Nat) : State :=
  let cur := s.rdF .pwrState 0 2
  if req = s.rdF .pwrState 2 2 then s else
  let st := s.pwrCheck req
  if st ≠ 0 then
    let s := (s.pwrResult st req).event { reg := .pwrEvent, bit := 0, status := st, value := req }
    if st = stBusy then s.moveOutRuns req else s
  else
    let s := ((s.wrF .pwrState 2 2 req).wrB .pwrState 7 true).wrF .pwrState 8 4 (if cur < req then 0 else if cur = 1 then 4 else 1)
    { s with power := { s.power with drainAt := s.time } }

/-- A request (R549); it becomes pending too while a power-and-thermal processor is down (R591). -/
def State.pwrRequest (s : State) (req : Nat) : State :=
  if req = s.rdF .pwrState 2 2 then s
  else if s.startupOrLoad || s.rdB .pwrState 7 || s.fpBusy 2 || s.fpBusy 6 then (s.wrF .pwrState 4 2 req).wrB .pwrState 6 true
  else s.pwrStart req

/-- The end of a transition, completed, refused or aborted: a pending request is handled as a new one (R549). -/
def State.pwrEnd (s : State) : State :=
  let s := (s.wrB .pwrState 7 false).wrF .pwrState 8 4 0
  let s := s.wrF .pwrState 2 2 (s.rdF .pwrState 0 2)
  let pend := s.rdF .pwrState 4 2
  let valid := s.rdB .pwrState 6
  let s := s.wrB .pwrState 6 false
  if valid && pend != s.rdF .pwrState 0 2 then s.pwrRequest pend else s

/-- An entry runs that has not reached its commit step (R554). -/
def State.entryDraining (s : State) : Bool := s.rdB .pwrState 7 && s.rdF .pwrState 8 4 == 0 && decide (s.rdF .pwrState 0 2 < s.rdF .pwrState 2 2)

/-- A wake event before an entry's commit step aborts the entry (R554). -/
def State.wakeAbort (s : State) : State :=
  if !s.entryDraining then s else
  let req := s.rdF .pwrState 2 2
  (((s.pwrResult stBusy req).setB .pwrEvent 1)).pwrEnd

/-- A wake event for a target: it aborts an entry before its commit step, becomes the pending request after it, and starts the exit when no transition runs (R554, R559). -/
def State.wake (s : State) (target : Nat) : State :=
  if s.entryDraining then s.wakeAbort
  else if s.rdB .pwrState 7 then
    if s.rdF .pwrState 0 2 < s.rdF .pwrState 2 2 then (s.wrF .pwrState 4 2 target).wrB .pwrState 6 true else s
  else if target < s.rdF .pwrState 0 2 then s.pwrRequest target else s

/-- A wake event for a target has something to act on. -/
def State.wakes (s : State) (target : Nat) : Bool :=
  if s.rdB .pwrState 7 then decide (s.rdF .pwrState 0 2 < s.rdF .pwrState 2 2) else decide (target < s.rdF .pwrState 0 2)

/-- A wake event that PWR_WAKE_CAUSE records: bit 0 side-band, 1 in-band, 2 launch, 3 request, 4 power; LINK of an in-band wake (R559, R567). -/
def State.wakeBy (s : State) (target cause link : Nat) : State :=
  if s.wakes target then (s.wr .pwrWakeCause (BitVec.ofNat 64 (2 ^ cause + 256 * link))).wake target else s

end Sys2Proof.Machine
end

