-- ==== Sys2Proof/Machine/Moves.lean ====
section
/-! DEFINITION. Moves between tiers: what asks for them, how one starts, copies, commits and aborts (07 R228 to R258, R265, R628, R629). -/

namespace Sys2Proof.Machine

/-- The heat at which a frame of a tier is promoted (R244). -/
def State.upThresh (s : State) (t : Nat) : Nat := if t = 2 then s.rdF .tirThresh 0 8 else s.rdF .tirThresh 8 8
/-- The heat at or below which a frame of a tier is demoted (R244). -/
def State.downThresh (s : State) (t : Nat) : Nat := if t = 0 then s.rdF .tirThresh 16 8 else s.rdF .tirThresh 24 8
/-- The highest tier with a copy of the frame. -/
def FrameSt.top (e : FrameSt) : Nat := match e.repl with | none => e.home | some t => min e.home t
/-- The tier a move takes its frame from. -/
def Move.source (m : Move) (e : FrameSt) : Nat :=
  match m.kind with | .replicate => e.top | .replDown => e.repl.getD e.home | _ => e.home
/-- A move raises its frame or makes a replica. -/
def Move.up (m : Move) : Bool := m.kind == .promote || m.kind == .replicate

/-- Ask for a frame in tier t: a promotion of a writable frame, a replica of a frozen one (R229, R247, R252). -/
def State.askUp (s : State) (p f t cls : Nat) (hint : Option (Nat × Nat)) : State :=
  let e := s.frame p f
  if s.frozenFrame p f then
    if t < e.top then s.enqueue { part := p, frame := f, cls := cls, kind := .replicate, target := t, hint := hint } else s
  else if t < e.home then s.enqueue { part := p, frame := f, cls := cls, kind := .promote, target := t, hint := hint } else s

/-- End a running move without its commit: the frame stays at its source and the destination is freed (R257). -/
def State.abortMove (s : State) (p f : Nat) : State :=
  let e := s.frame p f
  let s := s.dropMove p f true
  let st : FrameState := if e.state = FrameState.penumbra ∨ e.state = FrameState.replicating then FrameState.homed else e.state
  let s := s.setFrame p f { e with state := st }
  { s with tier := { s.tier with staged := s.tier.staged.filter (fun k => k / 16 != fkey p f) } }

/-- A change of a frame's heat: it drops or aborts heat demotions and promotions that no longer qualify, and asks for the promotion or replica of R247. -/
def State.heatChanged (s : State) (p f : Nat) : State :=
  let e := s.frame p f
  if !e.hasRun then s else
  let h := e.hot
  let s := match s.moveOf p f false with
    | some m =>
      if m.heatDown && decide (s.downThresh (m.source e) < h) then s.dropMove p f false
      else if m.cls == 4 && m.up && decide (h < s.upThresh (m.source e)) then s.dropMove p f false else s
    | none => s
  let s := match s.moveOf p f true with
    | some m => if m.heatDown && decide (s.downThresh (m.source e) < h) then s.abortMove p f else s
    | none => s
  let top := if s.frozenFrame p f then e.top else e.home
  if 0 < top ∧ s.upThresh top ≤ h then s.askUp p f (top - 1) 4 none else s

/-- A request touches a page (R239, R240, R247). -/
def State.touchPage (s : State) (p page : Nat) : State :=
  if (s.frame p (page / 16)).state = .zero then s else (s.touch p page).heatChanged p (page / 16)

/-! Starting a move (R248, R251, R254, R629). -/

/-- Frames in PENUMBRA or REPLICATING on a hub (R251). -/
def State.migActive (s : State) (h : Nat) : Nat := (s.tier.moves.filter (fun m => m.running && hubOf m.frame == h)).length

/-- The lowest-heat frame that may make room in a tier (R248, R250): of partition p, homed in t, cooler than `below` where that is given. One that already makes room for another promotion is not taken twice. -/
def State.victim (s : State) (p t keep : Nat) (below : Option Nat) : Option Nat :=
  let ok := (s.framesOf p).filter (fun x => x.1 != keep && x.2.home == t && x.2.hasRun && !s.excluded p x.1 x.2
    && (x.2.pin == 0 || (x.2.pin == 1 && t == 0)) && !s.tier.moves.any (fun m => m.part == p && m.frame == x.1 && (m.running || m.cls == 1))
    && (match below with | none => true | some h => decide ((s.aged x.2).hot < h)))
  match leastBy (fun x => (s.aged x.2).hot) ok with
  | none => none
  | some c =>
    let tied := ok.filter (fun x => (s.aged x.2).hot == (s.aged c.2).hot)
    some ((leastBy (fun x => (x.1 + 2 ^ 31 - s.tier.victimPtr) % 2 ^ 31) tied).getD c).1

/-- A run of n sectors fits the partition's quota in a tier beside its replicas, and the tier's space (R229, R230, R629). -/
def State.fitsBeside (s : State) (p f t n : Nat) (shut : Option Nat := none) : Option Nat :=
  if s.occ p t + s.replOcc p t + s.landing p t true + 64 * n ≤ s.roomQuota p t then s.roomHalf t (hubOf f) n shut else none

/-- The tiers a demotion tries: its target, then lower ones, none below the pin unless budget cleaning asked (R629). -/
def Move.downTiers (m : Move) (e : FrameSt) : List Nat :=
  let limit := if m.kind = MoveKind.replDown then m.target else if m.cleaning then 2 else 2 - e.pin
  (List.range 3).filter (fun t => decide (m.target ≤ t ∧ t ≤ max limit m.target))

/-- How the destination of a move turns out; replicas that had to make room are dropped in the states given (R230, R248). -/
inductive Dest where
  | at_ (s : State) (tier half : Nat)
  | victim (s : State) (f : Nat)
  | none (s : State)
/-- No destination. -/
def Dest.isNone : Dest → Bool
  | .none _ => true
  | _ => false

/-- Find the destination of a move (R219, R248, R629). -/
def State.moveDest (s : State) (m : Move) (e : FrameSt) : Dest :=
  let p := m.part
  match m.kind with
  | .promote =>
    let n := s.freshLen e m.target
    match s.makeRoom p m.target (hubOf m.frame) n (64 * n) none with
    | some (s, h) => .at_ s m.target h
    | none =>
      let s := s.dropReplicas p m.target (hubOf m.frame) n (64 * n) none (s.framesOf p).length
      match s.victim p m.target m.frame (if m.cls = 2 then none else some e.hot) with | some v => .victim s v | none => .none s
  | .replicate =>
    -- a replica that leaves a lost half tries the tiers below its own too, as far as they lie above the home (R284)
    match ((List.range e.home).filter (fun t => decide (m.target ≤ t ∧ (t = m.target ∨ m.cls = 3)))).findSome? (fun t =>
        (s.fitsBeside p m.frame t (s.freshLen e t) (if t = m.target then m.shut else none)).map (fun h => (t, h))) with
    | some x => .at_ s x.1 x.2
    | none => .none s
  | .goHome | .retire =>
    -- the home tier, whose quota already counts the run (R220); then the fallback of R219
    let n (t : Nat) : Nat := s.freshLen e t
    match s.roomHalf e.home (hubOf m.frame) (n e.home) m.shut with
    | some h => .at_ s e.home h
    | none =>
      let s' := s.dropReplicas p e.home (hubOf m.frame) (n e.home) 0 m.shut (s.framesOf p).length
      match s'.roomHalf e.home (hubOf m.frame) (n e.home) m.shut with
      | some h => .at_ s' e.home h
      | none =>
        if m.kind = .goHome then .none s else
        match ((tierOrder e.home).filter (fun t => t != e.home)).findSome? (fun t => (s.makeRoom p t (hubOf m.frame) (n t) (64 * n t) none).map (fun x => (x, t))) with
        | some x => .at_ x.1.1 x.2 x.1.2
        | none => .none s
  | _ =>
    match (m.downTiers e).findSome? (fun t => (s.fitsBeside p m.frame t (s.freshLen e t)).map (fun h => (t, h))) with
    | some x => .at_ s x.1 x.2
    | none => .none s

/-- A queued move that cannot start yet stays in its place: its frame moves already, a RELOC frame waits for its move home (R246, R628),
room is being made for it (R248), or an excess or cleaning demotion or a retirement finds no room (R340, R629). -/
def State.moveBlocked (s : State) (m : Move) : Bool :=
  let e := s.frame m.part m.frame
  (s.moveOf m.part m.frame true).isSome
    || (e.reloc && m.cls != 1 && m.cls != 4 && !(m.cls == 3 && m.kind == .demote) && m.kind != .goHome)
    || s.tier.moves.any (fun x => x.cls == 1 && x.part == m.part && x.serves == some m.frame)
    || (e.hasRun && (m.cls == 3 || m.kind == .retire || m.kind == .goHome) && (s.moveDest m e).isNone)

/-- A promotion is declined (R248, R252). -/
def State.decline (s : State) (m : Move) : State :=
  (((s.dropMove m.part m.frame false).incEvt .tirPDeclined m.part).setB .tirPEvent 1 m.part).hintDeclined m.hint

/-- Drop the queued promotion that a room-making move served, as declined (R248, R629). -/
def State.declineServed (s : State) (m : Move) : State :=
  match m.serves with
  | none => s
  | some f => match s.moveOf m.part f false with | some x => if x.up then s.decline x else s | none => s

/-- Give a move its destination run: the frame enters PENUMBRA or REPLICATING (R254 step 1). -/
def State.launchMove (s : State) (m : Move) (e : FrameSt) (t half : Nat) : State :=
  let al := e.freshAllots
  let n := al.foldl (· + ·) 0 + tailSectors (s.strength t)
  let (b, s) := s.newBase t half n
  let m' : Move := { m with running := true, destTier := t, destBase := b, destAllot := al, startAt := s.time }
  let s := { s with tier := { s.tier with moves := s.tier.moves.map (fun (x : Move) => if x.part == m.part && x.frame == m.frame && !x.running then m' else x) } }
  let st : FrameState := if m.kind = MoveKind.replicate ∨ m.kind = MoveKind.replDown then FrameState.replicating else FrameState.penumbra
  s.setFrame m.part m.frame { e with state := st }

/-- Start one queued move, or end it where it no longer applies (R246 to R251, R628, R629). -/
def State.startMove (s : State) (m : Move) : State :=
  let s := s.mapAccess m.part m.frame
  let e := s.aged (s.frame m.part m.frame)
  let s := s.setFrame m.part m.frame e
  let p := m.part
  let f := m.frame
  let gone := s.dropMove p f false
  let auto := m.kind != .goHome && m.kind != .retire && decide (m.cls = 1 ∨ 3 ≤ m.cls)
  if !e.hasRun then gone
  else if auto && s.excluded p f e then gone.declineServed m
  else if m.kind == .demote && s.inWindow p f then gone
  else if (m.kind == .replicate || m.kind == .replDown) && !s.frozenFrame p f then gone
  else if m.kind == .replDown && e.repl.isNone then gone
  else if m.cls == 4 && m.up && (decide (e.hot < s.upThresh (m.source e)) || (m.kind == .promote && s.frozenFrame p f)) then gone
  else if m.heatDown && decide (s.downThresh (m.source e) < e.hot) then gone
  else if m.up && decide (m.source e ≤ m.target) then gone
  else if (m.kind == .demote || m.kind == .replDown) && decide (m.target ≤ m.source e) then gone
  else match s.moveDest m e with
    | .at_ s t h => s.launchMove m e t h
    | .victim s v => ({ s with tier := { s.tier with victimPtr := v + 1 } }).enqueue
        { part := p, frame := v, cls := 1, kind := .demote, target := m.target + 1, serves := some f }
    | .none s =>
      let gone := s.dropMove p f false
      if m.up then s.decline m
      else match m.kind with
        | .replDown => gone.dropReplica p f
        | _ => if m.cls = 2 then gone.hintDeclined m.hint else if m.cls = 1 then gone.declineServed m else if m.cls = 4 then gone else s

/-- The move a hub starts next: the earliest class that can start, the oldest within it (R251). -/
def State.nextMove (s : State) (h : Nat) : Option Move :=
  leastBy (fun m => m.cls) (s.tier.moves.filter (fun m => !m.running && hubOf m.frame == h && !s.moveBlocked m))

/-! Copying and committing (R195, R254, R257). -/

/-- Outcome of copying the pages of a frame: the state, the pages as they arrive, and the page that failed. -/
structure Copied where
  s : State
  pages : List PageSt
  bad : Option Nat

/-- Copy the pages of a frame from a stored copy through their page code (R195). -/
def State.copyPages (s : State) (p f : Nat) (e : FrameSt) (c : Copy) (repl : Bool) : Copied :=
  (List.range 16).foldl (fun (a : Copied) k =>
    if a.bad.isSome then a else
    let g := e.page k
    if g.codec = 1 ∨ g.codec = 6 ∨ g.codec = 7 then a else
    let errs := if repl then g.replErrs else g.errs
    let (s, r) := a.s.readStored (reqMig (hubOf f)) c k g.len errs (!repl)
    if !r.ok then { a with s := s, bad := some k } else
    let s := if r.fixed then s.countCorr c.tier r.symbols r.sectors else s
    if r.left = 0 then { a with s := s, pages := a.pages.set k { g with errs := [] } } else
    let q := deliver g (s.poolPage p (16 * f + k)) r.left
    if !q.ok then { a with s := s, bad := some k } else
    { a with s := s.setPoolPage p (16 * f + k) q.data, pages := a.pages.set k { g with errs := [], poison := q.poison } }) ⟨s, e.pages, none⟩

/-- The commit of a move (R254 step 3, R229, R266). -/
def State.commitMove (s : State) (m : Move) (e : FrameSt) (pages : List PageSt) : State :=
  let p := m.part
  let f := m.frame
  let req := reqMig (hubOf f)
  let s := s.dropMove p f true
  let s := { s with tier := { s.tier with staged := s.tier.staged.filter (fun k => k / 16 != fkey p f) } }.flashReadEnd (fun r => r.part == p && r.page / 16 == f)
  let lens := pages.map (·.len)
  match m.kind with
  | .replicate | .replDown =>
    let c : Copy := ⟨m.destTier, m.destBase, m.destAllot, s.strength m.destTier, []⟩
    let secs := (List.range 16).flatMap (fun k => if 0 < m.destAllot.getD k 0 then c.written k (lens.getD k 0) else [])
    let (s, dmg) := ((s.activateWrites req c.tier secs).storeLines p f c.tier secs).flipWrites c lens req secs
    let dmg := dmg ++ s.stuckDamage c lens secs
    let ps := e.pages.mapIdx (fun k (x : PageSt) => { x with replErrs := (dmg.filter (fun d => d.1 == k)).map (·.2) })
    let s := s.setFrame p f { e with state := .homed, repl := some m.destTier, replBase := m.destBase, pages := ps }
    s.incEvt (if m.kind = .replicate then .tirPPromotions else .tirPDemotions) p
  | _ =>
    let ps := pages.mapIdx (fun k (x : PageSt) => { x with allot := m.destAllot.getD k 0 })
    let keep := match e.repl with | some t => decide (t < m.destTier) | none => false
    let e' := { e with state := FrameState.homed, home := m.destTier, base := m.destBase, reloc := false, pages := ps, nand := [] }
    let e' := if keep then e' else { e' with repl := none, replBase := 0, pages := ps.map (fun (x : PageSt) => { x with replErrs := [] }) }
    let s := s.setFrame p f e'
    let c := s.homeCopy e'
    let secs := (List.range 16).flatMap (fun k => if 0 < m.destAllot.getD k 0 then c.written k (lens.getD k 0) else [])
    let (s, dmg) := s.storeHome p f req secs
    let dmg := dmg ++ s.stuckDamage c lens secs
    let s := s.setFrame p f ((s.frame p f).damage dmg)
    let s := if m.destTier < e.home then s.incEvt .tirPPromotions p else if e.home < m.destTier then s.incEvt .tirPDemotions p else s
    let s := if m.cleaning && e.pin != 0 then s.event { reg := .tirPEvent, bit := 2, part := some p, addr := f * 65536 } p else s
    s.checkBudget

/-- The level of a move's traffic: a demand promotion and the moves that make room for it carry the level of the held read (R501); any other is background of its frame's hub (R512, R513). -/
def State.moveLevel (s : State) (m : Move) : State :=
  let f := m.serves.getD m.frame
  match s.tier.heldR.find? (fun r => decide (m.cls ≤ 1) && r.owner == m.part && r.addr / 65536 == f) with
  | some r => s.atLevel r.level
  | none => s.background (hubOf m.frame) 0 0 (64 * s.runLen (s.frame m.part m.frame))

/-- The copy of a running move ends: it commits, or aborts on an uncorrectable page (R195, R254, R257). -/
def State.copyDone (s : State) (p f : Nat) : State :=
  match s.moveOf p f true with
  | none => s
  | some m =>
    let s := s.moveLevel m
    let e := s.frame p f
    if m.kind = .replDown then
      match e.repl with
      | none => s.abortMove p f
      | some t =>
        let r := s.copyPages p f e (s.replCopy e t) true
        if r.bad.isSome then (s.abortMove p f).dropReplica p f else r.s.commitMove m e e.pages
    else
      -- an array that takes no writes any more ends a move into it (R305, R310)
      if m.destTier = 2 ∧ !s.halfOpen 2 0 then (s.abortMove p f).declineServed m else
      let r := s.copyPages p f e (s.homeCopy e) false
      match r.bad with
      | none => r.s.commitMove m e r.pages
      | some k =>
        let s := (r.s.abortMove p f).declineServed m
        let s := s.setFrame p f { s.frame p f with noMigrate := true, failPage := k }
        let s := s.incErr .tirPMigFaults p
        s.countUncorr.event { reg := .tirPEvent, bit := 3, status := stUncorr, part := some p, addr := (16 * f + k) * 4096 } p

/-- Demote the coolest frames of a partition from tiers whose occupancy exceeds the quota (R250). `n` bounds the repetition. -/
def State.checkExcess (s : State) (p t : Nat) : Nat → State
  | 0 => s
  | n + 1 =>
    let pending := s.tier.moves.foldl (fun a m => if m.part = p ∧ !m.up ∧ m.kind = MoveKind.demote ∧ (s.frame p m.frame).home = t then a + 64 * s.runLen (s.frame p m.frame) else a) 0
    if s.occ p t ≤ s.roomQuota p t + pending then s else
    match s.victim p t (2 ^ 31) none with
    | none => s
    | some f =>
      ({ s with tier := { s.tier with victimPtr := f + 1 } }.enqueue { part := p, frame := f, cls := 3, kind := .demote, target := t + 1 }).checkExcess p t n

/-- Quota excess in both upper tiers (R250). -/
def State.excess (s : State) (p : Nat) : State :=
  let n := (s.framesOf p).length
  (s.checkExcess p 0 n).checkExcess p 1 n

/-! The sweeper (R242, R249, R252). -/

/-- What a sweeper visit asks of a frame (R249, R252). -/
def State.sweepFrame (s : State) (p f : Nat) : State :=
  let e := s.frame p f
  if !e.hasRun || (s.moveOf p f false).isSome || (s.moveOf p f true).isSome then s else
  let h := e.hot
  let fz := s.frozenFrame p f
  let want := 2 - e.pin
  let retry := decide (0 < e.pin ∧ want < (if fz then e.top else e.home))
  let s := if retry then s.askUp p f want 2 none else s
  if retry && !fz then s
  else if fz then
    match e.repl with
    | none => s
    | some t =>
      if pinKeeps e t then s
      else if t = 0 ∧ h ≤ s.downThresh 0 then
        if e.home = 2 ∧ s.downThresh 1 < h then
          s.enqueue { part := p, frame := f, cls := 4, kind := .replDown, target := 1, heatDown := true }
        else s.dropReplica p f
      else if t = 1 ∧ h ≤ s.downThresh 1 then s.dropReplica p f else s
  else if e.home = 0 ∧ h ≤ s.downThresh 0 ∧ e.pin ≠ 2 then
    s.enqueue { part := p, frame := f, cls := 4, kind := .demote, target := 1, heatDown := true }
  else if e.home = 1 ∧ h ≤ s.downThresh 1 ∧ e.pin = 0 then
    s.enqueue { part := p, frame := f, cls := 4, kind := .demote, target := 2, heatDown := true }
  else s

end Sys2Proof.Machine
end

