-- ==== Sys2Proof/Machine/Access.lean ====
section
/-! DEFINITION. How every requester reaches pool data: responses to hosts, matching, slot writes, page reads and writes (03 R96, 04 R131 to R142, 05 R148 to R182, 06 R204 to R218, 07 R259 to R262). -/

namespace Sys2Proof.Machine

/-! Responses (R112, R133, R137, R141, R142). -/

/-- STATE of a link (R145). -/
def State.linkState (s : State) (link : Nat) : Nat := s.rdF .lnkStatus 0 4 link
/-- The link carries CXL.mem flits now: L0, full or reduced width. -/
def State.linkCarries (s : State) (link : Nat) : Bool := s.linkState link == 2 || s.linkState link == 3
/-- The partition that a BAR0 access of an LD reaches: the link carries CXL, and the pair has an active binding (R117, R172). -/
def State.bar0 (s : State) (link ld : Nat) : Option Nat := if s.linkCarries link then s.bound link ld else none
/-- An access to BAR0 at an offset: on a link that is up as PCIe only it completes as Unsupported Request (R117); `f` is what it does on a link that carries CXL. -/
def State.onBar0 (s : State) (link : LinkId) (ld : LdId) (off : Nat) (f : Nat → State) : State :=
  if s.linkState link = 7 then s.send (.unsupported (.ld link ld) off) else
  match s.bar0 link ld with
  | none => s
  | some p => f p
/-- The link is down, training or disabled: a response goes to the discard sink (R137). -/
def State.linkGone (s : State) (link : Nat) : Bool := [0, 1, 8].contains (s.linkState link)

/-- Add an entry to a link's lost-response ring (R141, R142). -/
def State.lostLog (s : State) (link ld tag kind : Nat) (poison : Bool) : State :=
  let h := s.rd .lnkLostHead link
  let i := fld h 0 8
  let w := tag % 65536 + (ld % 16) * 2 ^ 16 + (kind % 8) * 2 ^ 20 + (if poison then 2 ^ 23 else 0) + (link % 256) * 2 ^ 24 + s.us32 * 2 ^ 32
  let s := s.wr .lnkLostLog (BitVec.ofNat 64 w) link i
  let s := s.setLink link { s.link link with lostAt := Store.set 0 i (s.time / 1000) (s.link link).lostAt }
  let s := s.wr .lnkLostHead (BitVec.ofNat 64 ((i + 1) % 256 + (if bit h 8 || i == 255 then 256 else 0))) link
  s.incEvt .lnkLostCount link

/-- Complete a host read (R112, R137). -/
def State.hostData (s : State) (link ld tag : Nat) (poison : Bool) (data : Line) (load : DevLoad) : State :=
  if s.linkGone link then s.lostLog link ld tag 0 poison else s.send (.cxlData link ld tag poison (if poison then 0 else data) load)
/-- Complete a host request without data; `kind` is its KIND in a lost-response entry. -/
def State.hostCmp (s : State) (link ld tag kind : Nat) (load : DevLoad) : State :=
  if s.linkGone link then s.lostLog link ld tag kind false else s.send (.cxlCmp link ld tag load)

/-! Matching (R96, R131, R132, R148 to R153). -/

/-- IDE keeps CXL.mem off on the link: required and not active, or insecure (R131, R132). -/
def State.ideBlocked (s : State) (link : Nat) : Bool :=
  ((s.link link).idePolicy == 2 && !(s.rdB .lnkStatus 20 link && s.rdB .lnkStatus 21 link)) || s.rdB .lnkStatus 22 link
/-- The one event record of a period without streams (R131). -/
def State.ideTell (s : State) (link : Nat) : State :=
  if (s.link link).ideTold then s
  else (s.setLink link { s.link link with ideTold := true }).raise { reg := .lnkStatus, bit := 21, link := some link }

/-- Requests to a partition are served: Memory_Active, and the mirror does not keep the module from serving it (R96, R530, R535). -/
def State.serving (s : State) (p : Nat) : Bool := s.memActive p && s.mirRole p != 2 && s.mirState p != 5

/-- What a CXL.mem request meets (R148). -/
inductive HostMatch where
  | unbound
  | inactive (p : Nat)
  | unmatched (p : Nat)
  | hit (p key : Nat) (e : IsoEntry) (addr : Nat)

/-- Match a request (R148 to R150). -/
def State.hostMatch (s : State) (link ld hpa : Nat) : HostMatch :=
  match s.bound link ld with
  | none => .unbound
  | some p =>
    if !s.serving p || !(s.ld link ld).memActive then .inactive p else
    match s.iso.find? (fun e => e.1 / 64 == p && (match e.2 with | some x => decide (x.base ≤ hpa ∧ hpa < x.base + x.len) | none => false)) with
    | some (k, some x) => .hit p k x (x.target + (hpa - x.base))
    | _ => .unmatched p

/-- Count a match of an isolation entry (R157, R18). -/
def State.countMatch (s : State) (k : Nat) (x : IsoEntry) : State :=
  let n := x.matches48 + 1
  { s with iso := Store.set none k (some { x with matches48 := n % 2 ^ 48, wrapped := x.wrapped || decide (2 ^ 48 ≤ n) }) s.iso }

/-- An unmatched request: counted and recorded (R152). -/
def State.unmatchedReq (s : State) (link ld hpa : Nat) (p : Option Nat) : State :=
  let s := match p with
    | none => s.incErr .prtUnboundCount
    | some p => (s.incErr .prtUnmatched p).wr .prtUnmatchedHpa (BitVec.ofNat 64 hpa) p
  s.raiseGathered gkUnmatched (16 * link + ld) { reg := if p.isSome then .prtUnmatched else .prtUnboundCount, part := p, link := some link, addr := hpa, args := [ld] }

/-- The first request of a period without Memory_Active raises one record per LD (R96). -/
def State.inactiveTell (s : State) (link ld p hpa : Nat) : State :=
  let d := s.ld link ld
  if d.inactTold then s
  else (s.setLd link ld { d with inactTold := true }).raise
    { reg := .prtState, bit := 0, status := if s.quarantined p then stQuar else 0, part := some p, link := some link, addr := hpa }

/-! The shadow window's pinned buffers (R181, R182). -/


/-- The pinned buffer that serves a page. -/
def State.shwBuf (s : State) (p page : Nat) : Option ShwBuf :=
  if s.shwOwner = some p then
    match s.shw.cur with
    | some b => if b.index = page / 256 then some b else s.shw.old.filter (fun x => x.index == page / 256)
    | none => s.shw.old.filter (fun x => x.index == page / 256)
  else none
/-- A page of a buffer. -/
def ShwBuf.page (b : ShwBuf) (k : Nat) : Page := BitVec.ofNat 32768 (b.data.readN (4096 * k) 4096)
/-- Poisoned lines of a page of a buffer. -/
def ShwBuf.lines (b : ShwBuf) (k : Nat) : BitVec 64 := Store.get 0 k b.poison
/-- Write bytes of a line of a buffer (R182, R114). -/
def ShwBuf.write (b : ShwBuf) (k line : Nat) (data : Line) (be : BitVec 64) (poison : Bool) : ShwBuf :=
  let a := 4096 * k + 64 * line
  let v := mergeBytes 64 be.toNat data.toNat (b.data.readN a 64)
  let lb : BitVec 64 := BitVec.ofNat 64 (2 ^ line)
  let po := if poison then b.lines k ||| lb else if be = BitVec.allOnes 64 then b.lines k &&& ~~~lb else b.lines k
  { b with data := b.data.writeN a 64 v, poison := Store.set 0 k po b.poison, dirty := if b.dirty.contains k then b.dirty else b.dirty ++ [k] }
/-- Replace a pinned buffer. -/
def State.setShwBuf (s : State) (b : ShwBuf) : State :=
  match s.shw.cur with
  | some c => if c.index = b.index then { s with shw := { s.shw with cur := some b } } else { s with shw := { s.shw with old := some b } }
  | none => { s with shw := { s.shw with old := some b } }

/-! Reading pages. -/

/-- Lines of a slot that fail their CRC are repaired at a read and at the snapshot (R337). -/
def State.checkLines (s : State) (x : SlotSt) (lines : BitVec 64) : State × SlotSt :=
  let bad := x.bad &&& lines
  if bad = 0 then (s, x) else
  let fresh := bad &&& x.fresh
  let stale := bad &&& ~~~x.fresh
  let s := s.event { reg := .eccEvent, bit := 8, part := some x.part, addr := x.page * 4096 }
  let (s, y) := if stale = 0 then (s, { x with poison := x.poison ||| fresh, bad := x.bad &&& ~~~lines }) else
    let (s, r) := s.readPage x.req x.part x.page false true
    let bits := BitVec.ofNat 32768 ((List.range 64).foldl (fun a i => if stale.getLsbD i then a + (2 ^ 512 - 1) * 2 ^ (512 * i) else a) 0)
    if r.ok then (s, { x with data := (x.data &&& ~~~bits) ||| (r.data &&& bits), poison := (x.poison &&& ~~~stale) ||| fresh ||| (r.poison &&& stale), bad := x.bad &&& ~~~lines })
    else (s.countUncorr, { x with poison := x.poison ||| fresh ||| stale, bad := x.bad &&& ~~~lines })
  (s.setSlot y, y)

/-- The frame is homed in tier 2 with its run there and no replica: a read of it asks for its promotion, whatever the page (R259). -/
def State.flashFrame (s : State) (p f : Nat) : Bool :=
  let e := s.frame p f
  e.home == 2 && !e.reloc && e.repl.isNone && e.hasRun
/-- The stored page must come from flash: it has sectors there and no replica, and has not reached the staging buffer (R259). -/
def State.flashPage (s : State) (p page : Nat) : Bool :=
  let e := s.frame p (page / 16)
  s.flashFrame p (page / 16) && (e.constPage (page % 16)).isNone && (e.page (page % 16)).codec != 7
    && (s.shwBuf p page).isNone && !s.tier.staged.contains (16 * fkey p (page / 16) + page % 16)
/-- A read of the page must wait for flash: no slot is open for it, or one whose fill has not come (R207, R259, R262). -/
def State.flashWaits (s : State) (p page : Nat) : Bool :=
  s.flashPage p page && (match s.slot p page with | none => true | some x => !x.filled)
/-- The page must come from flash, with no slot to hold it (R259). -/
def State.fromFlash (s : State) (p page : Nat) : Bool := s.flashPage p page && (s.slot p page).isNone

/-- A page that must come from flash is read there (R259, R299). -/
def State.readFlash (s : State) (p page : Nat) : State :=
  let e := s.frame p (page / 16)
  if s.flashPage p page then s.flashRead p page ((s.homeCopy e).written (page % 16) (e.page (page % 16)).len) else s

/-- Ask for the demand promotion of a flash-homed frame (R259, R262). -/
def State.demand (s : State) (p f : Nat) : State :=
  match s.moveOf p f true with
  | some m => if m.up then s else s.askUp p f 1 0 none
  | none => s.askUp p f 1 0 none

/-- A kernel, a descriptor or a queue already waits on a page: its promotion has been asked for and the access counted (R239, R262). -/
def State.awaited (s : State) (p page : Nat) : Bool := s.flash.waits.any (fun w => w.part == p && w.page == page)

/-- The demand promotion of a kernel, descriptor or queue: asked for once while it waits (R262). -/
def State.demandOnce (s : State) (p page : Nat) : State := if s.awaited p page then s else (s.readFlash p page).demand p (page / 16)

/-- Report an uncorrectable page to a host read (R342). -/
def State.hostUncorr (s : State) (p page : Nat) : State :=
  (s.countUncorr.addPoisonPage p page).raiseGathered gkUncorr p { reg := .eccEvent, bit := 0, status := stUncorr, part := some p, addr := page * 4096 }

/-- Answer a matched host read, or hold it for a fill or for flash data (R207, R210, R235, R255, R259, R342). `first`: the read is not yet held. -/
def State.serveRead (s : State) (r : HeldRead) (first : Bool) : State :=
  let page := r.addr / 4096
  let f := page / 16
  let line := r.addr / 64 % 64
  let load := s.devLoad r.reqPart (hubOf f)
  let p := r.owner
  -- the read of a flash-homed frame asks for its promotion (R259); a held one asks again while it waits
  let s := if s.flashFrame p f && (s.shwBuf p page).isNone && (first || s.fromFlash p page) then s.demand p f else s
  match s.shwBuf p page with
  | some b => s.hostData r.link r.ld r.tag ((b.lines (page % 256)).getLsbD line) (pageLine (b.page (page % 256)) line) load
  | none =>
    match s.slot p page with
    | some x =>
      if x.lineReady line then
        let (s, y) := s.checkLines x (BitVec.ofNat 64 (2 ^ line))
        s.hostData r.link r.ld r.tag (y.poison.getLsbD line) (pageLine y.data line) load
      else
        -- a fill from flash is bounded by the same ceiling, and the read asks for the promotion (R259, R261)
        { s with tier := { s.tier with heldR := s.tier.heldR ++ [{ r with fill := true }] } }
    | none =>
      if s.fromFlash p page then
        let s := (if first then s.incEvt .tirPHeld p else s).readFlash p page
        { s with tier := { s.tier with heldR := s.tier.heldR ++ [{ r with fill := false }] } }
      else
        let (s, q) := s.readPage (reqHost r.reqPart) p page true true
        if q.ok then s.hostData r.link r.ld r.tag (q.poison.getLsbD line) (pageLine q.data line) load
        else (s.hostUncorr p page).hostData r.link r.ld r.tag true 0 load

/-- TIR_P_HOLD_MAX after a held read ends (R266). -/
def State.holdEnd (s : State) (r : HeldRead) : State :=
  let d := min ((s.time - r.at_) / 10) (2 ^ 20 - 1)
  if r.fill ∨ d ≤ s.rdF .tirPHoldMax 0 20 r.owner then s else s.wrF .tirPHoldMax 0 20 d r.owner

/-- The deep-miss ceiling of a partition in ns (R260). -/
def State.ceiling (s : State) (p : Nat) : Nat := 1000 * s.rdF .tirPDeepMissUs 0 8 p

/-- A held read reaches its ceiling (R260). -/
def State.deepMiss (s : State) (r : HeldRead) : State :=
  let p := r.reqPart
  let s := ((s.incEvt .tirPDeepMiss p).setB .tirPEvent 0 p).raiseGathered gkDeepMiss p { reg := .tirPEvent, bit := 0, part := some p, link := some r.link, addr := r.hpa }
  (s.holdEnd r).hostData r.link r.ld r.tag true 0 (s.devLoad p (hubOf (r.addr / 65536)))

/-- Serve the held reads that meet a test, in the order of their hub's directory queue (R496); one whose ceiling has passed is a deep miss (R207, R259, R261). -/
def State.releaseReads (s : State) (f : HeldRead → Bool) : State :=
  let go := s.tier.heldR.filter f
  let s := { s with tier := { s.tier with heldR := s.tier.heldR.filter (fun r => !f r) } }
  let turn (s : State) (h : Nat) (l : List HeldRead) : List HeldRead × State :=
    let (l, p) := arbitrate (fun (r : HeldRead) => r.level) (fun r => r.reqPart) l.length (s.qos.rrPtr.getD h 0) l
    (l, { s with qos := { s.qos with rrPtr := s.qos.rrPtr.set h p } })
  let (g0, s) := turn s 0 (go.filter (fun r => hubOf (r.addr / 65536) == 0))
  let (g1, s) := turn s 1 (go.filter (fun r => hubOf (r.addr / 65536) != 0))
  (g0 ++ g1).foldl (fun s r =>
    if r.at_ + s.ceiling r.reqPart < s.time ∧ (!r.fill ∨ (s.frame r.owner (r.addr / 65536)).home = 2) then s.deepMiss r else ((s.holdEnd r).atLevel r.level).serveRead r false) s

/-! Writing through a slot (R204 to R218, R335, R337). -/

/-- How a write fared. -/
inductive WriteRes where
  | done | held | nospace
  deriving DecidableEq, Repr

/-- A write that needs a new slot while its partition holds its quota seals the partition's oldest FILLING slot on the hub (R211). -/
def State.quotaSeal (s : State) (p page : Nat) : State :=
  let h := hubOf (page / 16)
  if s.mergeQuota p ≤ s.slotsOf p h then s.sealOldest (fun x => x.hub == h && x.part == p && !x.corr) else s

/-- Reads that wait for a slot's fill and whose line can now be read are served (R207). -/
def State.fillServed (s : State) (p page : Nat) : State :=
  s.releaseReads (fun r => r.fill && r.owner == p && r.addr / 4096 == page && (match s.slot p page with | none => true | some x => x.lineReady (r.addr / 64 % 64)))

/-- Write bytes of one line of a page (R204 to R209). -/
def State.slotWrite (s : State) (p page line : Nat) (data : Line) (be : BitVec 64) (poison : Bool) (req level : Nat) : State × WriteRes :=
  match s.shwBuf p page with
  | some b => (s.setShwBuf (b.write (page % 256) line data be poison), .done)
  | none =>
    match s.slot p page with
    | some x =>
      if x.corr then
        let r := s.reservation p page
        if s.reserveOk p r then (s.setSlot (({ x with corr := false, fixed := [], resv := r, req := req, level := level }).write s.time line data be poison), .done)
        else (s, .nospace)
      else ((s.setSlot (x.write s.time line data be poison)).fillServed p page, .done)
    | none =>
      match s.canOpen p page with
      | .held => (s.quotaSeal p page, .held)
      | .nospace => (s, .nospace)
      | .opened =>
        let s := (s.openSlot p page req level).readFlash p page
        match s.slot p page with
        | some x => ((s.setSlot (x.write s.time line data be poison)).checkBudget, .done)
        | none => (s, .done)

/-- A refused slot opening (R218). -/
def State.nospaceRefusal (s : State) (p : Nat) (link ld : Option Nat) (addr : Nat) : State :=
  ((s.incErr .lnsPNospace p).setB .lnsPEvent 4 p).raiseGathered gkNospace p
    { reg := .lnsPEvent, bit := 4, status := stNospace, part := some p, link := link, addr := addr, args := ld.toList }

/-- A page for a kernel, descriptor or engine (R210, R262, R364): none while it waits for flash, whose demand promotion is asked for. -/
def State.getPage (s : State) (req p page : Nat) : State × Option PageRead :=
  match s.shwBuf p page with
  | some b => (s, some { ok := true, data := b.page (page % 256), poison := b.lines (page % 256) })
  | none =>
    if s.flashWaits p page then (s.demandOnce p page, none)
    else match s.slot p page with
      | some x => if x.filled then
          let (s, y) := s.checkLines x (BitVec.allOnes 64)
          (s, some { ok := true, data := y.data, poison := y.poison })
        else let (s, r) := s.viewPage req p page; (s.fillServed p page, some r)
      | none => let (s, r) := s.readPage req p page true true; (s, some r)

/-! Writing for kernels and descriptors. -/

/-- A unit of a hub takes a page to encode: the chosen unit, and its input count (R223, R224). -/
def State.takeUnit (s : State) (h : Nat) : Nat × State :=
  let ptr := s.lens.encPtr.getD h 0
  let u := (((List.range 8).map (fun i => 8 * h + (ptr + i) % 8)).find? (fun u => !s.rdB .lnsUStatus 0 u)).getD (8 * h + ptr % 8)
  let s := { s with lens := { s.lens with encPtr := s.lens.encPtr.set h ((u + 1) % 8) } }
  (u, s.incEvt .lnsUInBytes u)

/-- A whole aligned page written by the compute plane or a descriptor: into its slot when it has one, else through a Lens unit directly (R204, R218, R256). -/
def State.putPage (s : State) (req level p page : Nat) (d : Page) (poison : BitVec 64) : State × WriteRes :=
  let lines (s : State) : State := if s.mirSync p then (List.range 64).foldl (fun (s : State) l =>
    s.shipFrame p (page / 16) (.line (page * 4096 + 64 * l) (BitVec.allOnes 64) (poison.getLsbD l) (pageLine d l))) s else s
  let whole (s : State) (x : SlotSt) : State :=
    let later := if x.state = .encoding ∧ x.laterAt = none then some s.time else x.laterAt
    let st : SlotState := if x.state = .filling then .sealed else x.state
    let sealAt := if x.state = .filling then s.time else x.sealAt
    let y : SlotSt := { x with data := d, written := BitVec.allOnes 4096, fresh := BitVec.allOnes 64, poison := poison, filled := true, bad := 0, laterAt := later, state := st, sealAt := sealAt }
    lines ((s.setSlot y).fillServed p page)
  match s.shwBuf p page with
  | some b =>
    let k := page % 256
    (s.setShwBuf { b with data := b.data.writeN (4096 * k) 4096 d.toNat, poison := Store.set 0 k poison b.poison, dirty := if b.dirty.contains k then b.dirty else b.dirty ++ [k] }, .done)
  | none =>
    match s.slot p page with
    | some x =>
      if x.corr then
        let r := s.reservation p page
        if s.reserveOk p r then (whole s { x with corr := false, fixed := [], resv := r, req := req, level := level }, .done) else (s, .nospace)
      else (whole s x, .done)
    | none =>
      if !s.reserveOk p (s.reservation p page) then (s, .nospace) else
      let viaSlot : State × WriteRes :=
        match s.canOpen p page with
        | .opened =>
          let s := s.openSlot p page req level
          (match s.slot p page with | some x => whole s x | none => s, .done)
        | .held => (s.quotaSeal p page, .held)
        | .nospace => (s, .nospace)
      if (s.frame p (page / 16)).state = .penumbra then viaSlot else
      let (u, s1) := s.takeUnit (hubOf (page / 16))
      let (s2, ok) := s1.commitContent p page req u d poison
      if ok then (s2.afterCommit p page d poison true, .done) else viaSlot

/-- Write `n` bytes of the number `v` at an apparent address, line by line, inside one page (R204). Answers the first result that is not done. -/
def State.putLines (s : State) (req level p a n v : Nat) (poison : Bool) : Nat → State × WriteRes
  | 0 => (s, .done)
  | fuel + 1 =>
    if n = 0 then (s, .done) else
    let off := a % 64
    let m := min n (64 - off)
    let data : Line := BitVec.ofNat 512 ((v % 2 ^ (8 * m)) * 2 ^ (8 * off))
    let be : BitVec 64 := BitVec.ofNat 64 ((2 ^ m - 1) * 2 ^ off)
    let sync := s.mirSync p
    match s.slotWrite p (a / 4096) (a / 64 % 64) data be poison req level with
    | (s', .done) =>
      let s' := if sync then s'.shipFrame p (a / 65536) (.line (a / 64 * 64) be poison data) else s'
      s'.putLines req level p (a + m) (n - m) (v / 2 ^ (8 * m)) poison fuel
    | r => r

/-- Write `n` bytes of a number to a partition's own space for a kernel or descriptor: whole aligned pages directly, the rest through slots.
`poison` marks every line written (R154 is the caller's test). -/
def State.putBytes (s : State) (req level p a n v : Nat) (poison : Bool) : Nat → State × WriteRes
  | 0 => (s, .done)
  | fuel + 1 =>
    if n = 0 then (s, .done) else
    let s := s.touchPage p (a / 4096)
    let m := min n (4096 - a % 4096)
    let r := if m = 4096 then s.putPage req level p (a / 4096) (BitVec.ofNat 32768 v) (if poison then BitVec.allOnes 64 else 0)
             else s.putLines req level p a m (v % 2 ^ (8 * m)) poison 65
    match r with
    | (s', .done) => s'.putBytes req level p (a + m) (n - m) (v / 2 ^ (8 * m)) poison fuel
    | r => r

/-- Slots that are open, to charge those that a write opens (R505). -/
def State.openSlots (s : State) : Nat := s.lens.slots.length

end Sys2Proof.Machine
end

