-- ==== Sys2Proof/Machine/HostMem.lean ====
section
/-! DEFINITION. CXL.mem requests (R96, R112 to R114, R148 to R153, R204 to R218, R239, R259). -/

namespace Sys2Proof.Machine

/-- A host read meets the pool (R148, R259): budget, heat, map entry, then its data. -/
def State.hostReadIn (s : State) (link ld tag hpa : Nat) (kind : ReadKind) : State :=
  if kind == .memSpecRd then s else
  let s := s.wakeAbort
  let hpa := hpa / 64 * 64
  if s.ideBlocked link then (s.ideTell link).hostData link ld tag true 0 .light else
  match s.hostMatch link ld hpa with
  | .unbound => (s.unmatchedReq link ld hpa none).hostData link ld tag true 0 .light
  | .unmatched p => (s.unmatchedReq link ld hpa (some p)).hostData link ld tag true 0 .light
  | .inactive p => (s.inactiveTell link ld p hpa).hostData link ld tag true 0 .light
  | .hit p k x addr =>
    let s := s.countMatch k x
    let cls := s.classOf p 0 (16 * link + ld)
    let lvl := s.levelOf p 0 0 (16 * link + ld) 0
    let s := (s.charge p 0 cls lvl 64).atLevel lvl
    let s := (s.mapAccess x.owner (addr / 65536)).touchPage x.owner (addr / 4096)
    s.serveRead { link := link, ld := ld, tag := tag, hpa := hpa, reqPart := p, owner := x.owner, addr := addr, level := lvl, at_ := s.time, fill := false } true

/-- A host read that arrives on a link that carries CXL.mem. -/
def State.hostRead (s : State) (link ld tag hpa : Nat) (kind : ReadKind) : State :=
  if s.linkCarries link then s.hostReadIn link ld tag hpa kind else s

/-- A planned switchover holds requests to the partition (R538). -/
def State.switchHolds (s : State) (link ld : Nat) : Option Nat :=
  match s.bound link ld with
  | some p => if (s.mirPart p).switching.isSome then some p else none
  | none => none

/-- Hold a host request of a partition. -/
def State.holdReq (s : State) (p : Nat) (i : Instr) : State := s.setMirPart p { s.mirPart p with heldReq := (s.mirPart p).heldReq ++ [i] }

/-- HOST_MEM_READ (R148). -/
def execHostMemRead (link : LinkId) (ld : LdId) (tag hpa : Nat) (kind : ReadKind) (s : State) : Res :=
  .next (match s.switchHolds link ld with
    | some p => s.holdReq p (.hostMemRead link ld tag hpa kind)
    | none => s.hostRead link ld tag hpa kind)

/-- An accepted host write completes, or waits for its epoch's acknowledgement (R205, R534). -/
def State.writeAccepted (s : State) (w : HeldWrite) : State :=
  let p := w.owner
  let f := w.addr / 65536
  if s.mirSync p then
    let s := s.shipFrame p f (.line (w.addr / 64 * 64) w.be w.poison w.data)
    let m := s.mirPart p
    if w.lost then s else
    s.setMirPart p { m with awaiting := m.awaiting ++ [(hubOf f, s.openEpoch p (hubOf f), Await.hostWrite w.link w.ld w.tag w.reqPart)] }
  else if w.lost then s else s.hostCmp w.link w.ld w.tag 1 (s.devLoad w.reqPart (hubOf f))

/-- Put a host write into its slot (R204 to R218), in its turn among the held writes of its hub (R212; DEDUCED, log 79). -/
def State.tryWrite (s : State) (w : HeldWrite) : State × WriteRes :=
  if (s.shwBuf w.owner (w.addr / 4096)).isNone && s.behind w.owner (w.addr / 4096) w.seq then (s, .held) else
  let n := s.openSlots
  let (s, r) := (s.atLevel w.level).slotWrite w.owner (w.addr / 4096) (w.addr / 64 % 64) w.data w.be w.poison (reqHost w.reqPart) w.level
  match r with
  | .held => (s, .held)
  | .nospace =>
    let s := s.nospaceRefusal w.owner (some w.link) (some w.ld) w.hpa
    (if w.lost then s else s.hostCmp w.link w.ld w.tag 1 (s.devLoad w.reqPart (hubOf (w.addr / 65536))), .nospace)
  | .done =>
    let s := if n < s.openSlots then s.charge w.reqPart 0 (s.classOf w.reqPart 0 (16 * w.link + w.ld)) w.level 4096 else s
    (s.writeAccepted w, .done)

/-- A host write meets the pool (R148). A discarded write completes without data (R96, R152, R153, R218). -/
def State.hostWriteIn (s : State) (link ld tag hpa : Nat) (data : Line) (be : BitVec 64) (poison : Bool) : State :=
  let s := s.wakeAbort
  let hpa := hpa / 64 * 64
  if s.ideBlocked link then (s.ideTell link).hostCmp link ld tag 1 .light else
  match s.hostMatch link ld hpa with
  | .unbound => (s.unmatchedReq link ld hpa none).hostCmp link ld tag 1 .light
  | .unmatched p => (s.unmatchedReq link ld hpa (some p)).hostCmp link ld tag 1 .light
  | .inactive p => (s.inactiveTell link ld p hpa).hostCmp link ld tag 1 .light
  | .hit p k x addr =>
    let s := s.countMatch k x
    let load := s.devLoad p (hubOf (addr / 65536))
    if x.attr = .frozen ∨ s.inFrozen x.owner (addr / 64 * 64) 64 then
      ((s.incErr .prtFrozenWrites p).raiseGathered gkFrozen (16 * link + ld)
        { reg := .prtFrozenWrites, part := some p, link := some link, addr := hpa, args := [ld] }).hostCmp link ld tag 1 load
    else
      let cls := s.classOf p 0 (16 * link + ld)
      let lvl := s.levelOf p 0 0 (16 * link + ld) 0
      let s := (s.charge p 0 cls lvl 64).atLevel lvl
      let s := (s.mapAccess x.owner (addr / 65536)).touchPage x.owner (addr / 4096)
      let w : HeldWrite := { link := link, ld := ld, tag := tag, hpa := hpa, reqPart := p, owner := x.owner, addr := addr, data := data, be := be, poison := poison, level := lvl, at_ := s.time, seq := s.lens.seq }
      match s.tryWrite w with
      | (s, .held) => { s with lens := { s.lens with heldW := s.lens.heldW ++ [w], seq := s.lens.seq + 1 } }.incEvt .lnsPSlotStalls x.owner
      | (s, _) => s

/-- A host write that arrives on a link that carries CXL.mem. -/
def State.hostWrite (s : State) (link ld tag hpa : Nat) (data : Line) (be : BitVec 64) (poison : Bool) : State :=
  if s.linkCarries link then s.hostWriteIn link ld tag hpa data be poison else s

/-- HOST_MEM_WRITE (R148). -/
def execHostMemWrite (link : LinkId) (ld : LdId) (tag hpa : Nat) (data : Line) (be : BitVec 64) (poison : Bool) (s : State) : Res :=
  .next (match s.switchHolds link ld with
    | some p => s.holdReq p (.hostMemWrite link ld tag hpa data be poison)
    | none => s.hostWrite link ld tag hpa data be poison)

/-- A MemInv or MemInvNT completes with Cmp and no data (R112). -/
def State.hostInv (s : State) (link ld tag hpa : Nat) : State :=
  if !s.linkCarries link then s else
  let s := s.wakeAbort
  if s.ideBlocked link then (s.ideTell link).hostCmp link ld tag 3 .light else
  match s.hostMatch link ld (hpa / 64 * 64) with
  | .unbound => (s.unmatchedReq link ld (hpa / 64 * 64) none).hostCmp link ld tag 3 .light
  | .unmatched p => (s.unmatchedReq link ld (hpa / 64 * 64) (some p)).hostCmp link ld tag 3 .light
  | .inactive p => (s.inactiveTell link ld p (hpa / 64 * 64)).hostCmp link ld tag 3 .light
  | .hit p k x addr => (s.countMatch k x).hostCmp link ld tag 3 (s.devLoad p (hubOf (addr / 65536)))

/-- HOST_MEM_INVALIDATE (R112); `nt` tells MemInvNT from MemInv, which the module completes alike. -/
def execHostMemInvalidate (link : LinkId) (ld : LdId) (tag hpa : Nat) (_nt : Bool) (s : State) : Res :=
  .next (s.hostInv link ld tag hpa)

/-- Run a request that a switchover held (R538). -/
def State.runHeld (s : State) (i : Instr) : State :=
  match i with
  | .hostMemRead link ld tag hpa kind => s.hostReadIn link ld tag hpa kind
  | .hostMemWrite link ld tag hpa data be poison => s.hostWriteIn link ld tag hpa data be poison
  | _ => s

/-- EVENT_GATHER_WINDOW_END (R626): the 1 ms of a kind and key of gathered records has ended. -/
def execEventGatherWindowEnd (kind key : Nat) (s : State) : Res := .next (s.gatherEnd kind key)

end Sys2Proof.Machine
end

