-- ==== Sys2Proof/Machine/Lens.lean ====
section
/-! DEFINITION. Merge-slot events, flushes, watermarks, relocation and flip masks (06 R206 to R226, 07 R256, 10 R335 to R349). -/

namespace Sys2Proof.Machine

/-- A slot's fill arrives, and the reads that waited for it are served (R207, R214). -/
def State.fillSlot (s : State) (p page : Nat) : State :=
  match s.slot p page with
  | none => s
  | some x =>
    let s := if x.filled then s else ((s.atLevel x.level).viewPage x.req p page).1
    (s.releaseReads (fun r => r.fill && r.owner == p && r.addr / 4096 == page)).flashReadEnd (fun r => r.part == p && r.page == page)

/-- MERGE_FILL_ARRIVE (R207); a fill from flash waits while the hub's flash translation processors are down (R591). -/
def execMergeFillArrive (p : PartId) (page : Nat) (s : State) : Res :=
  .next (if s.flashPage p page && s.ftlDown (some (hubOf (page / 16))) then s else s.fillSlot p page)

/-- MERGE_AGE_EXPIRY (R208): LNS_MERGE_AGE µs have passed since the slot's age timer started. -/
def execMergeAgeExpiry (p : PartId) (page : Nat) (s : State) : Res :=
  .next (match s.slot p page with
    | none => s
    | some x => if x.state = .filling then let s := s.reach (x.ageAt + 1000 * s.rdF .lnsMergeAge 0 10); s.sealSlot x else s)

/-! Encoding and committing. -/

/-- Sealed slots of a hub that a Lens unit may take: filled, and not of a PENUMBRA frame (R223, R256). -/
def State.encodable (s : State) (h : Nat) : List SlotSt :=
  s.lens.slots.filter (fun x => x.hub == h && x.state == .sealed && x.filled && (s.frame x.part (x.page / 16)).state != .penumbra)

/-- The snapshot of a slot (R206, R209, R337). -/
def State.snapshotSlot (s : State) (x : SlotSt) (u : Nat) : State :=
  let (s, x) := s.checkLines x (BitVec.allOnes 64)
  s.setSlot { x with state := .encoding, snap := some (x.data, x.poison), written := 0, laterAt := none, unit := u, waitReloc := false }

/-- A Lens unit takes the slot of highest level, then of earliest seal (R206, R223, R497). -/
def State.encodeStart (s : State) (h : Nat) : State :=
  if (List.range 8).all (fun i => s.rdB .lnsUStatus 0 (8 * h + i)) then s else
  match leastBy (fun (x : SlotSt) => (7 - x.level) * 2 ^ 64 + x.sealAt) (s.encodable h) with
  | none => s
  | some x => let (u, s) := s.takeUnit h; (s.setB .lnsUStatus 0 u).snapshotSlot x u

/-- SLOT_ENCODE_START (R206). -/
def execSlotEncodeStart (h : HubId) (s : State) : Res := .next (s.encodeStart h)

/-- Lines any byte of which the mask selects. -/
def touchedLines (m : PageMask) : BitVec 64 :=
  BitVec.ofNat 64 ((List.range 64).foldl (fun a i => if (m.toNat / 2 ^ (64 * i)) % 2 ^ 64 ≠ 0 then a + 2 ^ i else a) 0)

/-- After a commit the slot becomes FREE, or returns to FILLING when a write came after the snapshot (R209, R217). -/
def State.slotAfter (s : State) (x : SlotSt) : State :=
  match x.laterAt with
  | none => s.freeSlot x.part x.page
  | some t =>
    let y : SlotSt := { x with state := .filling, ageAt := t, snap := none, laterAt := none, filled := true, fresh := touchedLines x.written,
                               resv := s.reservation x.part x.page, corr := false, fixed := [] }
    let s := s.setSlot y
    if y.written = BitVec.allOnes 4096 then s.sealSlot y else s

/-- A commit ends the part of every flush that awaited it (R213). -/
def State.flushSeen (s : State) (p page : Nat) : State :=
  { s with lens := { s.lens with flushes := s.lens.flushes.map (fun (f : Flush) => { f with pages := f.pages.filter (fun x => !(x.1 == p && x.2 == page)) }) } }

/-- The commit of an ENCODING slot (R210, R219, R220, R335). -/
def State.commitSlot (s : State) (x : SlotSt) : State :=
  match x.snap with
  | none => s
  | some (d, po) =>
    let s := s.atLevel x.level
    let done (s : State) : State := (((s.clrB .lnsUStatus 0 x.unit).incEvt .lnsPCommits x.part).slotAfter x).flushSeen x.part x.page
    if x.corr then
      let s := s.commitCorrection x
      let s := if po = 0 then s.cleanPoison x.part x.page else s
      done s
    else
      let (s1, ok) := s.commitContent x.part x.page x.req x.unit d po
      if ok then done (s1.afterCommit x.part x.page d po false)
      else (s1.setSlot { x with waitReloc := true })

/-- SLOT_COMMIT (R210). -/
def execSlotCommit (p : PartId) (page : Nat) (s : State) : Res :=
  .next (match s.slot p page with
    | none => s
    | some x => if x.state = .encoding then s.commitSlot x else s)

/-- The copy of a move has read a flash source into the staging buffer: the held reads of its frame that no longer need flash are served (R255, R259). -/
def State.serveMoved (s : State) (p f : Nat) : State :=
  s.releaseReads (fun r => !r.fill && r.owner == p && r.addr / 65536 == f && !s.fromFlash p (r.addr / 4096))

/-- A frame in PENUMBRA takes no commit before its move has ended: a flush that runs to its end lets the move commit, or abort, first (R213, R256; DEDUCED, log 88). -/
def State.settleMove (s : State) (p f : Nat) : State :=
  if (s.frame p f).state = .penumbra then (s.copyDone p f).serveMoved p f else s

/-- Bring one open slot to its commit at once: the frame's move ends, then fill, seal, snapshot, commit (R213, R256). -/
def State.drainSlot (s : State) (p page : Nat) : State :=
  let s := (s.settleMove p (page / 16)).fillSlot p page
  match s.slot p page with
  | none => s
  | some x =>
    let s := if x.state = .encoding then s else let (u, s) := s.takeUnit x.hub; s.snapshotSlot x u
    match s.slot p page with
    | none => s
    | some y => if y.state = .encoding then s.commitSlot y else s

/-- Flush every open slot that meets a test, to the end: the flush of a reset, shutdown, power entry or hold-up (R213). A slot that later writes reopened is flushed again. -/
def State.flushSlots (s : State) (f : SlotSt → Bool) : State :=
  let go (s : State) : State := (s.lens.slots.filter f).foldl (fun s x => s.drainSlot x.part x.page) s
  go (go s)

/-- A hub's held writes in arrival order, each that now has or can open a slot; one that cannot keeps its place (R212). -/
def State.releaseWrites (s : State) (h : Nat) : State :=
  (s.lens.heldW.filter (fun w => hubOf (w.addr / 65536) == h)).foldl (fun (s : State) w =>
    match s.tryWrite w with
    | (s, .held) => s
    | (s, _) => { s with lens := { s.lens with heldW := s.lens.heldW.erase w } }) s

/-- HELD_WRITE_RELEASE (R212). -/
def execHeldWriteRelease (h : HubId) (s : State) : Res := .next (s.releaseWrites h)

/-! Watermarks and flushes. -/

/-- A write to LNS_P_WATERMARK (R226): each field that changes is compared with DEBT at once, or armed. -/
def State.writeWatermark (s : State) (p : Nat) (val : Nat) : State :=
  let cap := s.debtCap p
  let debt := s.debt p
  (List.range 3).foldl (fun s i =>
    let v := val / 2 ^ (8 * i) % 256
    let v := if v = 0 ∨ 100 < v then 100 else v
    if v = s.rdF .lnsPWatermark (8 * i) 8 p then s else
    let s := s.wrF .lnsPWatermark (8 * i) 8 v p
    let d := s.part p
    let told := d.wmTold / 2 ^ i % 2 == 1
    if 0 < cap ∧ v * cap ≤ 100 * debt then
      (s.setPart p { d with wmTold := if told then d.wmTold else d.wmTold + 2 ^ i }).event { reg := .lnsPEvent, bit := i, part := some p, value := debt } p
    else s.setPart p { d with wmTold := if told then d.wmTold - 2 ^ i else d.wmTold }) s

/-- WATERMARK_WRITE (R226). -/
def execWatermarkWrite (p : PartId) (val : BitVec 32) (s : State) : Res := .next (s.writeWatermark p val.toNat)

/-- Start a flush of the slots that meet a test (R213): FILLING ones seal, and the flush awaits all their commits. -/
def State.startFlush (s : State) (who : FlushWho) (f : SlotSt → Bool) : State :=
  let xs := s.lens.slots.filter f
  let s := { s with lens := { s.lens with flushes := s.lens.flushes ++ [⟨who, xs.map (fun x => (x.part, x.page))⟩] } }
  xs.foldl (fun s x => if x.state = .filling then s.sealSlot x else s) s

/-- A flush of a partition by LNS_P_FLUSH_CTRL.FLUSH (R213, R225). -/
def State.partFlush (s : State) (p : Nat) : State :=
  if s.rdB .lnsPFlushCtrl 0 p then s else (s.setB .lnsPFlushCtrl 0 p).startFlush (.part (Fin.ofNat 16 p)) (fun x => x.part == p)

/-- PARTITION_FLUSH (R213). -/
def execPartitionFlush (p : PartId) (s : State) : Res := .next (s.partFlush p)

/-- A flush has nothing left to await. -/
def State.flushReady (s : State) (who : FlushWho) : Bool := s.lens.flushes.any (fun f => f.who == who && f.pages.isEmpty)
/-- Forget a flush. -/
def State.flushEnd (s : State) (who : FlushWho) : State := { s with lens := { s.lens with flushes := s.lens.flushes.filter (fun f => f.who != who) } }

/-! Relocation (R220) and deferred write-backs (R336). -/

/-- The move home of a frame whose run lies in the relocation area (R220, R246). -/
def State.moveHome (s : State) (p f : Nat) : State :=
  let e := s.frame p f
  if !e.reloc || !e.hasRun then s else
  let m : Move := { part := p, frame := f, cls := 1, kind := .goHome, target := e.home }
  match s.moveDest m e with
  | .at_ s t h =>
    let al := e.freshAllots
    let n := al.foldl (· + ·) 0 + tailSectors (s.strength t)
    let (b, s) := s.newBase t h n
    let m := { m with running := true, destTier := t, destBase := b, destAllot := al }
    let r := s.copyPages p f e (s.homeCopy e) false
    match r.bad with
    | none => (r.s.commitMove m e r.pages).excess p
    | some k =>
      let s := (r.s.setFrame p f { r.s.frame p f with noMigrate := true, failPage := k }).incErr .tirPMigFaults p
      s.countUncorr.event { reg := .tirPEvent, bit := 3, status := stUncorr, part := some p, addr := (16 * f + k) * 4096 } p
  | _ => s

/-- RELOC_MOVE_HOME (R220). -/
def execRelocMoveHome (p : PartId) (frame : Nat) (s : State) : Res := .next (s.moveHome p frame)

/-- DEFERRED_WRITEBACK_OPEN (R336): the oldest deferred page is read again and its correction written back. -/
def execDeferredWritebackOpen (h : HubId) (s : State) : Res :=
  .next (if s.slotsFree h = 0 then s else
    match takeFirst (fun (x : Nat × Nat × Nat) => x.1 == h.val) s.lens.wb with
    | none => s
    | some ((_, p, page), rest) =>
      let s := { s with lens := { s.lens with wb := rest } }
      (s.readPage reqScrub p page true true).1)

/-! Flip masks (R348). -/

/-- The flip-mask register of a unit. -/
def flipReg : FlipUnit → RegName × Nat
  | .lens u => (.lnsUFlipMask, u)
  | .lpc c => (.lpcCFlipMask, c)
  | .hbc k => (.hbcSFlipMask, k)
  | .flc f => (.flcCFlipMask, f)

/-- FLIP_ARM (R348): only while FLIP_ENABLE is 1; cluster decoders have no flip. -/
def execFlipArm (unit : FlipUnit) (s : State) : Res :=
  .next (let (n, i) := flipReg unit
    if !s.rdB .eccCtrl 0 || (n == .lnsUFlipMask && decide (16 ≤ i)) then s else s.wrB n 63 true i)

/-- FLIP_DISARM (R348). -/
def execFlipDisarm (unit : FlipUnit) (s : State) : Res := .next (let (n, i) := flipReg unit; s.wrB n 63 false i)

end Sys2Proof.Machine
end

