-- ==== Sys2Proof/Machine/Tier.lean ====
section
/-! DEFINITION. Tier-manager events: aging, sweeping, moves, flash arrivals, deep misses, map reads, and what tier hints ask of frames (07 R233 to R268). -/

namespace Sys2Proof.Machine

/-- AGING_EPOCH (R241): an epoch boundary, TIR_AGE_EPOCH ms after the last one; counters are brought up to date when their entry is next read or changed. -/
def execAgingEpoch (s : State) : Res :=
  .next (if s.hubsOff then s else
    let s := s.reach (s.tier.epochAt + 1000000 * s.rdF .tirAgeEpoch 0 10)
    ({ s with tier := { s.tier with epochAt := s.time } } : State).wr .tirEpochNow (s.rd .tirEpochNow + 1))

/-- The sweep of a hub passes a frame; a sweep that is complete records its length (R242, R266). -/
def State.sweepPass (s : State) (p f : Nat) : State :=
  let h := hubOf f
  let last := s.tier.sweepKey.getD h 0
  let s := if fkey p f ≤ last then
      let ns := s.time - s.tier.sweepAt.getD h 0
      let s := s.wrF .tirSweepLast (16 * h) 16 (min (ns / 1000000) 65535)
      let s := if 2000000000 < ns then s.setB .tirEvent 4 else s
      { s with tier := { s.tier with sweepAt := s.tier.sweepAt.set h s.time } }
    else s
  { s with tier := { s.tier with sweepKey := s.tier.sweepKey.set h (fkey p f) } }

/-- SWEEPER_VISIT (R242, R249, R250, R252). -/
def execSweeperVisit (p : PartId) (frame : Nat) (s : State) : Res :=
  .next (let f := frame % 2 ^ 31
    if (s.frame p f).state = .zero then s else
    let s := (s.sweepPass p f).mapAccess p f
    let s := s.setFrame p f (s.aged (s.frame p f))
    let s := match s.moveOf p f false with
      | some m => if m.cls == 4 && m.up && decide ((s.frame p f).hot < s.upThresh (m.source (s.frame p f))) then s.dropMove p f false else s
      | none => s
    ((s.sweepFrame p f).excess p).checkBudget)

/-- MOVE_START (R251): a hub starts its next queued move, up to 256 at once; new moves wait while a tier processor of the hub is down (R591) and for Night and Eclipse (R552). -/
def execMoveStart (h : HubId) (s : State) : Res :=
  .next (if 256 ≤ s.migActive h ∨ s.ftlDown (some h.val) ∨ s.nightBound ∨ s.hubHot h then s else
    match s.nextMove h with
    | none => s
    | some m => s.startMove m)

/-- MOVE_COPY_DONE (R254, R257). -/
def execMoveCopyDone (p : PartId) (frame : Nat) (s : State) : Res := .next ((s.copyDone p (frame % 2 ^ 31)).serveMoved p (frame % 2 ^ 31))

/-- Key of a page in the staging buffer. -/
def stageKey (p page : Nat) : Nat := 16 * fkey p (page / 16) + page % 16

/-- Release a staged page that no move and no waiter needs (R259). -/
def State.unstage (s : State) (p page : Nat) : State :=
  if (s.moveOf p (page / 16) true).isSome || s.flash.waits.any (fun w => w.part == p && w.page == page) then s
  else { s with tier := { s.tier with staged := s.tier.staged.filter (fun k => k != stageKey p page) } }

/-- A page's sectors reach the staging buffer: the held reads of the page are served (R259, R261). One that has meanwhile left flash is served from where it is. -/
def State.flashArrive (s : State) (p page : Nat) : State :=
  let held (r : HeldRead) : Bool := !r.fill && r.owner == p && r.addr / 4096 == page
  let done (s : State) : State := s.flashReadEnd (fun r => r.part == p && r.page == page)
  if !s.fromFlash p page then done (s.releaseReads held) else
  let s := { s with tier := { s.tier with staged := s.tier.staged ++ [stageKey p page] } }
  done ((s.releaseReads held).unstage p page)

/-- FLASH_READ_DATA_ARRIVE (R259); flash reads wait while the hub's flash translation processors are down (R591). -/
def execFlashReadDataArrive (p : PartId) (page : Nat) (s : State) : Res := .next (if s.ftlDown (some (hubOf (page / 16))) then s else s.flashArrive p page)

/-- DEEP_MISS_EXPIRY (R260): the ceiling of a held read passes. -/
def execDeepMissExpiry (link : LinkId) (tag : Nat) (s : State) : Res :=
  .next (match takeFirst (fun (r : HeldRead) => r.link == link.val && r.tag == tag && (!r.fill || (s.frame r.owner (r.addr / 65536)).home == 2)) s.tier.heldR with
    | none => s
    | some (r, rest) => ({ s with tier := { s.tier with heldR := rest } }.reach (r.at_ + s.ceiling r.reqPart)).deepMiss r)

/-! Reading an entry (R233, R268). -/

/-- STATE code of an entry (R233). -/
def FrameState.code : FrameState → Nat
  | .zero => 0 | .homed => 1 | .penumbra => 2 | .replicating => 3

/-- Bytes 0x00 to 0x3B of a frame-map entry as a number (R233, R234). -/
def FrameSt.entry (e : FrameSt) (p : Nat) (shadow : Bool) : Nat :=
  if e.state = .zero then (e.pin % 4) * 2 ^ 8 else
  let repl := match e.repl with | none => 3 | some t => t
  let at_ (byte v : Nat) : Nat := v * 2 ^ (8 * byte)
  (e.state.code + e.home % 4 * 8 + repl % 4 * 32)
    + at_ 1 (e.pin % 4 + (if e.reloc then 4 else 0) + (if e.noMigrate then 8 else 0) + (if shadow then 16 else 0))
    + at_ 2 (e.stamp % 65536)
    + at_ 4 ((List.range 16).foldl (fun a k => a + (e.page k).codec % 8 * 2 ^ (3 * k)) 0)
    + at_ 0x0A ((List.range 16).foldl (fun a k => a + (e.page k).allot % 128 * 2 ^ (7 * k)) 0)
    + at_ 0x18 (e.base % 2 ^ 40) + at_ 0x1D (if e.repl.isNone then 0 else e.replBase % 2 ^ 40)
    + at_ 0x22 (p % 16) + at_ 0x24 e.pattern.toNat
    + at_ 0x2C ((List.range 16).foldl (fun a k => a + e.heat.getD k 0 % 256 * 2 ^ (8 * k)) 0)

/-- The 64-byte entry with its CRC. -/
def FrameSt.entryWord (e : FrameSt) (p : Nat) (shadow : Bool) : Nat := let n := e.entry p shadow; n + crc32c (bytesOf 60 n) * 2 ^ 480

/-- Read the entry that TIR_MAP_ADDR names (R266, R268). -/
def State.readMap (s : State) : State :=
  let a := s.rd .tirMapAddr
  let p := fld a 60 4
  let f := fld a 16 31
  if s.apparent p ≤ f * 65536 then s.wr .tirMapStat (BitVec.ofNat 64 (256 * stRange)) else
  let cached := if s.mapCached p f then 1 else 0
  let bad := (s.frame p f).mapBad
  if bad = 2 ∧ cached = 0 then (s.rebuildEntry p f).wr .tirMapStat (BitVec.ofNat 64 (256 * stUncorr)) else
  let s := if bad = 1 ∧ cached = 0 then (s.setFrame p f { s.frame p f with mapBad := 0 }).incErr .lpcCRecon (17 * hubOf f + Config.mapChan (fkey p f) % 16) else s
  let e := if (s.frame p f).state = .zero then s.frame p f else s.aged (s.frame p f)
  let s := s.setFrame p f e
  let w := e.entryWord p (s.shadowed p f)
  let s := (List.range 16).foldl (fun (s : State) i => s.wr .tirMapData (BitVec.ofNat 64 (w / 2 ^ (32 * i) % 2 ^ 32)) i) s
  s.wr .tirMapStat (BitVec.ofNat 64 (1 + 2 * cached + 256 * stDone))

/-- MAP_READ (R268). -/
def execMapRead (s : State) : Res := .next (s.readMap)

/-! Hints on frames (R252, R253). -/

/-- The frames of a span, ascending. -/
def spanFrames (a n : Nat) : List Nat := (List.range (n / 65536)).map (fun i => a / 65536 + i)

/-- Stored bytes that TIR_P_PINNED_T0 and TIR_P_PINNED_T1 count for a frame (R253, R266). -/
def State.pinBytes (s : State) (p f : Nat) (e : FrameSt) : Nat × Nat :=
  let run := 64 * s.runLen e
  if s.inWindow p f then (run, 0)
  else if s.frozenFrame p f then
    if e.pin = 2 ∧ e.repl = some 0 then (64 * s.freshLen e 0, 0)
    else if e.pin = 1 ∧ e.repl = some 1 ∧ e.home = 2 then (0, 64 * s.freshLen e 1) else (0, 0)
  else if e.pin = 2 then (run, 0) else if e.pin = 1 then (0, run) else (0, 0)

/-- Pinned volume of a partition: tier 0 and tier 1 counts (R266). -/
def State.pinned (s : State) (p : Nat) : Nat × Nat :=
  (s.framesOf p).foldl (fun a x => let b := s.pinBytes p x.1 x.2; (a.1 + b.1, a.2 + b.2)) (0, 0)

/-- A pin of a span at a level fits the quotas (R253). -/
def State.pinFits (s : State) (p a n level : Nat) : Bool :=
  let v := (s.framesOf p).foldl (fun acc x =>
    let b := if a / 65536 ≤ x.1 ∧ x.1 < (a + n) / 65536 ∧ !s.inWindow p x.1 then
        (if level = 2 then (64 * s.runLen x.2, 0) else (0, 64 * s.runLen x.2))
      else s.pinBytes p x.1 x.2
    (acc.1 + b.1, acc.2 + b.2)) (0, 0)
  decide (v.1 ≤ s.roomQuota p 0) && decide (v.1 + v.2 ≤ s.roomQuota p 0 + s.quota p 1)

/-- Prefetch one frame to a tier (R252): heat raised to the threshold, then the promotion or replica. -/
def State.prefetchFrame (s : State) (p f t : Nat) (hint : Nat × Nat) : State :=
  let s := s.mapAccess p f
  let e := s.frame p f
  if e.state = .zero then s else
  let e := s.aged e
  let th := if t = 0 then s.upThresh 1 else s.upThresh 2
  let heat := (e.heat.zip e.pages).map (fun x => if x.2.codec = 1 then x.1 else max x.1 th)
  let s := (s.setFrame p f { e with heat := heat }).heatChanged p f
  if e.hasRun then s.askUp p f t 2 (some hint) else s

/-- Pin one frame (R252). -/
def State.pinFrame (s : State) (p f level : Nat) (hint : Nat × Nat) : State :=
  let s := s.mapAccess p f
  let e := s.frame p f
  let changed := e.pin != level
  let s := s.setFrame p f { e with pin := level }
  let s := if changed then s.shipMap p f level [] [] [] false else s
  if !e.hasRun then s else
  if s.frozenFrame p f then
    if level = 1 ∧ e.home ≠ 2 then s else s.askUp p f (2 - level) 2 (some hint)
  else s.askUp p f (2 - level) 2 (some hint)

/-- Unpin one frame (R252). -/
def State.unpinFrame (s : State) (p f : Nat) : State :=
  let s := s.mapAccess p f
  let e := s.frame p f
  if e.pin = 0 then s else (s.setFrame p f { e with pin := 0 }).shipMap p f 0 [] [] [] false

/-- Demote one frame (R252): a frozen frame loses its replica, a writable one with PIN 0 moves to tier 2; a window range stays (R153). -/
def State.demoteFrame (s : State) (p f : Nat) (hint : Nat × Nat) : State :=
  let s := s.mapAccess p f
  let e := s.frame p f
  if e.pin ≠ 0 || !e.hasRun then s
  else if s.frozenFrame p f then s.dropReplica p f
  else if e.home = 2 || s.inWindow p f then s
  else s.enqueue { part := p, frame := f, cls := 2, kind := .demote, target := 2, hint := some hint }

end Sys2Proof.Machine
end

