-- ==== Sys2Proof/Machine/Dram.lean ====
section
/-! DEFINITION. LPDDR5X and HBM4 controller events (08 R278 to R293). -/

namespace Sys2Proof.Machine

/-- Number of a memory controller: channel 0 to 33, or 64 + stack. -/
def ctrlId : MemCtrl → Nat
  | .lpc c => c
  | .hbc k => 64 + k

/-- A lane's delay shifts by one tap towards the edge that moved (R287). -/
def LaneSt.shift (l : LaneSt) (x : LaneMove) : LaneSt :=
  let d (v : Nat) : Nat := if x.up then v + 1 else v - 1
  let z : Int := if x.up then 1 else -1
  if x.write then { l with writeDelay := d l.writeDelay, writeDrift := l.writeDrift + z } else { l with readDelay := d l.readDelay, readDrift := l.readDrift + z }
/-- The lane stands more than 8 taps from its swept centre (R287). -/
def LaneSt.drifted (l : LaneSt) : Bool := decide (8 < l.readDrift.natAbs) || decide (8 < l.writeDrift.natAbs)

/-- One lane of a controller shifts; a lane that comes to stand more than 8 taps from its swept centre is reported (R287). -/
def State.shiftLane (s : State) (k : Nat) (x : LaneMove) : State :=
  let ls := Store.get [] k s.dram.lanes
  match ls[x.lane]? with
  | none => s
  | some l =>
    let l' := l.shift x
    let s := { s with dram := { s.dram with lanes := Store.set [] k (ls.set x.lane l') s.dram.lanes } }
    if l'.drifted && !l.drifted then s.event { reg := if 64 ≤ k then .hbcEvent else .lpcEvent, bit := 5, addr := k % 64, value := x.lane } else s

/-- TRAINING_PROBE (R287): every 100 ms; `moves` are the lanes whose eye edges moved. While shifts occur the saved results are rewritten at most once per 10 s. -/
def execTrainingProbe (m : MemCtrl) (moves : List LaneMove) (s : State) : Res :=
  .next (
    let k := ctrlId m
    let s := s.reach (Store.get 0 k s.dram.probeAt + 100000000)
    let s := { s with dram := { s.dram with probeAt := Store.set 0 k s.time s.dram.probeAt } }
    let s := moves.foldl (fun (s : State) x => s.shiftLane k x) s
    if moves.isEmpty ∨ s.time < Store.get 0 k s.dram.savedAt + 10000000000 then s else s.saveLanes k)

/-- Key of a controller's bank: subchannel, rank and hashed bank of a channel, pseudo-channel and hashed bank of a stack (R296). -/
def bankKey (k bank : Nat) : Nat := if 64 ≤ k then 512 * k + bank % 512 else 128 * k + bank % 128

/-- REFRESH_ISSUE (R288, R498): a refresh or a refresh management command of a bank is served before every other request of the controller. -/
def execRefreshIssue (m : MemCtrl) (_kind : RefreshKind) (bank : Nat) (s : State) : Res :=
  .next ((s.refreshPush (ctrlId m) (bankKey (ctrlId m) bank)).ctrlDrain (ctrlId m))

/-- ROWHAMMER_WINDOW_END (R292, R293): counts return to 0, and throttling of the window before ends. -/
def execRowhammerWindowEnd (s : State) : Res :=
  .next (let s := s.reach (s.dram.rhAt + 32000000)
    let t := s.dram.throttle.map (fun (x : Nat × Nat × Nat) => (x.1, x.2.1, x.2.2 - 1))
    let ended := t.filter (fun x => x.2.2 == 0)
    let s := { s with dram := { s.dram with rh := [], rhAt := s.time, throttle := t.filter (fun x => x.2.2 != 0) } }
    ended.foldl (fun s x => if 64 ≤ x.1 then s.wrB .hbcSThrottle x.2.1 false (x.1 - 64) else s.wrB .lpcCThrottle x.2.1 false x.1) s)

/-- LP_REBUILD_START (R281): a write of 1 to LPC_REBUILD_CTRL, for a hub. -/
def execLpRebuildStart (g : Fin 2) (s : State) : Res :=
  .next (if s.rdB .lpcRebuildCtrl g then s else s.rebuildStart g)

/-- The shortest time of a rebuild of 128 GiB at 40 GB/s, in ns (R281). -/
def rebuildNs : Nat := 128 * 2 ^ 30 / 40

/-- LP_REBUILD_DONE (R281): the last stripe is done, the spare takes the lost position for good, and the group returns to HEALTHY. -/
def execLpRebuildDone (g : Fin 2) (s : State) : Res :=
  .next (let h := g.val
    let sp := 17 * h + 16
    let grp := s.rdF .lpcCState 8 2 sp
    if s.rdF .lpcCState 0 3 sp ≠ 3 ∨ s.rdF .lpcGroupState (4 * grp) 2 ≠ 2 then s else
    let s := (s.reach (s.dram.rebuildAt.getD h 0 + rebuildNs)).wr .lpcRebuildPtr (2 ^ 31) h
    let s := ((s.wrF .lpcCState 0 3 0 sp).wrF .lpcGroupState (4 * grp) 2 0).clrB .lpcRebuildCtrl h
    s.event { reg := .lpcEvent, bit := 1, addr := sp, value := grp })

end Sys2Proof.Machine
end

