-- ==== Sys2Proof/Machine/Carrier.lean ====
section
/-! DEFINITION. Flash carriers: the array, its bays, wear, loss, rebuild and hot plug (09 R297 to R327). -/

namespace Sys2Proof.Machine

/-- Set STATE of a bay. -/
def State.setBayState (s : State) (b v : Nat) : State := s.wrF .carBSlotStatus 4 3 v b
/-- A bay beside its registers. -/
def State.bay (s : State) (b : Nat) : BaySt := s.flash.bays.getD b {}
/-- Store a bay. -/
def State.setBay (s : State) (b : Nat) (v : BaySt) : State := { s with flash := { s.flash with bays := s.flash.bays.set b v } }
/-- Set a bay's indicator: 0 off, 1 on, 2 blink (R315). -/
def State.setInd (s : State) (b v : Nat) : State := s.wrF .carBSlotCtrl 0 2 v b
/-- Stripes of the system area with a member on a carrier. -/
def State.setLive (s : State) (b n : Nat) : State := s.setBay b { s.bay b with live := n }
/-- Exposed stripes of the system area. -/
def State.setExposed (s : State) (n : Nat) : State := { s with flash := { s.flash with exposed := n } }

/-- The SPARE record in force; all zero where the image has none (R302). -/
def State.spareRec (s : State) : SpareRec :=
  match s.img.inForce with
  | none => ⟨false, false, 0⟩
  | some i => i.records.foldl (fun a r => match r with | .spare x => x | _ => a) ⟨false, false, 0⟩

/-- C_eff in GiB (R303). -/
def State.effCap (s : State) : Nat :=
  let full := 45056 - s.spareRec.opExtra
  let n := s.writable
  if 4 ≤ n then full else if n = 3 then 2 * full / 3 else 0

/-- QUOTA_T2 of a partition as its PART record gives it, in GiB. -/
def State.quota2Full (s : State) (p : Nat) : Nat := match (s.part p).cfg with | none => 0 | some r => r.quota2 / 2 ^ 30

/-- Recompute the array's state, C_eff and the effective quotas (R303 to R305, R309, R310). -/
def State.arrayUpdate (s : State) : State :=
  let n := s.writable
  let st := if 0 < s.lostAll then 3 else if n ≤ 2 then 2 else if 0 < s.exposedAll then 1 else 0
  let rate := if 4 ≤ n then 48 else if n = 3 then 32 else 0
  let w := BitVec.ofNat 64 (st + 4 * min n 4 + 256 * rate)
  let s := if w ≠ s.rd .carArrayState then (s.wr .carArrayState w).setB .carEvent 1 else s
  let cap := s.effCap
  let s := s.wr .carEffCap (BitVec.ofNat 64 (cap * 2 ^ 30))
  let sum := (List.range 16).foldl (fun a p => a + s.quota2Full p) 0
  (List.range 16).foldl (fun s p =>
    let q := s.quota2Full p
    let e := (if cap < sum then q * cap / sum else q) * 2 ^ 30
    let old := (s.rd .carPQuotaT2Eff p).toNat
    if e = old then s else
    ((s.wr .carPQuotaT2Eff (BitVec.ofNat 64 e) p).raise { reg := .carPQuotaT2Eff, part := some p, value := e, args := [old] }).checkDebt p) s

/-- Re-striping starts when stripes are exposed (R309). -/
def State.restripeStart (s : State) : State :=
  if s.exposedAll = 0 then s.clrB .carCtrl 0 else { s with flash := { s.flash with restriping := true, short := false } }

/-- Members of the stripes on a carrier are lost: those stripes are exposed, and ones already exposed lose a second member (R309, R310).
How many stripes of the system area lie there is a free value (log 22). -/
def State.membersLost (s : State) (b : Nat) : State :=
  let (v, s) := s.nextFree
  let (w, s) := s.nextFree
  let was := s.lostAll
  let second := if s.flash.exposed = 0 then 0 else w % (s.flash.exposed + 1)
  let s := { s with flash := { s.flash with lost := s.flash.lost + second, lostPos := some b } }
  let s := ((s.setExposed (s.flash.exposed - second + v)).setLive b 0).loseMembers b
  let s := if was < s.lostAll then s.event { reg := .carEvent, bit := 1, addr := b, value := s.lostAll - was } else s
  if s.spareRec.flOnCommand then s else s.restripeStart

/-- A sequence of the carrier has ended: POWER_ON and REMOVE, which stay set while their action runs, clear (R15, R326). -/
def State.slotIdle (s : State) (b : Nat) : State := (s.wrB .carBSlotCtrl 2 false b).wrB .carBSlotCtrl 3 false b

/-- A carrier becomes FAILED (R309). -/
def State.carrierFailed (s : State) (b : Nat) : State :=
  if s.bayState b = 6 then s else
  let s := (s.setBay b { s.bay b with window := none, worn := false, rejoin := false }).slotIdle b
  ((s.setBayState b 6).membersLost b).arrayUpdate

/-- The carrier's channels stop (R327). -/
def State.channelsDown (s : State) (b : Nat) : State := (List.range 8).foldl (fun s k => s.wrF .flcCState 0 2 0 (8 * b + k)) s

/-- A carrier is powered on: STARTING (R311, R318). -/
def State.startCarrier (s : State) (b : Nat) : State :=
  let s := s.setBay b { s.bay b with window := none, worn := false }
  let s := ((s.setBayState b 2).wrB .carBSlotStatus 1 true b).setInd b 1
  (List.range 8).foldl (fun s k => s.wrF .flcCState 0 2 1 (8 * b + k)) s

/-- The spare pool of a channel at its start; its size is a free value (log 22). -/
def State.freshPool (s : State) (f : Nat) : State :=
  let (v, s) := s.nextFree
  let n := 1 + v % 65535
  s.wr .flcCSpare (BitVec.ofNat 64 (n + n * 65536)) f

/-- CAR_B_SPARE_PCT: the lowest remainder among the carrier's channels (R313). -/
def State.sparePct (s : State) (b : Nat) : Nat :=
  (List.range 8).foldl (fun a k =>
    let w := s.rd .flcCSpare (8 * b + k)
    let full := fld w 16 16
    if full = 0 then a else min a (100 * fld w 0 16 / full)) 100

/-- The channels of a carrier are trained: those that fail are down, the others show their narrowest eyes over eight data lines (R298, R311, R327). -/
def State.trainFlash (s : State) (b : Nat) (bad : Nat → Bool) : State :=
  (List.range 8).foldl (fun (s : State) k =>
    if bad k then s.wrF .flcCState 0 2 3 (8 * b + k) else
    let (v, s) := s.nextFree
    let eye (w : Bool) : Nat := ((List.range 8).map (fun i => (sweepSide v i w false).2)).foldl min 255
    (s.wrF .flcCState 0 2 2 (8 * b + k)).wr .flcCTrain (BitVec.ofNat 64 (eye false + 256 * eye true)) (8 * b + k)) s

/-- The carrier is adopted as blank: it takes a lost position in REBUILDING, or serves (R311). With all eight channels failing their training it is FAILED (R307). -/
def State.adoptOne (s : State) (b : Nat) (bad : Nat → Bool) : State :=
  let s := s.trainFlash b bad
  if (List.range 8).all bad then s.carrierFailed b else
  let s := (List.range 8).foldl (fun (s : State) k => s.freshPool (8 * b + k)) s
  let s := s.wr .carBSparePct (BitVec.ofNat 64 (s.sparePct b)) b
  let s := s.setBay b { s.bay b with rejoin := true }
  if s.flash.lostPos.isSome then { s with flash := { s.flash with lostPos := none } }.setBayState b 7 else s.setBayState b 3

/-- A carrier has been adopted in service: its event, and the array's state and quotas (R303, R304). -/
def State.adopt (s : State) (b : Nat) (bad : Nat → Bool) : State :=
  let s := s.adoptOne b bad
  if s.bayState b = 6 then s else (((s.wrB .carBSlotCtrl 2 false b).setB .carBEvent 7 b).arrayUpdate)

/-- CARRIER_ADOPTED (R311): STARTING ends; `bad` are the channels that failed their training (R307, R327). -/
def execCarrierAdopted (bay : Fin 4) (bad : BitVec 8) (s : State) : Res := .next (if s.bayState bay = 2 then s.adopt bay bad.getLsbD else s)

/-- CARRIER_REBUILD_DONE (R312): the carrier holds the reconstructed members of all exposed stripes. -/
def execCarrierRebuildDone (bay : Fin 4) (s : State) : Res :=
  .next (if s.bayState bay = 7 then
    let s := (s.setBayState bay 3).rebuildMembers bay (s.stripesIn Stripe.exposed)
    ({ s with flash := { s.flash with restriping := false, short := false } }.setExposed 0).arrayUpdate else s)

/-- Evacuation of a carrier begins (R314, R316): how many stripes of the system area have a member there is a free value (log 22). -/
def State.evacuate (s : State) (b : Nat) : State := let (v, s) := s.nextFree; s.setLive b v

/-- A block is retired (R313, R314). -/
def State.blockRetire (s : State) (f : Nat) : State :=
  let b := f / 8
  let left := s.rdF .flcCSpare 0 16 f - 1
  let s := (s.incErr .flcCRetired f).wrF .flcCSpare 0 16 left f
  let old := (s.rd .carBSparePct b).toNat
  let pct := s.sparePct b
  let s := s.wr .carBSparePct (BitVec.ofNat 64 pct) b
  let s := if 10 < old ∧ pct ≤ 10 then s.event { reg := .carBEvent, bit := 5, addr := b, value := pct } b else s
  let s := if 2 < old ∧ pct ≤ 2 then s.event { reg := .carBEvent, bit := 6, addr := b, value := pct } b else s
  if left = 0 ∧ (s.bayState b = 3 ∨ s.bayState b = 7) then
    (((s.setBay b { s.bay b with worn := true, window := none }).setBayState b 4).evacuate b).arrayUpdate
  else s

/-- What a NAND operation does that timed out on a LUN (R307): a read is tried again, and reconstructed after its second expiry; a program or an erase retires its block, and the data is programmed into another one;
a read that could not suspend waits for the operation to finish. -/
def State.nandExpiry (s : State) (f lun : Nat) : NandOp → State
  | .read => { s with flash := { s.flash with reads := mapIf (fun (r : NandRead) => r.lun == lun) (fun r => { r with tries := r.tries + 1 }) s.flash.reads } }
  | .suspend => s.nandResume (some lun)
  | .program => (({ s with flash := { s.flash with busy := s.flash.busy.filter (fun b => b.lun != lun || b.erase) } } : State).blockRetire f).nandBegin lun false
  | .erase => ({ s with flash := { s.flash with busy := s.flash.busy.filter (fun b => b.lun != lun || !b.erase) } } : State).blockRetire f

/-- NAND_OP_TIMEOUT (R307) on a LUN of a controller: eight within 1 s fail the carrier. -/
def execNandOpTimeout (f : Fin 32) (lun : Fin 16) (op : NandOp) (s : State) : Res :=
  .next (let b := f.val / 8
    let s := s.incErr .flcCTimeouts f
    let l := ((s.bay b).expiries.filter (fun t => s.time < t + 1000000000)) ++ [s.time]
    let s := s.setBay b { s.bay b with expiries := l }
    let s := s.nandExpiry f (16 * f + lun) op
    if 8 ≤ l.length then s.carrierFailed b else s)

/-- The FTL writes n stripes in the background: 24 GB/s at most for all its work, half of it on each hub (R306, R512). -/
def State.ftlWrites (s : State) (n : Nat) : State :=
  let s := (s.bgPipe 16 24 (65536 * n)).background 0 2 0 (32768 * n)
  s.background 1 2 0 (32768 * n)

/-- FTL_BACKGROUND_WORK (R306, R309, R312 to R314, R323): stripes of data first, then those of the system area, whose number is free (log 22). It waits while a flash translation processor is down (R591),
and all but garbage collection while a hold-up flush runs (R320). -/
def execFtlBackgroundWork (work : FtlWork) (s : State) : Res :=
  let data (f : Stripe → Bool) (n : Nat) : List Nat := (s.stripesIn f).take n
  let flush := s.hup.flushAt.isSome
  .next (if s.ftlDown none then s else match work with
    | .collect n =>
      -- stale stripes go; 2+1 stripes become 3+1 once four carriers are writable (R312)
      let live := s.nandPages.map (fun x => x.2.2.2.stripe)
      let stale := ((s.flash.stripes.filter (fun x => !live.contains x.1)).map (·.1)).take n
      let s : State := { s with flash := { s.flash with stripes := s.flash.stripes.filter (fun x => !stale.contains x.1) } }
      if s.writable < 4 then s else (s.ftlWrites n).rewriteStripes (data (fun t => t.members.length == 3 && t.gone.isEmpty) n)
    | .restripe n =>
      if flush || !(s.flash.restriping || s.flash.short) then s else
      let l := data Stripe.exposed n
      let s := ({ s with flash := { s.flash with restriping := true, short := false } } : State).ftlWrites n
      ((s.rewriteStripes l).setExposed (s.flash.exposed - (n - l.length))).arrayUpdate
    | .rebuild n =>
      match (List.range 4).find? (fun b => s.bayState b == 7) with
      | none => s
      | some b =>
        if flush then s else
        let l := data Stripe.exposed n
        (((s.ftlWrites n).rebuildMembers b l).setExposed (s.flash.exposed - (n - l.length))).arrayUpdate
    | .evacuate b n =>
      if flush || !(s.bayState b == 4 || s.bayState b == 5) then s else
      let l := data (fun t => t.has b) n
      (((s.ftlWrites n).rewriteStripes l).setLive b ((s.bay b).live - (n - l.length))).arrayUpdate
    | .rekey p n => (s.ftlWrites n).rekey p n
    | .erase f lun n => (s.incEvt .carBErases (f.val / 8) n).nandBegin (16 * f + lun) true
    | .blockFail f => s.blockRetire f)

/-- CAR_CTRL.RESTRIPE (R309, R325). -/
def State.restripeCmd (s : State) : State := (s.setB .carCtrl 0).restripeStart

/-- RESTRIPE (R309). -/
def execRestripe (s : State) : Res := .next s.restripeCmd

/-- RESTRIPE_COMPLETE (R309): none is left, or space has run out and the rest stay exposed. -/
def execRestripeComplete (s : State) : Res :=
  .next (if !s.flash.restriping then s else
    let s := { s with flash := { s.flash with restriping := false } }.clrB .carCtrl 0
    if s.exposedAll = 0 then { s with flash := { s.flash with lostPos := none } }.arrayUpdate
    else { s with flash := { s.flash with short := true } }.event { reg := .carEvent, bit := 0, value := s.exposedAll })

/-! Hot plug (R315 to R319). -/

/-- CARRIER_INSERT (R315, R318): presence has held for 100 ms. The carrier brings its own boot area (R51; log 78). -/
def execCarrierInsert (bay : Fin 4) (s : State) : Res :=
  .next (if s.rdB .carBSlotStatus 0 bay then s else
    let b := bay.val
    let s := ((s.wrB .carBSlotStatus 0 true b).setB .carBEvent 0 b).setBayState b 1
    let s := s.setBay b { s.bay b with rejoin := false }
    let s := { s with img := { s.img with boot := s.img.boot.set b (Config.bootArea s.free) }, free := s.free + 1 }
    if s.rdB .carBSlotCtrl 6 b then s.startCarrier b else s)

/-- The first refusal condition of R317. -/
def State.arrayNotWhole (s : State) (b : Nat) : Bool :=
  decide (0 < s.exposedAll) || (List.range 4).any (fun x => x != b && [2, 4, 5, 6, 7].contains (s.bayState x))

/-- A removal request (R316, R317). With FORCE a button press is not refused in STARTING and REBUILDING either (R320; DEDUCED, log 46). -/
def State.removeReq (s : State) (b : Nat) (press : Bool) : State :=
  let force := s.rdB .carBSlotCtrl 7 b
  let st := s.bayState b
  if (st = 3 ∨ (force ∧ press ∧ (st = 2 ∨ st = 7))) ∧ (force ∨ !s.arrayNotWhole b) then
    (s.setBay b { s.bay b with window := some (true, s.time) }).setInd b 2
  else s.event { reg := .carBEvent, bit := 4, addr := b } b

/-- Abort a removal or power-on window, or an evacuation (R316). -/
def State.slotAbort (s : State) (b : Nat) : State :=
  match (s.bay b).window with
  | some (removal, _) => ((((s.setBay b { s.bay b with window := none }).slotIdle b).setInd b (if removal then 1 else 0)).setB .carBEvent 8 b)
  | none => if s.bayState b = 5 then ((((s.setBayState b 3).slotIdle b).setInd b 1).setB .carBEvent 8 b).arrayUpdate else s

/-- BAY_BUTTON_PRESS (R315 to R318): held 20 ms; presses within 200 ms of the last are ignored. -/
def execBayButtonPress (bay : Fin 4) (s : State) : Res :=
  .next (let b := bay.val
    let ignored := match (s.bay b).pressedAt with | some t => decide (s.time < t + 200000000) | none => false
    if ignored then s else
    let s := (s.setBay b { s.bay b with pressedAt := some s.time }).setB .carBEvent 1 b
    if (s.bay b).window.isSome || s.bayState b == 5 then s.slotAbort b
    else if s.bayState b = 0 then s
    else if s.bayState b = 1 then (s.setBay b { s.bay b with window := some (false, s.time) }).setInd b 2
    else s.removeReq b true)

/-- A write of 1 to CAR_B_SLOT_CTRL.REMOVE (R316): the bit stays set while the removal runs (R15). -/
def State.removeCmd (s : State) (b : Nat) : State :=
  if (s.bay b).window.isSome || s.bayState b == 5 then s else
  let s := s.removeReq b false
  s.wrB .carBSlotCtrl 3 (s.bay b).window.isSome b
/-- REMOVE (R316). -/
def execRemove (bay : Fin 4) (s : State) : Res := .next (s.removeCmd bay)

/-- REMOVAL_ABORT (R316): a write of 1 to CAR_B_SLOT_CTRL.ABORT. -/
def execRemovalAbort (bay : Fin 4) (s : State) : Res := .next (s.slotAbort bay)

/-- Step 4 of an orderly removal (R316). -/
def State.slotOff (s : State) (b : Nat) : State :=
  let s := (((s.setBayState b 1).wrB .carBSlotStatus 1 false b).setInd b 0).channelsDown b
  let s := (s.setBay b { s.bay b with window := none, worn := false, rejoin := false }).slotIdle b
  (s.setLive b 0).event { reg := .carBEvent, bit := 7, addr := b } b

/-- REMOVAL_WINDOW_EXPIRY (R316 step 2). -/
def execRemovalWindowExpiry (bay : Fin 4) (s : State) : Res :=
  .next (let b := bay.val
    match (s.bay b).window with
    | some (true, t) =>
      let s := (s.reach (t + 5000000000)).setBay b { s.bay b with window := none }
      if s.rdB .carBSlotCtrl 5 b then ((s.setBayState b 5).evacuate b).arrayUpdate
      else ((s.membersLost b).slotOff b).arrayUpdate
    | _ => s)

/-- EVACUATION_COMPLETE (R314, R316 step 3 and 4). -/
def execEvacuationComplete (bay : Fin 4) (s : State) : Res :=
  .next (let b := bay.val
    let left := s.liveOn b
    if s.bayState b = 5 then
      let s := if 0 < left then
          (({ s with flash := { s.flash with lostPos := some b } }.setExposed (s.flash.exposed + (s.bay b).live)).loseMembers b).event { reg := .carEvent, bit := 0, addr := b, value := left }
        else s
      (s.slotOff b).arrayUpdate
    else if s.bayState b = 4 ∧ left = 0 then (s.slotOff b).arrayUpdate
    else s)

/-- A write of 1 to CAR_B_SLOT_CTRL.POWER_ON (R318): the bit stays set until STARTING ends (R15). -/
def State.powerOnCmd (s : State) (b : Nat) : State := if s.bayState b = 1 then (s.startCarrier b).wrB .carBSlotCtrl 2 true b else s
/-- CARRIER_POWER_ON (R318). -/
def execCarrierPowerOn (bay : Fin 4) (s : State) : Res := .next (s.powerOnCmd bay)

/-- POWER_ON_WINDOW_EXPIRY (R318). -/
def execPowerOnWindowExpiry (bay : Fin 4) (s : State) : Res :=
  .next (match (s.bay bay).window with
    | some (false, t) => (s.reach (t + 5000000000)).startCarrier bay
    | _ => s)

/-- CARRIER_SURPRISE_REMOVAL (R319). -/
def execCarrierSurpriseRemoval (bay : Fin 4) (s : State) : Res :=
  .next (let b := bay.val
    if !s.rdB .carBSlotStatus 0 b then s else
    let powered := s.rdB .carBSlotStatus 1 b
    let s := (s.wrB .carBSlotStatus 0 false b).setB .carBEvent 0 b
    let s := { s with img := { s.img with boot := s.img.boot.set b none } }
    if powered then ((((s.setB .carBEvent 3 b).carrierFailed b).wrB .carBSlotStatus 1 false b).setInd b 0).channelsDown b
    else ((s.setBay b { s.bay b with window := none, rejoin := false }).slotIdle b).setBayState b 0)

/-- SLOT_OVER_CURRENT (R319, R620): power is removed, and the carrier counts as FAILED. -/
def execSlotOverCurrent (bay : Fin 4) (s : State) : Res :=
  .next (let b := bay.val
    if !s.rdB .carBSlotStatus 1 b then s else
    ((((s.wrB .carBSlotStatus 1 false b).setB .carBEvent 2 b).carrierFailed b).setInd b 0).channelsDown b)

end Sys2Proof.Machine
end

