-- ==== Sys2Proof/Machine/Sign.lean ====
section
/-! DEFINITION. The digest and the signature that the spec names and takes from their standards: SHA-384 (FIPS 180-4) and ECDSA P-384 verification (FIPS 186-5); log 12. -/

namespace Sys2Proof.Machine

/-! SHA-384. -/

/-- The largest number whose k-th power is at most n, found from bit `b` down. -/
def rootFrom (k n : Nat) : Nat → Nat → Nat
  | 0, r => r
  | b + 1, r => rootFrom k n b (if (r + 2 ^ b) ^ k ≤ n then r + 2 ^ b else r)
/-- The first 64 bits of the fractional part of the k-th root of p, for p below 2^10. -/
def rootFrac (k p : Nat) : Nat := rootFrom k (p * 2 ^ (64 * k)) 74 0 % 2 ^ 64
/-- The primes below 410: the first 80. -/
def shaPrimes : List Nat := (List.range 410).filter (fun n => 2 ≤ n ∧ (List.range 19).all (fun d => decide (d + 2 = n) || n % (d + 2) != 0))
/-- The round constants: cube roots of the first 80 primes. -/
def shaK : List Nat := shaPrimes.map (rootFrac 3)
/-- The initial hash value of SHA-384: square roots of the ninth to sixteenth primes. -/
def shaInit : List Nat := ((shaPrimes.drop 8).take 8).map (rootFrac 2)

/-- Rotate a 64-bit number right. -/
def rotr64 (x n : Nat) : Nat := x / 2 ^ n + x % 2 ^ n * 2 ^ (64 - n)
/-- The two functions of the message schedule. -/
def shaS0 (x : Nat) : Nat := rotr64 x 1 ^^^ rotr64 x 8 ^^^ x / 2 ^ 7
def shaS1 (x : Nat) : Nat := rotr64 x 19 ^^^ rotr64 x 61 ^^^ x / 2 ^ 6

/-- One round on the eight working variables. -/
def shaRound (v : List Nat) (k w : Nat) : List Nat :=
  match v with
  | [a, b, c, d, e, f, g, h] =>
    let t := h + (rotr64 e 14 ^^^ rotr64 e 18 ^^^ rotr64 e 41) + ((e &&& f) ^^^ ((2 ^ 64 - 1 - e) &&& g)) + k + w
    let u := (rotr64 a 28 ^^^ rotr64 a 34 ^^^ rotr64 a 39) + ((a &&& b) ^^^ (a &&& c) ^^^ (b &&& c))
    [(t + u) % 2 ^ 64, a, b, c, (d + t) % 2 ^ 64, e, f, g]
  | _ => v
/-- The rounds, with the schedule's next sixteen words in `w`. -/
def shaRounds : List Nat → List Nat → List Nat → List Nat
  | [], _, v => v
  | k :: ks, w, v =>
    let next := (shaS1 (w.getD 14 0) + w.getD 9 0 + shaS0 (w.getD 1 0) + w.getD 0 0) % 2 ^ 64
    shaRounds ks (w.drop 1 ++ [next]) (shaRound v k (w.getD 0 0))
/-- A big-endian number of bytes. -/
def beBytes (l : List Byte) : Nat := l.foldl (fun a b => 256 * a + b.toNat) 0
/-- The hash value after `n` blocks of 128 bytes. -/
def shaBlocks : Nat → List Nat → List Byte → List Nat
  | 0, h, _ => h
  | n + 1, h, l =>
    let w := (List.range 16).map (fun i => beBytes ((l.drop (8 * i)).take 8))
    shaBlocks n (List.zipWith (fun x y => (x + y) % 2 ^ 64) h (shaRounds shaK w h)) (l.drop 128)
/-- The message with its padding: a one bit, zeros, and the length in bits as 16 bytes. -/
def shaPad (l : List Byte) : List Byte :=
  l ++ [0x80#8] ++ List.replicate ((239 - l.length % 128) % 128) 0 ++ (List.range 16).map (fun i => BitVec.ofNat 8 (8 * l.length / 256 ^ (15 - i)))
/-- SHA-384 of bytes, the first digest byte most significant (R57, R83; log 12). -/
def sha384 (l : List Byte) : BitVec 384 :=
  let p := shaPad l
  BitVec.ofNat 384 (((shaBlocks (p.length / 128) shaInit p).take 6).foldl (fun a x => 2 ^ 64 * a + x) 0)

/-! ECDSA on P-384: y² = x³ − 3x + b over the field of p elements, with a base point of order n. -/

def p384P : Nat := 2 ^ 384 - 2 ^ 128 - 2 ^ 96 + 2 ^ 32 - 1
def p384N : Nat := 0xffffffffffffffffffffffffffffffffffffffffffffffffc7634d81f4372ddf581a0db248b0a77aecec196accc52973
def p384B : Nat := 0xb3312fa7e23ee7e4988e056be3f82d19181d9c6efe8141120314088f5013875ac656398d8a2ed19d2a85c8edd3ec2aef
def p384G : Nat × Nat := (0xaa87ca22be8b05378eb1c71ef320ad746e1d3b628ba79b9859f741e082542a385502f25dbf55296c3a545e3872760ab7,
  0x3617de4a96262c6f5d9e98bf9292dc29f8f41dbd289a147ce9da3113b5f0b8c00a60b1ce1d7e819d7a431d7c90ea0e5f)

/-- x^e mod m for an exponent below 2^b. -/
def powMod (m x e : Nat) : Nat → Nat
  | 0 => 1
  | b + 1 => let h := powMod m x (e / 2) b; if e % 2 = 1 then h * h % m * x % m else h * h % m
/-- The inverse modulo a prime of 384 bits. -/
def invMod (m x : Nat) : Nat := powMod m (x % m) (m - 2) 384

/-- A point of the curve in Jacobian coordinates: (X, Y, Z) stands for (X / Z², Y / Z³), and Z = 0 for the point at infinity. -/
structure Point where
  x : Nat
  y : Nat
  z : Nat
  deriving DecidableEq, Repr

/-- The difference of two residues modulo p. -/
def subP (a b : Nat) : Nat := (a + (p384P - b)) % p384P
/-- The point of affine coordinates. -/
def Point.affine (g : Nat × Nat) : Point := ⟨g.1, g.2, 1⟩
/-- Twice a point. -/
def Point.dbl (a : Point) : Point :=
  let w := a.y * a.y % p384P
  let s := 4 * a.x * w % p384P
  let v := a.z * a.z % p384P
  let m := 3 * (a.x + v) * (a.x + (p384P - v)) % p384P
  let x := subP (m * m % p384P) (2 * s % p384P)
  ⟨x, subP (m * subP s x % p384P) (8 * w * w % p384P), 2 * a.y * a.z % p384P⟩
/-- The sum of two points. -/
def Point.add (a b : Point) : Point :=
  if a.z = 0 then b else if b.z = 0 then a else
  let v := a.z * a.z % p384P
  let w := b.z * b.z % p384P
  let u := a.x * w % p384P
  let s := a.y * b.z * w % p384P
  let h := subP (b.x * v % p384P) u
  let r := subP (b.y * a.z * v % p384P) s
  if h = 0 then (if r = 0 then a.dbl else ⟨1, 1, 0⟩) else
  let hh := h * h % p384P
  let c := h * hh % p384P
  let k := u * hh % p384P
  let x := subP (subP (r * r % p384P) c) (2 * k % p384P)
  ⟨x, subP (r * subP k x % p384P) (s * c % p384P), a.z * b.z * h % p384P⟩
/-- k times a point, for k below 2^b. -/
def Point.mul (g : Point) (k : Nat) : Nat → Point
  | 0 => ⟨1, 1, 0⟩
  | b + 1 => let h := (g.mul (k / 2) b).dbl; if k % 2 = 1 then h.add g else h
/-- The affine x of a point other than infinity. -/
def Point.affineX (a : Point) : Nat := a.x * invMod p384P (a.z * a.z) % p384P

/-- ECDSA P-384 verification of a digest under a public key, X in the upper half (R57; log 12). -/
def ecdsaOk (key : BitVec 768) (digest r t : BitVec 384) : Bool :=
  let x := key.toNat / 2 ^ 384
  let y := key.toNat % 2 ^ 384
  let w := invMod p384N t.toNat
  let sum := ((Point.affine p384G).mul (digest.toNat * w % p384N) 384).add ((Point.affine (x, y)).mul (r.toNat * w % p384N) 384)
  decide (x < p384P) && decide (y < p384P) && y * y % p384P == (x * x * x + (p384P - 3) * x + p384B) % p384P &&
    decide (0 < r.toNat) && decide (r.toNat < p384N) && decide (0 < t.toNat) && decide (t.toNat < p384N) &&
    sum.z != 0 && sum.affineX % p384N == r.toNat

end Sys2Proof.Machine
end

