-- ==== Sys2Proof/Machine/Compute.lean ====
section
/-! DEFINITION. What queues, kernels and cores share: lookups, pool addresses (R469), reads and writes of pool bytes, waits on flash. -/

namespace Sys2Proof.Machine

/-- A queue's state. -/
def State.queue (s : State) (q : Nat) : QueueSt := Store.get {} q s.queues
/-- Store a queue's state. -/
def State.setQueue (s : State) (q : Nat) (v : QueueSt) : State := { s with queues := Store.set {} q v s.queues }
/-- A core's state. -/
def State.core (s : State) (c : Nat) : CoreSt := Store.get {} c s.cores
/-- Store a core's state. -/
def State.setCore (s : State) (c : Nat) (v : CoreSt) : State := { s with cores := Store.set {} c v s.cores }
/-- A sync object. -/
def State.obj (s : State) (k : Nat) : SyncObj := Store.get {} k s.sync
/-- Store a sync object. -/
def State.setObj (s : State) (k : Nat) (v : SyncObj) : State := { s with sync := Store.set {} k v s.sync }
/-- A fetched descriptor. -/
def State.desc (s : State) (q n : Nat) : Option DescSt := (s.queue q).descs.find? (fun d => d.n == n)
/-- Replace a fetched descriptor. -/
def State.setDesc (s : State) (q : Nat) (d : DescSt) : State :=
  let x := s.queue q
  s.setQueue q { x with descs := mapIf (fun e => e.n == d.n) (fun _ => d) x.descs }
/-- The work of a descriptor ends with a status. -/
def State.endDesc (s : State) (q : Nat) (d : DescSt) (status detail : Nat) : State :=
  (s.storeGone (.desc q d.n)).setDesc q { d with started := true, launched := false, status := some status, detail := detail, host := none }
/-- A kernel. -/
def State.kernel (s : State) (id : Nat) : Option KernelSt := s.comp.kernels.find? (fun k => k.id == id)
/-- Replace a kernel. -/
def State.setKernel (s : State) (k : KernelSt) : State :=
  { s with comp := { s.comp with kernels := mapIf (fun x => x.id == k.id) (fun _ => k) s.comp.kernels } }

/-- Partitions that have a PART record. -/
def State.partsOn (s : State) : List Nat := (List.range 16).filter (fun p => (s.part p).cfg.isSome)
/-- The partition whose span holds a module queue (R460, R494). -/
def State.queueOwner (s : State) (q : Nat) : Option Nat :=
  s.partsOn.find? (fun p => match (s.part p).cfg with | none => false | some r => decide (r.queueBase ≤ q ∧ q < r.queueBase + r.queueCount))
/-- The partition whose span holds a sync object (R63). -/
def State.syncOwner (s : State) (k : Nat) : Option Nat :=
  s.partsOn.find? (fun p => match (s.part p).cfg with | none => false | some r => decide (r.syncBase ≤ k ∧ k < r.syncBase + r.syncCount))
/-- The module queues of a partition. -/
def State.queuesOf (s : State) (p : Nat) : List Nat :=
  match (s.part p).cfg with | none => [] | some r => (List.range r.queueCount).map (r.queueBase + ·)
/-- Index of a module queue inside its partition (R503). -/
def State.queueIdx (s : State) (p q : Nat) : Nat := match (s.part p).cfg with | none => 0 | some r => q - r.queueBase

/-- Where a pool address leads for a requester (R469): owner and apparent address of `n` bytes; none is RANGE. -/
def State.resolve (s : State) (p a n : Nat) : Option (Nat × Nat) :=
  let addr := a % 2 ^ 47
  let owner := a / 2 ^ 48 % 16
  if a / 2 ^ 47 % 2 = 1 ∨ 0 < a / 2 ^ 53 then none
  else if a / 2 ^ 52 % 2 = 0 then (if owner = 0 ∧ addr + n ≤ s.apparent p then some (p, addr) else none)
  else if (s.rangesInto owner).any (fun x => x.1 == p && (x.2.attr == .shared || x.2.attr == .frozen) &&
      decide (x.2.target ≤ addr ∧ addr + n ≤ x.2.target + x.2.len)) then some (owner, addr) else none

/-- The level that a queue's request takes (R500); `fill` is the urgency of the operand buffers that it fills (R510). -/
def State.compLevel (s : State) (p q fill : Nat) : Nat := s.levelOf p 1 1 (s.queueIdx p q) fill

/-- Charge compute traffic of a queue's class at a level (R500, R505). -/
def State.compCharge (s : State) (p q level cost : Nat) : State := s.charge p 1 (s.classOf p 1 (s.queueIdx p q)) level cost

/-- What a read of pool bytes gives: the bytes, a wait on a flash-homed page, or data that cannot be used. -/
inductive Got where
  | ok (v : Nat)
  | wait (page : Nat)
  | bad (page : Nat)
  deriving DecidableEq, Repr

/-- Lines of a page that `n` bytes from offset `o` touch. -/
def spanLines (o n : Nat) : BitVec 64 := BitVec.ofNat 64 ((2 ^ ((o + n - 1) / 64 - o / 64 + 1) - 1) * 2 ^ (o / 64))

/-- Read `n` bytes of a partition's space, page by page (R262, R342). A poisoned line is data that cannot be used (log 31). -/
def State.getSpan (s : State) (req p a n : Nat) : Nat → State × Got
  | 0 => (s, .ok 0)
  | fuel + 1 =>
    if n = 0 then (s, .ok 0) else
    let o := a % 4096
    let m := min n (4096 - o)
    let s := if s.awaited p (a / 4096) then s else (s.mapAccess p (a / 65536)).touchPage p (a / 4096)
    match s.getPage req p (a / 4096) with
    | (s, none) => (s, .wait (a / 4096))
    | (s, some r) =>
      if !r.ok then (s.countUncorr, .bad (a / 4096))
      else if r.poison &&& spanLines o m ≠ 0 then (s, .bad (a / 4096))
      else
        let v := fieldOf r.data.toNat o m
        match s.getSpan req p (a + m) (n - m) fuel with
        | (s, .ok w) => (s, .ok (v + w * 256 ^ m))
        | x => x

/-- Read `n` bytes; the fuel covers every page. -/
def State.getBytes (s : State) (req p a n : Nat) : State × Got := s.getSpan req p a n (n / 4096 + 2)

/-- A store of `m` bytes to a page needs a slot while an earlier held write of the hub can go: it waits its turn (R212). -/
def State.storeWaits (s : State) (who : Holder) (p page m : Nat) : Bool :=
  (m != 4096 || (s.frame p (page / 16)).state == .penumbra) && (s.shwBuf p page).isNone && s.behind p page (s.storeSeq who p page)

/-- Write `n` bytes of the number `v` from byte `pos` on, at apparent address `a` of a partition: whole aligned pages through a Lens unit, the rest line by line.
A write that has been held counts no second access (R239), and is held under the name of its holder (R212; DEDUCED, log 79).
Answers how many bytes stand written and how the last write fared. -/
def State.putRun (s : State) (who : Holder) (req level p a n v pos : Nat) : Nat → State × Nat × WriteRes
  | 0 => (s, pos, .done)
  | fuel + 1 =>
    if n ≤ pos then (s, pos, .done) else
    let x := a + pos
    let page := x / 4096
    let m := if x % 4096 = 0 ∧ 4096 ≤ n - pos then 4096 else min (n - pos) (64 - x % 64)
    let s := if (pos = 0 ∨ x % 4096 = 0) ∧ (s.heldStore who p page).isNone then (s.mapAccess p (x / 65536)).touchPage p page else s
    let w := fieldOf v pos m
    let r := if s.storeWaits who p page m then (s, .held)
      else if m = 4096 then s.putPage req level p page (BitVec.ofNat 32768 w) 0 else s.putLines req level p x m w false 2
    match r with
    | (s, .done) => (s.storeGone who).putRun who req level p a n v (pos + m) fuel
    | (s, .held) => (s.storeHeld who p page, pos, .held)
    | (s, .nospace) => (s.storeGone who, pos, .nospace)

/-- Several cores of a kernel can wait at once; a queue and a descriptor wait on one page. -/
def waitsMany : FlashWaiter → Bool
  | .kernel _ => true
  | _ => false
/-- Remember that something waits on a flash-homed page; the wait runs from the first time it is seen (R307). -/
def State.flashWait (s : State) (who : FlashWaiter) (p page : Nat) : State :=
  if s.flash.waits.any (fun w => w.who == who && w.part == p && w.page == page) then s
  else { s with flash := { s.flash with waits := (s.flash.waits.filter (fun w => waitsMany who || w.who != who)) ++ [⟨who, p, page, s.time⟩] } }
/-- A page has come. -/
def State.flashGot (s : State) (who : FlashWaiter) (p page : Nat) : State :=
  { s with flash := { s.flash with waits := s.flash.waits.filter (fun w => !(w.who == who && w.part == p && w.page == page)) } }
/-- A wait on flash is over. -/
def State.flashDone (s : State) (who : FlashWaiter) : State :=
  { s with flash := { s.flash with waits := s.flash.waits.filter (fun w => w.who != who) } }

/-- The TABLE record of a partition (R528). -/
def State.tableRec (s : State) (p : Nat) : Option MirRec :=
  let d := s.part p
  d.cfg.map (fun r => .table r d.lens d.comp d.qos ((s.queuesOf p).map (fun q =>
    { queue := q, ringBase := s.rd .qdRingBase q, ctrl := s.rd .qdCtrl q, head := s.rd .qdHead q, tail := s.rd .qdTail q,
      seed := s.rd .qdSeed q, launchNo := s.rd .qdLaunchNo q, fetched := (s.queue q).descs.map (fun d => (d.n, false)) })))
/-- Ship the TABLE record: it travels in the sub-stream of hub 0 (R528, log 32). -/
def State.shipTable (s : State) (p : Nat) : State :=
  if s.shipsLive p then match s.tableRec p with | none => s | some r => s.shipRec p 0 r else s

/-- A number of a descriptor's bytes (R470, R471). -/
def DescSt.fld (d : DescSt) (off n : Nat) : Nat := fieldOf d.raw off n

end Sys2Proof.Machine
end

