-- ==== Sys2Proof/Machine/Sync.lean ====
section
/-! DEFINITION. Sync objects: operations, waits, locks, resets of objects (R472, R481 to R489, R495). -/

namespace Sys2Proof.Machine

/-- An object reference (R472): the module object, or the refusing status. -/
def State.objRef (s : State) (p ref : Nat) : Nat ⊕ Nat :=
  match (s.part p).cfg with
  | none => .inr stRange
  | some r =>
    if ref / 2 ^ 13 % 4 ≠ 0 then .inr stRange
    else if ref < 2 ^ 15 then (if ref % 8192 < r.syncCount then .inl (r.syncBase + ref % 8192) else .inr stRange)
    else
      let k := ref % 8192
      if decide (r.syncBase ≤ k ∧ k < r.syncBase + r.syncCount) || (s.obj k).share.testBit p then .inl k else .inr stDenied

/-- The owner tag of a partition and queue (R481). -/
def ownerTag (p q : Nat) : Nat := p * 4096 + q % 4096

/-- A sync operation completes for its source: a descriptor's work ends, or a core's SYNC writes s[D] and the core goes on (R454, R477). -/
def State.syncDone (s : State) (src : SyncSrc) (status value : Nat) : State :=
  match src with
  | .desc q n => match s.desc q n with
    | none => s
    | some d => s.endDesc q { d with result := some value } status 0
  | .core c =>
    let x := s.core c
    let w := Store.get 0 x.pc x.imem
    let d := fld w 51 5
    s.setCore c { x with s := x.s.set d (BitVec.ofNat 64 value), pc := (x.pc + 1) % 8192, inSync := false }

/-- Ship an object of a mirrored partition's span (R528). -/
def State.shipObj (s : State) (k : Nat) : State :=
  match s.syncOwner k with
  | none => s
  | some p =>
    let o := s.obj k
    if s.shipsLive p then s.shipRec p (k % 2) (.sync k o.value.toNat o.target o.lock o.owner o.share) else s

/-- Complete an operation that changed an object: at once, or when the partner acknowledges the change (R489). -/
def State.syncChanged (s : State) (k : Nat) (src : SyncSrc) (status value : Nat) : State :=
  let s := s.shipObj k
  match s.syncOwner k with
  | some p => if s.mirSync p then
      let s := match src with
        | .core c => s.setCore c { s.core c with inSync := true }
        | .desc _ _ => s
      let m := s.mirPart p
      s.setMirPart p { m with awaiting := m.awaiting ++ [(k % 2, s.openEpoch p (k % 2), Await.sync src status value)] }
    else s.syncDone src status value
  | none => s.syncDone src status value

/-- A wait is satisfied by a value (R483). -/
def WaitKind.met : WaitKind → Word → Bool
  | .ge v, x => decide (v.toNat ≤ x.toNat)
  | .eq v, x => x == v
  | .lock, _ => false

/-- A change of VALUE completes the waits it satisfies, with that value (R483). -/
def State.wakeWaits (s : State) (k : Nat) : State :=
  let o := s.obj k
  let go := o.waits.filter (fun w => w.kind.met o.value)
  let s := s.setObj k { o with waits := o.waits.filter (fun w => !w.kind.met o.value) }
  go.foldl (fun s w => s.syncDone w.src stDone o.value.toNat) s

/-- VALUE takes a new value, and its waits are tested (R482, R483). -/
def State.setValue (s : State) (k : Nat) (v : Word) : State := (s.setObj k { s.obj k with value := v }).wakeWaits k

/-- What a sync operation asks (R471, R454): codes 0 to 7 of OP. -/
structure SyncReq where
  op : Nat
  value : Word
  expected : Word
  timeoutUs : Nat
  part : Nat
  queue : Nat
  src : SyncSrc
  deriving DecidableEq, Repr

/-- The barrier count of R486. -/
def barrierNext (v : Word) (target : Nat) : Word :=
  let n := max target 1
  let count := v.toNat % 2 ^ 32 + 1
  if n ≤ count then BitVec.ofNat 64 ((v.toNat / 2 ^ 32 + 1) % 2 ^ 32 * 2 ^ 32) else BitVec.ofNat 64 (v.toNat / 2 ^ 32 * 2 ^ 32 + count)

/-- A request waits on an object (R483, R484). -/
def State.syncWait (s : State) (k : Nat) (r : SyncReq) (kind : WaitKind) : State :=
  let o := s.obj k
  let w : SyncWait := { src := r.src, kind := kind, part := r.part, queue := r.queue, deadline := if r.timeoutUs = 0 then none else some (s.time + 1000 * r.timeoutUs) }
  let s := s.setObj k { o with waits := o.waits ++ [w] }
  match r.src with
  | .core c => s.setCore c { s.core c with inSync := true }
  | .desc _ _ => s

/-- The oldest lock waiter of an object. -/
def SyncObj.lockWaiter (o : SyncObj) : Option (SyncWait × List SyncWait) := takeFirst (fun w => w.kind == .lock) o.waits

/-- Hand a lock to a waiter (R485, R487). -/
def State.giveLock (s : State) (k : Nat) (w : SyncWait) (rest : List SyncWait) (status : Nat) : State :=
  (s.setObj k { s.obj k with lock := 1, owner := ownerTag w.part w.queue, waits := rest }).syncChanged k w.src status status

/-- Apply one operation to an object (R482 to R486). -/
def State.syncOp (s : State) (k : Nat) (r : SyncReq) : State :=
  let o := s.obj k
  let tag := ownerTag r.part r.queue
  match r.op with
  | 0 => (s.setValue k r.value).syncChanged k r.src stDone o.value.toNat
  | 1 => (s.setValue k (o.value + r.value)).syncChanged k r.src stDone o.value.toNat
  | 2 => if r.value.toNat ≤ o.value.toNat then s.syncDone r.src stDone o.value.toNat else s.syncWait k r (.ge r.value)
  | 3 => if o.value = r.value then s.syncDone r.src stDone o.value.toNat else s.syncWait k r (.eq r.value)
  | 4 => if o.value = r.expected then (s.setValue k r.value).syncChanged k r.src stDone o.value.toNat else s.syncDone r.src stDone o.value.toNat
  | 5 =>
    if o.lock = 1 then (if o.owner = tag then s.syncDone r.src stBusy stBusy else s.syncWait k r .lock)
    else
      let st := if o.lock = 2 then stAbandoned else stDone
      (s.setObj k { o with lock := 1, owner := tag }).syncChanged k r.src st st
  | 6 =>
    if o.lock = 1 ∧ o.owner = tag then
      match o.lockWaiter with
      | some (w, rest) => (s.giveLock k w rest stDone).syncChanged k r.src stDone stDone
      | none => (s.setObj k { o with lock := 0, owner := 0 }).syncChanged k r.src stDone stDone
    else s.syncDone r.src stDenied stDenied
  | _ =>
    let v := barrierNext o.value o.target
    (s.setValue k v).syncChanged k r.src stDone v.toNat

/-- COMP_OP of a completion: add or set, with no source that waits (R477). -/
def State.compOp (s : State) (k op : Nat) (v : Word) : State :=
  if op = 1 then (s.setValue k ((s.obj k).value + v)).shipObj k
  else if op = 2 then (s.setValue k v).shipObj k else s

/-- End the waits and lock requests of every object that meet a test, with a status (R164, R168, R495). -/
def State.endWaits (s : State) (f : Nat → SyncWait → Bool) (status : Nat) : State :=
  s.sync.foldl (fun s e =>
    let o := s.obj e.1
    let go := o.waits.filter (f e.1)
    if go.isEmpty then s else
    let s := s.setObj e.1 { o with waits := o.waits.filter (fun w => !f e.1 w) }
    go.foldl (fun s w => s.syncDone w.src status (if w.kind = .lock then status else o.value.toNat)) s) s

/-- Release the locks held with a partition's tag (R487). -/
def State.releaseLocks (s : State) (p : Nat) : State :=
  s.sync.foldl (fun s e =>
    let o := s.obj e.1
    if o.lock = 1 ∧ o.owner / 4096 = p then
      let s := s.event { reg := .synEvent, bit := 0, part := some p, value := e.1 }
      match o.lockWaiter with
      | some (w, rest) => s.giveLock e.1 w rest stAbandoned
      | none => (s.setObj e.1 { o with lock := 2, owner := 0 }).shipObj e.1
    else s) s

/-- Objects return to their reset values, SHARE excepted, and every wait on them ends with RESET (R488). -/
def State.resetObjs (s : State) (f : Nat → Bool) : State :=
  let s := s.endWaits (fun k _ => f k) stReset
  s.sync.foldl (fun s e => if f e.1 then (s.setObj e.1 { share := e.2.share }).shipObj e.1 else s) s

/-- A write to SYN_O_SHARE (R495). -/
def State.writeShare (s : State) (k mask : Nat) : State :=
  let m := mask % 65536
  let s := s.setObj k { s.obj k with share := m }
  let own := s.syncOwner k
  (s.endWaits (fun j w => j == k && !m.testBit w.part && own != some w.part) stDenied).shipObj k

/-- SYNC_SHARE_WRITE (R495). -/
def execSyncShareWrite (obj : Fin 8192) (mask : BitVec 32) (s : State) : Res := .next (s.writeShare obj mask.toNat)

end Sys2Proof.Machine
end

