-- ==== Sys2Proof/Machine/Queue.lean ====
section
/-! DEFINITION. Queues: enabling, doorbells, fetching, starting and checking descriptors, completion (R460 to R480, R491, R492). -/

namespace Sys2Proof.Machine

/-- Slots of a queue's ring (R461). -/
def State.ringSize (s : State) (q : Nat) : Nat := 2 ^ s.rdF .qdCtrl 16 5 q
/-- Address of a count's slot (R461). -/
def State.slotAddr (s : State) (q n : Nat) : Nat := (s.rd .qdRingBase q).toNat + 64 * (n % s.ringSize q)
/-- A queue is enabled. -/
def State.qEnabled (s : State) (q : Nat) : Bool := s.rdB .qdCtrl 0 q
/-- The check of R461: the refusing status. -/
def State.ringCheck (s : State) (p q : Nat) : Nat :=
  let b := (s.rd .qdRingBase q).toNat
  let n := 64 * s.ringSize q
  if b % 4096 ≠ 0 then stAlign else if s.apparent p < b + n then stRange else if s.inFrozen p b n then stDenied else stDone

/-- Writing 1 to QD_CTRL.ENABLE of a disabled queue (R462). -/
def State.enableQueue (s : State) (p q : Nat) : State :=
  let st := s.ringCheck p q
  if st ≠ stDone then s.wrF .qdStatus 16 8 st q else
  let s := (((s.wr .qdHead 0 q).wr .qdTail 0 q).wrB .qdCtrl 0 true q).wrB .qdStatus 0 true q
  (s.setQueue q { s.queue q with bells := [] }).shipTable p

/-- Writing 0 to QD_CTRL.ENABLE (R468). -/
def State.disableQueue (s : State) (p q : Nat) : State :=
  if s.qEnabled q then ((s.wrB .qdCtrl 0 false q).wrB .qdStatus 0 false q).shipTable p else s

/-- QUEUE_ENABLE (R462). -/
def execQueueEnable (q : QueueId) (s : State) : Res :=
  .next (match s.queueOwner q with
    | none => s
    | some p => if s.qEnabled q then s else s.enableQueue p q)

/-- QUEUE_DISABLE (R468). -/
def execQueueDisable (q : QueueId) (s : State) : Res :=
  .next (match s.queueOwner q with
    | none => s
    | some p => s.disableQueue p q)

/-- A write to QD_CTRL (R462, R492): ENABLE, and RING_LOG2 within 4 to 16 while the queue is disabled. -/
def State.writeQdCtrl (s : State) (p q v : Nat) : State :=
  let on := v % 2 = 1
  let lg := min 16 (max 4 (v / 2 ^ 16 % 32))
  let s := if s.qEnabled q then (if lg = s.rdF .qdCtrl 16 5 q then s else s.wrB .qdStatus 3 true q) else s.wrF .qdCtrl 16 5 lg q
  if on then (if s.qEnabled q then s else s.enableQueue p q) else s.disableQueue p q

/-- A write to QD_RING_BASE (R462). -/
def State.writeRingBase (s : State) (p q v : Nat) : State :=
  if s.qEnabled q then s.wrB .qdStatus 3 true q else (s.wr .qdRingBase (BitVec.ofNat 64 v) q).shipTable p

/-- A write that completes QD_SEED (R410, R491). -/
def State.writeSeed (s : State) (p q : Nat) (v : Word) : State := ((s.wr .qdSeed v q).wr .qdLaunchNo 0 q).shipTable p

/-- QD_SEED_WRITE (R410). -/
def execQdSeedWrite (q : QueueId) (seed : Word) (s : State) : Res :=
  .next (match s.queueOwner q with
    | none => s
    | some p => s.writeSeed p q seed)

/-- A doorbell (R463, R475). -/
def State.doorbell (s : State) (p q link ld t : Nat) : State :=
  if s.quarantined p || !s.qEnabled q || s.mirRole p == 2 then s else
  let pending := (t + 2 ^ 32 - (s.rd .qdHead q).toNat) % 2 ^ 32
  if pending ≤ s.ringSize q then
    let x := s.queue q
    ((s.wr .qdTail (BitVec.ofNat 64 t) q).setQueue q { x with bells := x.bells ++ [(t, link, ld)] }).shipTable p
  else
    ((s.wrB .qdStatus 2 true q).setB .queEvent 0).raise { reg := .queEvent, bit := 0, part := some p, link := some link, value := t, args := [q] }

/-- DOORBELL (R463): a write to QD_TAIL of module queue `q` through the LD's BAR0. -/
def execDoorbell (link : LinkId) (ld : LdId) (q : QueueId) (tail : BitVec 32) (s : State) : Res :=
  .next (s.onBar0 link ld (0x2000000 + 0x1000 * (match s.bound link ld with | some p => s.queueIdx p q | none => q.val)) (fun p => if s.queueOwner q = some p then s.doorbell p q link ld tail.toNat else s))

/-! Fetching (R464, R466). -/

/-- Fetching of a partition's queues is held: quiescence, quarantine, a fenced primary, a partition not in service (R162, R168, R535). -/
def State.fetchHeld (s : State) (p : Nat) : Bool :=
  s.rdB .prtQuiesceCtrl 0 p || s.quarantined p || !s.memActive p || s.mirRole p == 2 || s.mirState p == 5 || (s.mirPart p).switching.isSome || s.nightBound

/-- A fetch that fails stops the queue (R466). -/
def State.fetchStop (s : State) (p q status : Nat) : State :=
  let s := s.flashDone (.ring (Fin.ofNat 4096 q))
  let s := ((s.wrB .qdCtrl 0 false q).wrB .qdStatus 0 false q).wrF .qdStatus 24 8 status q
  ((s.setB .queEvent 1).raise { reg := .queEvent, bit := 1, status := status, part := some p, value := (s.rd .qdHead q).toNat, args := [q] }).shipTable p

/-- The doorbell that made count `n` visible, and the doorbells still to come. -/
def bellOf (ring n : Nat) : List (Nat × Nat × Nat) → Option (Nat × Nat) × List (Nat × Nat × Nat)
  | [] => (none, [])
  | (t, l, d) :: r =>
    let k := (t + 2 ^ 32 - n) % 2 ^ 32
    if 0 < k ∧ k ≤ ring then (some (l, d), (t, l, d) :: r) else bellOf ring n r

/-- Fetch the next descriptor (R464). -/
def State.fetchDesc (s : State) (p q : Nat) : State :=
  let h := (s.rd .qdHead q).toNat
  if !s.qEnabled q || s.fetchHeld p || h == (s.rd .qdTail q).toNat then s else
  match s.getBytes (reqComp p) p (s.slotAddr q h) 64 with
  | (s, .wait page) => s.flashWait (.ring (Fin.ofNat 4096 q)) p page
  | (s, .bad _) => s.fetchStop p q stUncorr
  | (s, .ok v) =>
    let s := s.flashDone (.ring (Fin.ofNat 4096 q))
    let x := s.queue q
    let (b, rest) := bellOf (s.ringSize q) h x.bells
    -- a count that no doorbell of this module made visible belongs to the partition's first LD (log 52)
    let (l, d) := b.getD ((s.ldsOf p).head?.getD (0, 0))
    let s := s.setQueue q { descs := x.descs ++ [{ n := h, raw := v, link := l, ld := d }], bells := rest }
    (s.wr .qdHead (BitVec.ofNat 64 ((h + 1) % 2 ^ 32)) q).shipTable p

/-- DESC_FETCH (R464). -/
def execDescFetch (q : QueueId) (s : State) : Res :=
  .next (match s.queueOwner q with
    | none => s
    | some p => s.fetchDesc p q)

/-! Starting (R467). -/

/-- Descriptor n may start: every earlier one has started, fewer than 8 are in progress, and FENCE has its earlier ones complete. -/
def State.mayStart (s : State) (q : Nat) (d : DescSt) : Bool :=
  let l := (s.queue q).descs
  let before := l.takeWhile (fun x => x.n != d.n)
  !d.started && !d.launched && before.all (·.started) && decide ((l.filter (·.started)).length < 8)
    && (d.fld 1 1 % 2 == 0 || before.isEmpty)

/-! Checking (R469 to R473). -/

/-- First non-zero byte of a reserved run from `lo` to `hi`, at FORMAT. -/
def reservedCheck (d : DescSt) (lo hi : Nat) : List (Nat × Nat) :=
  if d.fld lo (hi - lo) = 0 then [] else [(lo, stFormat)]

/-- A check at an offset that fails. -/
def failIf (c : Bool) (off st : Nat) : List (Nat × Nat) := if c then [(off, st)] else []

/-- The check of a pool address of `n` bytes, for a read or a write (R469). -/
def State.addrCheck (s : State) (p a n align off : Nat) (write : Bool) : List (Nat × Nat) :=
  if a % align ≠ 0 then [(off, stAlign)] else
  match s.resolve p a n with
  | none => [(off, stRange)]
  | some (o, x) => failIf (write && s.inFrozen o x n) off stDenied

/-- LENGTH of a copy or fill. -/
def lengthCheck (n off : Nat) : List (Nat × Nat) :=
  if n % 64 ≠ 0 then [(off, stAlign)] else failIf (n < 64 || 2 ^ 40 < n) off stRange

/-- The failing fields of a descriptor in ascending order, each with its first status (R473). The checks of a launch's argument block and of a scrub follow it. -/
def State.descFails (s : State) (p : Nat) (d : DescSt) : List (Nat × Nat) :=
  let ty := d.fld 0 1
  let fl := d.fld 1 1
  let vec := d.fld 2 2
  let ref := d.fld 4 2
  let op := d.fld 6 1
  let head :=
    failIf (7 < ty) 0 stFormat ++ failIf (decide (4 ≤ fl)) 1 stFormat ++ failIf (2047 < vec || (vec != 0 && fl / 2 % 2 == 0)) 2 stRange
    ++ (if ref = 0xFFFF then [] else match s.objRef p ref with | .inl _ => [] | .inr st => [(4, st)])
    ++ failIf (2 < op || (op != 0 && ref == 0xFFFF)) 6 stRange ++ reservedCheck d 7 8
  let a := d.fld 0x10 8
  let b := d.fld 0x18 8
  let c := d.fld 0x20 8
  let x := d.fld 0x28 1
  let span := if c % 64 = 0 ∧ 64 ≤ c ∧ c ≤ 2 ^ 40 then c else 64
  let body := match ty with
    | 0 => reservedCheck d 0x10 0x40
    | 1 => (if a % 64 ≠ 0 then [(0x10, stAlign)] else failIf (2 ^ 47 ≤ a || s.apparent p < a + 64) 0x10 stRange) ++ reservedCheck d 0x18 0x40
    | 2 =>
      let src := if x % 2 = 1 then failIf (a % 64 != 0) 0x10 stAlign else s.addrCheck p a span 64 0x10 false
      let overlap := if x % 4 ≠ 0 then false else match s.resolve p a span, s.resolve p b span with
        | some (o, u), some (o', v) => o == o' && decide (u < v + span ∧ v < u + span)
        | _, _ => false
      let dst := if x / 2 % 2 = 1 then failIf (b % 64 != 0) 0x18 stAlign else s.addrCheck p b span 64 0x18 true
      src ++ dst ++ failIf overlap 0x18 stRange ++ lengthCheck c 0x20 ++ failIf (4 ≤ x || x == 3) 0x28 stFormat ++ reservedCheck d 0x29 0x40
    | 3 =>
      (if x / 2 % 2 = 1 then failIf (a % 64 != 0) 0x10 stAlign else s.addrCheck p a span 64 0x10 true) ++ reservedCheck d 0x18 0x20
        ++ lengthCheck c 0x20 ++ failIf (x != 0 && x != 2) 0x28 stFormat ++ reservedCheck d 0x29 0x30 ++ reservedCheck d 0x38 0x40
    | 4 =>
      let h := d.fld 0x20 1
      let lv := d.fld 0x21 1
      (if a % 65536 ≠ 0 then [(0x10, stAlign)] else failIf (decide (s.apparent p ≤ a)) 0x10 stRange)
        ++ (if b % 65536 ≠ 0 then [(0x18, stAlign)] else failIf (b == 0 || decide (s.apparent p < a + b)) 0x18 stRange)
        ++ failIf (3 < h) 0x20 stRange
        ++ failIf (if h = 0 then decide (1 < lv) else if h = 1 then lv != 1 && lv != 2 else lv != 0) 0x21 stRange ++ reservedCheck d 0x22 0x40
    | 5 =>
      let host := d.fld 0x29 1 % 2 = 1
      (if a % 65536 ≠ 0 then [(0x10, stAlign)] else failIf (decide (s.apparent p ≤ a)) 0x10 stRange)
        ++ (if b % 65536 ≠ 0 then [(0x18, stAlign)] else failIf (b == 0 || decide (s.apparent p < a + b)) 0x18 stRange)
        ++ (if c % 64 ≠ 0 then [(0x20, stAlign)]
            else if host then failIf (!(s.ld d.link d.ld).bme) 0x20 stDenied
            else failIf (decide (s.apparent p < c + 64)) 0x20 stRange ++ failIf (s.inFrozen p c 64) 0x20 stDenied)
        ++ failIf (1 < x) 0x28 stFormat ++ failIf (decide (4 ≤ d.fld 0x29 1)) 0x29 stFormat ++ reservedCheck d 0x2A 0x40
    | 6 =>
      let n := if b ≠ 0 ∧ b % 4096 = 0 then b else 4096
      s.addrCheck p a n 4096 0x10 false ++ (if b % 4096 ≠ 0 then [(0x18, stAlign)] else failIf (b == 0) 0x18 stRange) ++ reservedCheck d 0x20 0x40
    | 7 =>
      let o := d.fld 0x10 2
      let k := d.fld 0x12 1
      (if o = 0xFFFF then [(0x10, stRange)] else match s.objRef p o with | .inl _ => [] | .inr st => [(0x10, st)])
        ++ failIf (7 < k) 0x12 stRange ++ reservedCheck d 0x13 0x14
        ++ failIf (d.fld 0x14 4 != 0 && k != 2 && k != 3 && k != 5) 0x14 stRange ++ failIf (c != 0 && k != 4) 0x20 stRange ++ reservedCheck d 0x30 0x40
    | _ => []
  head ++ body

/-- No descriptor of a partition starts: quarantine, and quiescence from its request to its lift, which lets those that have started run to their end (R162, R163, R168; log 36). -/
def State.startHeld (s : State) (p : Nat) : Bool := s.quarantined p || s.rdB .prtQuiesceCtrl 0 p

/-- Start a descriptor of one type: the descriptor started, or refused with its work ended; none where it cannot start now (R467, R473). -/
def State.startDesc (s : State) (q n : Nat) (types : Nat → Bool) : Option (Nat × State × Option DescSt) :=
  match s.queueOwner q, s.desc q n with
  | some p, some d =>
    if !types (d.fld 0 1) || !s.mayStart q d || s.startHeld p then none else
    let d := { d with started := true, startAt := s.time }
    match s.descFails p d with
    | (off, st) :: _ => some (p, s.endDesc q d st off, none)
    | [] => some (p, s.setDesc q d, some d)
  | _, _ => none

/-- DESC_NOP (R470). A descriptor of unknown TYPE starts here too, and is refused (R473). -/
def execDescNop (q : QueueId) (n : Nat) (s : State) : Res :=
  .next (match s.startDesc q n (fun t => t == 0 || decide (7 < t)) with
    | some (_, s, some d) => s.endDesc q d stDone 0
    | some (_, s, none) => s
    | none => s)

/-! Completion (R477 to R480). -/

/-- A status code is a failure (R19). -/
def isFailure (st : Nat) : Bool := st != 0 && st != 0x10 && st != 0x11

/-- Steps after the completion object's change: MSI-X, counters, and the descriptor is gone (R477, R491). -/
def State.descGone (s : State) (p q : Nat) (d : DescSt) : State :=
  let st := d.status.getD 0
  let s := if d.fld 1 1 / 2 % 2 = 1 ∧ d.fld 2 2 ≤ 2047 ∧ !s.quarantined p then s.msix d.link d.ld (d.fld 2 2) else s
  let s := s.incEvt .qdDone q
  let s := if isFailure st then s.incErr .qdFailed q else s
  let x := s.queue q
  ((s.storeGone (.desc q d.n)).setQueue q { x with descs := x.descs.filter (fun e => e.n != d.n) }).shipTable p

/-- The hub a completion's epoch belongs to, and a wait for it (R534). -/
def State.awaitDesc (s : State) (p q h : Nat) (d : DescSt) (stage : Nat) : State :=
  let m := s.mirPart p
  (s.setMirPart p { m with awaiting := m.awaiting ++ [(h, s.openEpoch p h, Await.desc q d.n)] }).setDesc q { d with stage := stage }

/-- Step 3 of R477 and what follows it. -/
def State.descFinish (s : State) (p q : Nat) (d : DescSt) : State :=
  if d.stage = 2 then s.descGone p q d else
  let ref := d.fld 4 2
  let op := d.fld 6 1
  let k := if ref = 0xFFFF ∨ op = 0 then none else match s.objRef p ref with | .inl k => some k | .inr _ => none
  match k with
  | none => s.descGone p q d
  | some k =>
    let s := s.compOp k op (BitVec.ofNat 64 (d.fld 8 8))
    match s.syncOwner k with
    | some o => if s.mirSync o && o == p then s.awaitDesc p q (k % 2) d 2 else s.descGone p q d
    | none => s.descGone p q d

/-- Complete a descriptor whose work has ended (R477, R480). A write that finds no slot waits; the caller tries again. -/
def State.descComplete (s : State) (p q : Nat) (d : DescSt) : State :=
  match d.status with
  | none => s
  | some st =>
    if d.stage ≠ 0 then s else
    let a := s.slotAddr q d.n
    let lost (s : State) : State := ((s.wrB .qdStatus 4 true q).setB .queEvent 2).descFinish p q d
    if s.inFrozen p a 64 || decide (s.apparent p < a + 64) then lost s else
    let lvl := s.compLevel p q 0
    let put (s : State) (off v : Nat) : State × WriteRes :=
      let n := s.openSlots
      let (s, _, r) := (s.atLevel lvl).putRun (.desc q d.n) (reqComp p) lvl p (a + off) 8 v 0 4
      (s.compCharge p q lvl (8 + 4096 * (s.openSlots - n)), r)
    let r := match d.result with
      | none => (s, WriteRes.done)
      | some v => match put s 0x28 (v % 2 ^ 64) with
        | (s, .done) => (s.setDesc q { d with result := none }, .done)
        | r => r
    match r with
    | (s, .held) => s
    | (s, .nospace) => lost (s.nospaceRefusal p none none a)
    | (s, .done) =>
      match put s 8 (st + d.detail * 2 ^ 32) with
      | (s, .held) => s
      | (s, .nospace) => lost (s.nospaceRefusal p none none a)
      | (s, .done) => if s.mirSync p then s.awaitDesc p q (hubOf (a / 65536)) d 1 else s.descFinish p q d

/-- A hint has nothing left to wait for: no move of its frames carries it. -/
def State.hintEnded (s : State) (q n : Nat) : Bool := s.tier.moves.all (fun m => m.hint != some (q, n))
/-- The status of an ended hint (R252). -/
def State.hintStatus (s : State) (q n : Nat) : Nat := if s.tier.declined.contains (q, n) then stNospace else stDone
/-- End a hint whose moves have all committed or been declined. -/
def State.hintEnd (s : State) (q : Nat) (d : DescSt) : State :=
  if d.status.isSome || !d.started || !s.hintEnded q d.n then s else
  let st := s.hintStatus q d.n
  ({ s with tier := { s.tier with declined := s.tier.declined.filter (fun x => x != (q, d.n)) } }).endDesc q d st 0

/-- DESC_COMPLETE (R477): a hint whose frame operations have all committed or been declined has its status first (R252). -/
def execDescComplete (q : QueueId) (n : Nat) (s : State) : Res :=
  .next (match s.queueOwner q, s.desc q n with
    | some p, some d =>
      let s := if d.fld 0 1 = 4 then s.hintEnd q d else s
      match s.desc q n with
      | some d => s.descComplete p q d
      | none => s
    | _, _ => s)

end Sys2Proof.Machine
end

