-- ==== Sys2Proof/Machine/QueueWork.lean ====
section
/-! DEFINITION. What descriptors do: copies and fills, host transfers, hints, flushes, scrubs, waits on flash (R252, R253, R307, R344 to R347, R474 to R476). -/

namespace Sys2Proof.Machine

/-! Copies and fills (R474, R475). -/

/-- The work of a copy or fill ends; what a mirrored partition's partner must acknowledge holds its completion (R534). -/
def State.moveEnd (s : State) (q : Nat) (d : DescSt) (o : Nat) (status pos : Nat) : State :=
  let st := if status = stDone then 0 else pos / 4096
  let s := s.endDesc q d status st
  if s.mirSync o ∧ 0 < pos then
    let m := s.mirPart o
    let w := (List.range 2).map (fun h => (h, s.openEpoch o h, Await.desc q d.n))
    (s.setMirPart o { m with awaiting := m.awaiting ++ w }).setDesc q { d with started := true, launched := false, status := some status, detail := st, host := none, stage := 3 }
  else s

/-- A host transfer can go: Bus Master Enable, and a link that is up (R134, R475). -/
def State.dmaRefused (s : State) (d : DescSt) : Nat :=
  if !(s.ld d.link d.ld).bme then stDenied else if s.linkGone d.link then stLinkLost else stDone

/-- Bytes of the next piece of a copy or fill: up to the destination's next page boundary. -/
def pieceLen (dst pos n : Nat) : Nat := min (n - pos) (4096 - (dst + pos) % 4096)

/-- The copy's source is host memory (R471). -/
def DescSt.fromHost (d : DescSt) : Bool := d.fld 0 1 == 2 && d.fld 0x28 1 % 2 == 1

/-- Bytes of host data that have come without a gap, of pieces (offset, length) in any order. -/
def gapless (l : List (Nat × Nat)) : Nat → Nat → Nat
  | 0, have' => have'
  | fuel + 1, have' => match l.find? (fun x => decide (x.1 ≤ have' ∧ have' < x.1 + x.2)) with
    | none => have'
    | some x => gapless l fuel (x.1 + x.2)

/-- The bytes that a copy or fill writes next; host data that has not come yet is waited for without a page. -/
def State.pieceSource (s : State) (p : Nat) (d : DescSt) (dst pos m : Nat) : State × Got :=
  let fill := d.fld 0 1 = 3
  let src := d.fld 0x10 8
  if fill then (s, .ok ((256 ^ m - 1) / (2 ^ 64 - 1) * d.fld 0x30 8))
  else if d.fromHost then (s, .ok (fieldOf (d.host.getD 0) pos m))
  else match s.resolve p (src + pos) m with
    | none => (s, .bad (dst / 4096))
    | some (o, x) => s.getBytes (reqComp p) o x m

/-- Run a copy or fill from where it stands (R474): pieces in ascending order, until it ends or has to wait. -/
def State.moveRun (s : State) (p q : Nat) (d : DescSt) : Nat → State
  | 0 => s
  | fuel + 1 =>
    let n := d.fld 0x20 8
    let dst := if d.fld 0 1 = 3 then d.fld 0x10 8 else d.fld 0x18 8
    let toHost := d.fld 0x28 1 / 2 % 2 = 1
    let pos := d.pos
    let who := FlashWaiter.desc (Fin.ofNat 4096 q) d.n
    let owner := match s.resolve p dst 64 with | some (o, _) => o | none => p
    if n ≤ pos then (s.flashDone who).moveEnd q d owner stDone pos else
    let m := pieceLen dst pos n
    if d.fromHost ∧ gapless d.came (d.came.length + 1) 0 < pos + m then s.setDesc q d else
    match s.pieceSource p d dst pos m with
    | (s, .wait page) => s.flashWait who (match s.resolve p (d.fld 0x10 8) 64 with | some (o, _) => o | none => p) page
    | (s, .bad _) =>
      let bad := (s.resolve p (d.fld 0x10 8 + pos) m).isNone
      (s.flashDone who).moveEnd q d owner (if bad then stRange else stUncorr) pos
    | (s, .ok v) =>
      if toHost then
        let st := s.dmaRefused d
        if st ≠ stDone then s.endDesc q d st (pos / 4096) else
        let d := { d with pos := pos + m }
        ((s.sendUp d.link (.dmaWrite d.link d.ld (dst + pos) m v)).setDesc q d).moveRun p q d fuel
      else
        match s.resolve p (dst + pos) m with
        | none => (s.flashDone who).moveEnd q d owner stRange pos
        | some (o, x) =>
          if s.inFrozen o x m then (s.flashDone who).moveEnd q d owner stDenied pos else
          let k := s.openSlots
          let lvl := s.compLevel p q 0
          let (s, w, r) := (s.atLevel lvl).putRun (.desc q d.n) (reqComp p) lvl o x m v 0 (m / 64 + 2)
          let s := s.compCharge p q lvl (w + 4096 * (s.openSlots - k))
          let d := { d with pos := pos + w }
          match r with
          | .done => (s.setDesc q d).moveRun p q d fuel
          | .held => s.setDesc q d
          | .nospace => ((s.nospaceRefusal o none none (x + w)).flashDone who).moveEnd q d o stNospace (pos + w)

/-- Steps that a copy or fill can take: one per page of its length, and its end. -/
def moveFuel (d : DescSt) : Nat := d.fld 0x20 8 / 64 + 2

/-- The lowest CXL.io tag a link has free (log 33). -/
def LinkSt.freeTag (l : LinkSt) : Nat := ((List.range (l.ioTags.length + 1)).find? (fun t => l.ioTags.all (fun x => x.tag != t))).getD 0

/-- Non-posted requests that a link may have outstanding (R112). -/
def maxTags : Nat := 768

/-- Ask for host data (R112, R475): reads in ascending order, each no larger than the LD's Max_Read_Request_Size and inside one 4 KiB, while the link has tags free. -/
def State.hostAsk (s : State) (q : Nat) (d : DescSt) : Nat → State × DescSt
  | 0 => (s, d)
  | fuel + 1 =>
    let l := s.link d.link
    let n := d.fld 0x20 8
    let a := d.fld 0x10 8 + d.asked
    if n ≤ d.asked ∨ maxTags ≤ l.ioTags.length then (s, d) else
    let m := min (min (n - d.asked) (s.ld d.link d.ld).mrrs) (4096 - a % 4096)
    let s := (s.setLink d.link { l with ioTags := l.ioTags ++ [{ tag := l.freeTag, q := some q, n := d.n, off := d.asked, len := m }] }).sendUp d.link (.dmaRead d.link d.ld l.freeTag a m)
    s.hostAsk q { d with asked := d.asked + m } fuel

/-- A copy from host memory asks for what it can. -/
def State.askOn (s : State) (q : Nat) (d : DescSt) : State :=
  let (s, d) := s.hostAsk q d maxTags
  s.setDesc q d

/-- Start a copy or fill: a copy from host memory asks for its data first (R475). -/
def State.moveStart (s : State) (p q : Nat) (d : DescSt) : State :=
  if d.fld 0x28 1 = 0 then s.moveRun p q d (moveFuel d) else
  let st := s.dmaRefused d
  if st ≠ stDone then s.endDesc q d st 0
  else if d.fromHost then s.askOn q d
  else s.moveRun p q d (moveFuel d)

/-- A started copy or fill goes on where it waited. -/
def State.moveGoOn (s : State) (q n ty : Nat) : State :=
  match s.queueOwner q, s.desc q n with
  | some p, some d =>
    if d.fld 0 1 ≠ ty || !d.started || d.status.isSome then s
    else if d.fromHost ∧ s.dmaRefused d = stDone then
      let s := s.askOn q d
      match s.desc q n with | some d => s.moveRun p q d (moveFuel d) | none => s
    else s.moveRun p q d (moveFuel d)
  | _, _ => s

/-- DESC_COPY and DESC_FILL: start the descriptor, or let it go on (R467, R474). -/
def State.descMove (s : State) (q n ty : Nat) : State :=
  match s.startDesc q n (· == ty) with
  | some (p, s, some d) => s.moveStart p q d
  | some (_, s, none) => s
  | none => s.moveGoOn q n ty

/-- DESC_COPY (R474). -/
def execDescCopy (q : QueueId) (n : Nat) (s : State) : Res := .next (s.descMove q n 2)
/-- DESC_FILL (R474). -/
def execDescFill (q : QueueId) (n : Nat) (s : State) : Res := .next (s.descMove q n 3)

/-- Host data arrives for a descriptor (R475): the copy asks for more where it can, and goes on. -/
def State.hostCame (s : State) (p : Nat) (x : IoTag) (d : DescSt) (q data : Nat) : State :=
  let d := { d with host := some (d.host.getD 0 + data % 256 ^ x.len * 256 ^ x.off), came := d.came ++ [(x.off, x.len)] }
  let (s, d) := if s.dmaRefused d = stDone then s.hostAsk q d maxTags else (s, d)
  (s.setDesc q d).moveRun p q d (moveFuel d)

/-- CXLIO_COMPLETION (R140, R475): the data of a host read arrives; one that nothing awaits is unexpected. -/
def execCxlioCompletion (link : LinkId) (tag data : Nat) (s : State) : Res :=
  .next (
    let l := s.link link
    match takeFirst (fun (x : IoTag) => x.tag == tag) l.ioTags with
    | none => s.incErr .lnkErrUncorr link
    | some (x, rest) =>
      let s := s.setLink link { l with ioTags := rest }
      match x.q with
      | none => s
      | some q => match s.queueOwner q, s.desc q x.n with
        | some p, some d => if d.status.isSome || !d.started || !d.fromHost then s else s.hostCame p x d q data
        | _, _ => s)

/-- CXLIO_COMPLETION_TIMEOUT (R140): the descriptor that awaited the data completes with TIMEOUT (R19). -/
def execCxlioCompletionTimeout (link : LinkId) (tag : Nat) (s : State) : Res :=
  .next (
    let l := s.link link
    match takeFirst (fun (x : IoTag) => x.tag == tag) l.ioTags with
    | none => s
    | some (x, rest) =>
      let s := (s.setLink link { l with ioTags := rest }).incErr .lnkErrUncorr link
      match x.q with
      | none => s
      | some q => match s.desc q x.n with
        | some d => if d.status.isSome || !d.started then s else s.endDesc q d stTimeout (d.pos / 4096)
        | none => s)

/-! Hints (R252, R253). -/

/-- Run a hint of one kind over its span, then end it where nothing is left to wait for. -/
def State.hintRun (s : State) (q n kind : Nat) (act : State → Nat → Nat → Nat → State) : State :=
  let again (s : State) : State := match s.desc q n with
    | some d => if d.fld 0 1 = 4 ∧ d.fld 0x20 1 = kind then s.hintEnd q d else s
    | none => s
  match s.desc q n with
  | none => s
  | some d =>
    if d.fld 0 1 = 4 ∧ d.fld 0x20 1 ≠ kind ∧ !(3 < d.fld 0x20 1) then s else
    match s.startDesc q n (· == 4) with
    | some (p, s, some d) => again ((spanFrames (d.fld 0x10 8) (d.fld 0x18 8)).foldl (fun s f => act s p f (d.fld 0x21 1)) s)
    | some (_, s, none) => s
    | none => again s

/-- HINT_PREFETCH (R252). -/
def execHintPrefetch (q : QueueId) (n : Nat) (s : State) : Res :=
  .next (s.hintRun q n 0 (fun s p f lv => s.prefetchFrame p f lv (q, n)))

/-- HINT_PIN (R252, R253): all or nothing. -/
def execHintPin (q : QueueId) (n : Nat) (s : State) : Res :=
  .next (match s.queueOwner q, s.desc q n with
    | some p, some d =>
      let a := d.fld 0x10 8
      let len := d.fld 0x18 8
      if d.fld 0 1 = 4 ∧ d.fld 0x20 1 = 1 ∧ s.mayStart q d ∧ (s.descFails p d).isEmpty ∧ !s.pinFits p a len (d.fld 0x21 1) then
        match s.startDesc q n (· == 4) with
        | some (_, s, some d) => s.endDesc q d stNospace 0
        | _ => s
      else s.hintRun q n 1 (fun s p f lv => s.pinFrame p f lv (q, n))
    | _, _ => s)

/-- HINT_UNPIN (R252). -/
def execHintUnpin (q : QueueId) (n : Nat) (s : State) : Res := .next (s.hintRun q n 2 (fun s p f _ => s.unpinFrame p f))
/-- HINT_DEMOTE (R252). -/
def execHintDemote (q : QueueId) (n : Nat) (s : State) : Res := .next (s.hintRun q n 3 (fun s p f _ => s.demoteFrame p f (q, n)))

/-! Flushes (R213, R476). -/

/-- DESC_FLUSH (R476). -/
def execDescFlush (q : QueueId) (n : Nat) (s : State) : Res :=
  .next (match s.startDesc q n (· == 6) with
    | some (p, s, some d) =>
      (match s.resolve p (d.fld 0x10 8) (d.fld 0x18 8) with
      | none => s.endDesc q d stRange 0x10
      | some (o, a) => s.startFlush (.desc q n) (fun x => x.part == o && decide (a ≤ x.page * 4096 ∧ x.page * 4096 < a + d.fld 0x18 8)))
    | some (_, s, none) => s
    | none => s)

/-- FLUSH_COMPLETE (R213): every commit that a flush awaits has come. -/
def execFlushComplete (who : FlushWho) (s : State) : Res :=
  .next (if !s.flushReady who then s else
    let s := s.flushEnd who
    match who with
    | .part p => s.clrB .lnsPFlushCtrl 0 p
    | .desc q n => match s.desc q n with
      | some d => s.endDesc q d stDone 0
      | none => s)

/-! Scrubs (R344 to R347). -/

/-- What a scrub pass has found. -/
structure ScrubSum where
  repl : Nat := 0
  remapped : Nat := 0
  read : Nat := 0
  corrected : Nat := 0
  rewritten : Nat := 0
  uncorr : Nat := 0
  first : Option Nat := none
  last : Nat := 0
  retired : Nat := 0
  /-- Pages that were uncorrectable. -/
  bad : List Nat := []
  /-- Pages corrected or uncorrectable, in order. -/
  faults : List Nat := []
  deriving DecidableEq, Repr

/-- Remap entries in use (R339). -/
def State.remapCount (s : State) : Nat := (s.regs.filter (fun e => e.1 / (8192 * 8192) == RegName.eccChRemap.ctorIdx)).length
/-- Retirements asked for (R340). -/
def State.retireCount (s : State) : Nat := (s.tier.moves.filter (fun m => m.kind == .retire)).length

/-- A pass marks a faulting page. -/
def ScrubSum.fault (x : ScrubSum) (a : Nat) : ScrubSum := { x with first := some (x.first.getD a), last := a, faults := x.faults ++ [a] }

/-- Check one page of a frame (R345). `fix`: MODE 1. -/
def State.scrubPage (s : State) (p f k : Nat) (fix replicas : Bool) (x : ScrubSum) : State × ScrubSum :=
  let e := s.frame p f
  let g := e.page k
  let page := 16 * f + k
  let a := 4096 * page
  if e.state = .zero ∨ (e.constPage k).isSome then (s, x)
  else if g.codec = 7 then (s, { (x.fault a) with uncorr := x.uncorr + 1, bad := x.bad ++ [page] })
  else if g.allot = 0 then (s, x)
  else
    let c := s.homeCopy e
    -- scrub reads are background traffic, at SCRUB_RATE at most (R345, R512)
    let (s, r) := (s.background (hubOf f) 1 (s.rdF .eccStrength 24 8) (64 * usedSectors g.len)).readStored reqScrub c k g.len g.errs true
    let x := { x with read := x.read + (c.written k g.len).length }
    let q := if r.ok then deliver g (s.poolPage p page) r.left else { ok := false }
    let (s, x) :=
      if !q.ok then (s.countUncorr, { (x.fault a) with uncorr := x.uncorr + usedSectors g.len, bad := x.bad ++ [page] })
      else if !r.fixed then (s, x)
      else
        let s := (s.countCorr c.tier r.symbols r.sectors).touchPage p page
        let x := { (x.fault a) with corrected := x.corrected + ((g.errs.map (fun b => c.sectorOf k g.len b.off)).eraseDups).length }
        if fix && (s.slot p page).isNone then
          let m := s.remapCount
          let t := s.retireCount
          let s := s.writeBack p page reqScrub q.data q.poison r.rewrite
          if (s.slot p page).isSome then
            let s := s.drainSlot p page
            (s, { x with rewritten := x.rewritten + r.rewrite.length, remapped := x.remapped + (s.remapCount - m), retired := x.retired + (s.retireCount - t) })
          else (s, x)
        else (s, x)
    if !replicas || !s.frozenFrame p f then (s, x) else
    match (s.frame p f).repl with
    | none => (s, x)
    | some t =>
      let rc := s.replCopy e t
      let (s, rr) := s.readStored reqScrub rc k g.len g.replErrs false
      let x := { x with read := x.read + (rc.written k g.len).length }
      if rr.ok ∧ rr.symbols = 0 ∧ (deliver g (s.poolPage p page) rr.left).ok then (s, x)
      else (if fix then s.dropReplica p f else s, { x with repl := x.repl + 1 })

/-- A pass over a span (R345). -/
def State.scrubSpan (s : State) (p a n : Nat) (fix replicas : Bool) : State × ScrubSum :=
  let fs := s.framesOf p
  let go := fs.filter (fun x => decide (a / 65536 ≤ x.1 ∧ x.1 < (a + n) / 65536))
  go.foldl (fun (r : State × ScrubSum) x => (List.range 16).foldl (fun (r : State × ScrubSum) k => r.1.scrubPage p x.1 k fix replicas r.2) r) (s, {})

/-- The summary record (R346). -/
def ScrubSum.record (x : ScrubSum) (status us : Nat) (stopped : Bool) : Nat :=
  status + ((if stopped then 1 else 0) + (if x.first.isSome then 2 else 0)) * 2 ^ 8 + min x.repl 65535 * 2 ^ 16 + x.remapped % 2 ^ 32 * 2 ^ 32
    + x.read * 2 ^ 64 + x.corrected * 2 ^ 128 + x.rewritten * 2 ^ 192 + x.uncorr * 2 ^ 256 + x.first.getD 0 * 2 ^ 320 + x.last * 2 ^ 384
    + x.retired % 2 ^ 32 * 2 ^ 448 + min us (2 ^ 32 - 1) * 2 ^ 480

/-- Write a summary where the descriptor asks (R344, R347). `true` where it was written or has no place; false where it must wait for a slot. -/
def State.putSummary (s : State) (p q : Nat) (d : DescSt) (v : Nat) (hostToo : Bool) : State × Bool :=
  let a := d.fld 0x20 8
  if d.fld 0x29 1 % 2 = 1 then
    (if hostToo ∧ s.dmaRefused d = stDone then s.sendUp d.link (.dmaWrite d.link d.ld a 64 v) else s, true)
  else if s.inFrozen p a 64 ∨ s.apparent p < a + 64 then (s, true)
  else
    let lvl := s.compLevel p q 0
    let (s, _, r) := (s.atLevel lvl).putRun (.desc q d.n) (reqComp p) lvl p a 64 v 0 3
    match r with
    | .held => (s, false)
    | .nospace => (s.nospaceRefusal p none none a, true)
    | .done => (s, true)

/-- DESC_SCRUB (R344). -/
def execDescScrub (q : QueueId) (n : Nat) (s : State) : Res :=
  .next (match s.startDesc q n (· == 5) with
    | some (_, s, _) => s
    | none => s)

/-- SCRUB_PASS_COMPLETE (R347): the pass of a started scrub descriptor, whole, then its summary. -/
def execScrubPassComplete (q : QueueId) (n : Nat) (s : State) : Res :=
  .next (match s.queueOwner q, s.desc q n with
    | some p, some d =>
      if d.fld 0 1 ≠ 5 || !d.started || d.status.isSome then s else
      let (s1, x) := s.scrubSpan p (d.fld 0x10 8) (d.fld 0x18 8) (d.fld 0x28 1 == 1) (d.fld 0x29 1 / 2 % 2 == 1)
      let st := if 0 < x.uncorr then stUncorr else stDone
      -- a summary that Bus Master Enable or a lost link keeps from host memory ends the scrub with that refusal (R134)
      let st := if d.fld 0x29 1 % 2 = 1 ∧ s1.dmaRefused d ≠ stDone then s1.dmaRefused d else st
      match s1.putSummary p q d (x.record st ((s1.time - d.startAt) / 1000) false) true with
      | (s2, true) => s2.endDesc q d st 0
      | (s2, false) => s2
    | _, _ => s)

end Sys2Proof.Machine
end

