-- ==== Sys2Proof/Machine/Kernel.lean ====
section
/-! DEFINITION. Launches: argument blocks, code and step-list checks, cluster choice, dispatch, kernel end and core reset (R353 to R374, R419 to R422). -/

namespace Sys2Proof.Machine

/-- A number of the argument block's bytes (R373). -/
def argFld (b : List Byte) (off n : Nat) : Nat := ofBytes ((b.drop off).take n)
/-- A number of a kernel's argument block. -/
def KernelSt.arg (k : KernelSt) (off n : Nat) : Nat := argFld k.block off n
/-- KERNEL_ID. -/
def KernelSt.lid (k : KernelSt) : Nat := k.arg 0 2
/-- Cores of a kernel, ascending rank (R361). -/
def KernelSt.cores (k : KernelSt) : List Nat := k.clusters.flatMap (fun c => (List.range 8).map (8 * c + ·))

/-! The check of instruction words (R420, R431 to R454). -/

/-- A field that must be 0. -/
def zeroBits (w : Word) (lo n : Nat) : Nat := if fld w lo n = 0 then stDone else stFormat

/-- The first status that is not DONE. -/
def firstBad (l : List Nat) : Nat := (l.find? (· != stDone)).getD stDone

/-- IMM as a signed number. -/
def immOf (w : Word) : Int := (BitVec.ofNat 32 (fld w 0 32)).toInt

/-- Which of the format R fields D, A, B, EXT, IMM an opcode uses (R431 to R437, R454). -/
def usesR (op : Nat) : Bool × Bool × Bool × Bool × Bool :=
  if op = 0 ∨ op = 1 then (false, false, false, false, false)
  else if op = 2 then (false, false, false, false, true)
  else if 3 ≤ op ∧ op ≤ 7 then (false, true, true, false, true)
  else if op = 8 then (true, true, false, false, true)
  else if op = 9 then (true, false, false, false, true)
  else if op = 0x0A ∨ op = 0x0B then (true, false, false, false, true)
  else if op = 0x0C then (false, false, false, false, true)
  else if 0x10 ≤ op ∧ op ≤ 0x1A then (true, true, true, false, true)
  else if op = 0x1B ∨ op = 0x1C then (true, false, false, false, true)
  else if op = 0x24 ∨ op = 0x26 ∨ op = 0x27 then (true, true, false, false, false)
  else if 0x20 ≤ op ∧ op ≤ 0x28 then (true, true, true, false, false)
  else if op = 0x30 ∨ op = 0x31 then (true, true, false, true, true)
  else (true, true, true, true, true)

/-- The check of a format R word. -/
def checkR (w : Word) : Nat :=
  let op := fld w 56 8
  let i := fld w 40 1
  let (d, a, b, e, im) := usesR op
  let alu := 0x10 ≤ op ∧ op ≤ 0x1A
  let useB := b && !(alu && i == 1)
  let useI := if alu then i == 1 else im
  let imN := fld w 0 32
  let limits := match op with
    | 0x08 => if fld w 51 5 ≤ 3 then stDone else stRange
    | 0x09 => if fld w 51 5 ≤ 3 then stDone else stRange
    | 0x0A => if imN ≤ 7 then stDone else stRange
    | 0x0B => if 64 < imN ∨ (i = 0 ∧ 7 < fld w 51 5) ∨ (i = 1 ∧ fld w 51 5 ≠ 0) then stRange else stDone
    | 0x0C => if imN ≤ 3 then stDone else stRange
    | 0x30 => if [2, 3, 5].contains (fld w 37 3) then stDone else stRange
    | 0x31 => if [2, 3, 5].contains (fld w 37 3) then stDone else stRange
    | 0x70 =>
      let o := imN % 16
      if 7 < o then stRange else firstBad [zeroBits w 4 28, if 4 < o then zeroBits w 41 5 else stDone, if o ≠ 4 then zeroBits w 35 5 else stDone]
    | _ => stDone
  firstBad [limits,
    if i = 1 ∧ !(alu || op == 0x0B) then stFormat else stDone,
    if d then stDone else zeroBits w 51 5, if a then stDone else zeroBits w 46 5, if useB then stDone else zeroBits w 41 5,
    if e then zeroBits w 32 3 else zeroBits w 32 8, if useI then stDone else zeroBits w 0 32]

/-- An engine mask is non-zero exactly where a field uses it (R438, R441, R447). -/
def maskOk (used : Bool) (em : Nat) : Nat := if used == (em != 0) then stDone else stRange

/-- The check of one instruction word: DONE, RANGE or FORMAT (R420). -/
def checkWord (w : Word) : Nat :=
  match fld w 56 8 with
  | 0x38 =>
    let dsp := fld w 43 3
    firstBad [if dsp ≤ 3 then stDone else stRange, if dsp = 1 then stDone else maskOk (dsp == 0) (fld w 39 4),
      if dsp = 1 ∧ 15 < fld w 33 6 then stRange else stDone, zeroBits w 0 30]
  | 0x39 => firstBad [if 1 ≤ fld w 43 3 ∧ fld w 43 3 ≤ 4 then stDone else stRange, zeroBits w 39 4, zeroBits w 0 26]
  | 0x3A =>
    let dsp := fld w 43 3
    let ssp := fld w 40 3
    firstBad [if dsp ≤ 4 ∧ ssp ≤ 4 then stDone else stRange, maskOk (dsp == 0 || ssp == 0) (fld w 36 4), zeroBits w 0 19]
  | 0x40 =>
    let wf := fld w 11 3
    let af := fld w 8 3
    let wsrc := fld w 35 1
    let xsrc := fld w 34 1
    firstBad [if wf ≤ 5 ∧ af ≤ 5 then stDone else stRange,
      if wsrc = 1 ∧ (wf ≤ 3 ∨ (wf = 5 ∧ fld w 30 4 = 15)) then stRange else stDone,
      if (if af = 3 ∨ af = 4 then 31 else 63) < fld w 14 6 + fld w 20 6 then stRange else stDone,
      if wsrc = 1 then zeroBits w 46 5 else zeroBits w 30 4, if 3 < wf then zeroBits w 41 5 else stDone,
      if xsrc = 0 then zeroBits w 36 5 else zeroBits w 26 4, zeroBits w 0 7]
  | 0x48 =>
    let dsp := fld w 50 3
    firstBad [if dsp ≤ 3 then stDone else stRange, maskOk (dsp == 0) (fld w 46 4), if fld w 33 3 ≤ 6 then stDone else stRange,
      if fld w 31 2 ≤ 2 then stDone else stRange, if 63 < fld w 25 6 + fld w 19 6 then stRange else stDone, zeroBits w 0 19]
  | 0x60 =>
    let fn := fld w 51 5
    let red := 13 ≤ fn
    let two := fn ≤ 7 || fn = 13
    let bsc := fld w 28 1 = 1
    firstBad [if fn ≤ 15 then stDone else stRange, if red ∧ fld w 48 3 ≠ 0 then stRange else stDone,
      if 63 < fld w 36 6 + fld w 30 6 then stRange else stDone, if bsc ∧ 7 < fn then stRange else stDone,
      if fn = 12 then zeroBits w 45 3 else stDone, if two ∧ !bsc then stDone else zeroBits w 42 3,
      if bsc ∨ red then stDone else zeroBits w 23 5, zeroBits w 0 23]
  | op => if op ≤ 0x0C ∨ (0x10 ≤ op ∧ op ≤ 0x1C) ∨ (0x20 ≤ op ∧ op ≤ 0x28) ∨ op = 0x30 ∨ op = 0x31 ∨ op = 0x70 then checkR w else stRange

/-- The words of a program. -/
def codeWords (v n : Nat) : List Word := (List.range (n / 8)).map (fun i => BitVec.ofNat 64 (v / 2 ^ (64 * i)))
/-- The check of a program (R420). -/
def checkCode (l : List Word) : Nat := firstBad (l.map checkWord)

/-! The check of an argument block (R358, R373, R376, R378, R393). -/

/-- A failing field of the argument block: bit 31 marks it in DETAIL (R479). -/
def argFail (off st : Nat) : List (Nat × Nat) := [(2 ^ 31 + off, st)]

/-- An address that a kernel reads, at a field of the block. -/
def State.inCheck (s : State) (p a n align off : Nat) : List (Nat × Nat) :=
  if a % align ≠ 0 then argFail off stAlign else if (s.resolve p a n).isNone then argFail off stRange else []
/-- An address that a kernel writes. -/
def State.outCheck (s : State) (p a n align off : Nat) : List (Nat × Nat) :=
  if a % align ≠ 0 then argFail off stAlign else match s.resolve p a n with
    | none => argFail off stRange
    | some (o, x) => if s.inFrozen o x n then argFail off stDenied else []

/-- Bytes of the fields each kernel takes after the common header, packed in the order of R378 (log 35). -/
def argNeed (id : Nat) : Nat :=
  match id with | 0 => 64 | 1 => 64 + 20 | 2 => 64 + 36 | 3 => 64 + 40 | 4 => 64 + 45 | 5 => 64 + 35 | _ => 64 + 69

/-- The entries of a step list. -/
def stepEntries (v n : Nat) : List Nat := (List.range n).map (fun i => fieldOf v (64 * i) 64)

/-- The check of one step (R376, R393): its status. -/
def State.stepCheck (s : State) (p cols e : Nat) : Nat :=
  let op := byteOf e 0
  let wf := byteOf e 1
  let af := byteOf e 2
  let ofm := byteOf e 3
  let m := fieldOf e 4 4
  let k := fieldOf e 8 4
  let mm := op = 1 ∨ op = 6
  let st (l : List (Nat × Nat)) : Nat := match l with | [] => stDone | (_, x) :: _ => x
  firstBad [if 1 ≤ op ∧ op ≤ 6 then stDone else stRange, if wf ≤ 5 then stDone else stRange, if af ≤ 5 then stDone else stRange, if ofm ≤ 6 then stDone else stRange,
    if m % 64 = 0 ∧ 64 ≤ m ∧ m ≤ 262144 then stDone else stRange, if k % 64 = 0 ∧ 64 ≤ k ∧ k ≤ 262144 then stDone else stRange,
    if fieldOf e 12 4 = 0 then stDone else stFormat,
    if mm then st (s.inCheck p (fieldOf e 16 8) (if wf = 4 then m * k else if wf = 5 then 2 * m * k else 4096) (if wf ≤ 3 then 4096 else 1) 0)
      else (if fieldOf e 16 8 = 0 then stDone else stRange),
    st (s.inCheck p (fieldOf e 24 8) (cols * colBytes af k) 64 0), st (s.outCheck p (fieldOf e 32 8) (cols * colBytes ofm m) 64 0),
    if mm then (if fieldOf e 40 8 = 0 then stDone else stRange) else if (s.resolve p (fieldOf e 40 8) 1).isSome then stDone else stRange,
    if fieldOf e 48 16 = 0 then stDone else stFormat]

/-- What the checks of tables can come to. -/
inductive TableCheck where
  | fails (l : List (Nat × Nat))
  | wait (part page : Nat)
  deriving DecidableEq, Repr

/-- Read a table that the block names. -/
def State.readTable (s : State) (p a n off : Nat) (check : Nat → List (Nat × Nat)) : State × TableCheck :=
  match s.resolve p a n with
  | none => (s, .fails (argFail off stRange))
  | some (o, x) => match s.getBytes (reqComp p) o x n with
    | (s, .wait page) => (s, .wait o page)
    | (s, .bad _) => (s, .fails (argFail off stUncorr))
    | (s, .ok v) => (s, .fails (check v))

/-- A step list at a field. -/
def State.stepsCheck (s : State) (p a n cols off : Nat) : State × TableCheck :=
  s.readTable p a (64 * n) off (fun v => match firstBad ((stepEntries v n).map (s.stepCheck p cols)) with | 0 => [] | st => argFail off st)

/-- The entries of a TREE (R358, R378, R379): one that breaks the PARENT rule is RANGE, one with a reserved byte set FORMAT. -/
def treeCheck (v n : Nat) : Nat :=
  firstBad ((List.range n).map (fun i =>
    let e := fieldOf v (8 * i) 8
    if if i = 0 then e % 65536 = 0xFFFF else e % 65536 < i then (if fieldOf e 2 2 = 0 then stDone else stFormat) else stRange))

/-- One check after another: the first that fails or waits decides. -/
def TableCheck.next (r : State × TableCheck) (f : State → State × TableCheck) : State × TableCheck :=
  match r with
  | (s, .fails []) => f s
  | r => r

/-- The fields of a library kernel (R378). -/
def State.libCheck (s : State) (p : Nat) (b : List Byte) : State × TableCheck :=
  let g := argFld b
  let ok (s : State) (l : List (Nat × Nat)) : State × TableCheck := (s, .fails l)
  let rng (c : Bool) (off : Nat) : List (Nat × Nat) := if c then [] else argFail off stRange
  match g 0 2 with
  | 1 =>
    let n := g 0x48 2
    let c := g 0x4A 2
    TableCheck.next (ok s (s.inCheck p (g 0x40 8) (64 * n) 1 0x40 ++ rng (1 ≤ n && n ≤ 4096) 0x48 ++ rng (1 ≤ c && c ≤ 16) 0x4A
      ++ (if g 0x4C 8 = 0 then [] else s.outCheck p (g 0x4C 8) (4 * c) 1 0x4C))) (fun s =>
    s.stepsCheck p (g 0x40 8) n c 0x40)
  | 2 =>
    let n := g 0x48 2
    let c := g 0x4A 2
    TableCheck.next (ok s (s.inCheck p (g 0x40 8) (64 * n) 1 0x40 ++ rng (1 ≤ n && n ≤ 4096) 0x48 ++ rng (1 ≤ c && c ≤ 256) 0x4A
      ++ s.inCheck p (g 0x4C 8) (8 * c) 1 0x4C ++ s.outCheck p (g 0x54 8) (4 * c) 1 0x54 ++ s.outCheck p (g 0x5C 8) 512 1 0x5C)) (fun s =>
    TableCheck.next (s.stepsCheck p (g 0x40 8) n c 0x40) (fun s =>
    s.readTable p (g 0x4C 8) (8 * c) 0x4C (fun v => match treeCheck v c with | 0 => [] | st => argFail 0x4C st)))
  | 3 =>
    let h := g 0x5C 2
    let kv := g 0x5E 2
    ok s (s.inCheck p (g 0x40 8) 1 1 0x40 ++ s.inCheck p (g 0x48 8) 1 1 0x48 ++ s.outCheck p (g 0x50 8) 1 1 0x50
      ++ rng (1 ≤ g 0x58 4 && decide (g 0x58 4 ≤ 2 ^ 24)) 0x58 ++ rng (1 ≤ h && h ≤ 256) 0x5C ++ rng (kv != 0 && h % kv == 0) 0x5E
      ++ rng ([64, 128, 256].contains (g 0x60 2)) 0x60 ++ rng (g 0x62 1 == 0 || g 0x62 1 == 3) 0x62)
  | 4 =>
    let e := g 0x68 2
    let c := g 0x6B 2
    ok s (s.inCheck p (g 0x40 8) 64 1 0x40 ++ s.inCheck p (g 0x48 8) (16 * e) 1 0x48 ++ s.inCheck p (g 0x50 8) 1 1 0x50 ++ s.outCheck p (g 0x58 8) 1 1 0x58
      ++ s.outCheck p (g 0x60 8) (c * g 0x6A 1 * 2) 1 0x60 ++ rng (1 ≤ e && e ≤ 1024) 0x68 ++ rng (1 ≤ g 0x6A 1 && g 0x6A 1 ≤ 8) 0x6A ++ rng (1 ≤ c && c ≤ 256) 0x6B)
  | 5 =>
    let x := g 0x5A 2
    let y := g 0x5C 2
    let z := g 0x5E 2
    let cells := x * y * z * g 0x60 1 * (if g 0x63 1 = 1 then 8 else 4)
    TableCheck.next (ok s (s.inCheck p (g 0x40 8) cells 1 0x40 ++ s.outCheck p (g 0x48 8) cells 1 0x48 ++ rng (1 ≤ g 0x58 2 && g 0x58 2 ≤ 4096) 0x58
      ++ rng (1 ≤ x && x ≤ 4096) 0x5A ++ rng (1 ≤ y && y ≤ 4096) 0x5C ++ rng (1 ≤ z && z ≤ 4096 && decide (x * y * z ≤ 2 ^ 30)) 0x5E
      ++ rng (1 ≤ g 0x60 1 && g 0x60 1 ≤ 64) 0x60 ++ rng (1 ≤ g 0x61 1 && g 0x61 1 ≤ 4) 0x61 ++ rng (decide (g 0x62 1 ≤ 1)) 0x62 ++ rng (decide (g 0x63 1 ≤ 1)) 0x63))
      (fun s => s.stepsCheck p (g 0x50 8) (g 0x58 2) 1 0x50)
  | _ =>
    let rows := g 0x68 4
    let nnz := g 0x6C 8
    let w := if g 0x74 1 = 1 then 8 else 4
    ok s (s.inCheck p (g 0x40 8) (8 * (rows + 1)) 1 0x40 ++ s.inCheck p (g 0x48 8) (4 * nnz) 1 0x48 ++ s.inCheck p (g 0x50 8) (w * nnz) 1 0x50
      ++ s.inCheck p (g 0x58 8) 1 1 0x58 ++ s.outCheck p (g 0x60 8) (w * rows) 1 0x60 ++ rng (1 ≤ rows && decide (rows ≤ 2 ^ 30)) 0x68
      ++ rng (1 ≤ nnz && decide (nnz ≤ 2 ^ 36)) 0x6C ++ rng (decide (g 0x74 1 ≤ 1)) 0x74)

/-- Clusters of a partition's mask (R353). -/
def State.maskOf (s : State) (p : Nat) : List Nat := (List.range 32).filter (fun n => (s.part p).comp.testBit n)

/-- The failing fields of the common header (R358, R373). -/
def State.headCheck (s : State) (p args : Nat) (b : List Byte) : List (Nat × Nat) :=
  let g := argFld b
  let id := g 0 2
  let len := g 2 2
  let bad (c : Bool) (off st : Nat) : List (Nat × Nat) := if c then argFail off st else []
  bad (id != 0 && !(id ≤ 6 && s.rdB .cmpLibKernels id)) 0 stFormat
    ++ (if len % 64 ≠ 0 ∨ len < 64 ∨ 4096 < len ∨ s.apparent p < args + len then argFail 2 stRange else bad (decide (len < argNeed id)) 2 stFormat)
    ++ bad (g 4 1 == 0 || decide (32 < g 4 1) || decide ((s.maskOf p).length < g 4 1)) 4 stRange ++ bad (decide (1 < g 5 1)) 5 stRange
    ++ (let r := g 8 8
        if r = 0 then [] else if r % 64 ≠ 0 then argFail 8 stAlign
        else bad (decide (2 ^ 47 ≤ r) || decide (s.apparent p < r + 64) || s.inFrozen p r 64) 8 stDenied)
    ++ (if id = 0 then s.inCheck p (g 0x10 8) (g 0x18 4) 8 0x10 else bad (g 0x10 8 != 0) 0x10 stRange)
    ++ bad (if id = 0 then decide (g 0x18 4 < 8 ∨ 65536 < g 0x18 4 ∨ g 0x18 4 % 8 ≠ 0) else g 0x18 4 != 0) 0x18 stRange
    ++ bad (g 0x1C 36 != 0) 0x1C stFormat

/-- A descriptor that reads pool data waits on a page. -/
def State.descWait (s : State) (q n o page : Nat) : State := s.flashWait (.desc (Fin.ofNat 4096 q) n) o page

/-- Read the argument block: its first 64 bytes give its length (R373). -/
def State.readArgs (s : State) (p a : Nat) : State × Got :=
  match s.getBytes (reqComp p) p a 64 with
  | (s, .ok v) =>
    let len := fieldOf v 2 2
    if len ≤ 64 ∨ 4096 < len ∨ s.apparent p < a + len then (s, .ok v) else s.getBytes (reqComp p) p a len
  | r => r

/-- The checks of a launch after its descriptor's own (R358, R420): its argument block, or what refuses it. -/
def State.launchCheck (s : State) (p a : Nat) (b : List Byte) : State × TableCheck :=
  match s.headCheck p a b with
  | (off, st) :: r => (s, .fails ((off, st) :: r))
  | [] =>
    if argFld b 0 2 ≠ 0 then s.libCheck p b else
    let n := argFld b 0x18 4
    match s.resolve p (argFld b 0x10 8) n with
    | none => (s, .fails (argFail 0x10 stRange))
    | some (o, x) => match s.getBytes (reqComp p) o x n with
      | (s, .wait page) => (s, .wait o page)
      | (s, .bad _) => (s, .fails [])   -- the kernel ends with FETCH_FAULT once dispatched (R421)
      | (s, .ok v) => (s, .fails (match checkCode (codeWords v n) with | 0 => [] | st => argFail 0x10 st))

/-- DESC_LAUNCH (R358, R359): a launch whose checks pass waits for its clusters. -/
def execDescLaunch (q : QueueId) (n : Nat) (s : State) : Res :=
  .next (match s.queueOwner q, s.desc q n with
    | some p, some d =>
      if d.fld 0 1 ≠ 1 || !s.mayStart q d || s.startHeld p then s
      else match s.descFails p d with
        | (off, st) :: _ => s.endDesc q d st off
        | [] =>
          if s.hup.flushAt.isSome then s
          else if s.rdF .pwrState 0 2 ≠ 0 ∨ s.rdB .pwrState 7 then s.wakeBy 0 2 0
          else
            if (s.part p).comp = 0 ∨ s.rdB .strStatus 5 then s.endDesc q d stDenied 0 else
            let a := d.fld 0x10 8
            match s.readArgs p a with
            | (s, .wait page) => s.descWait q n p page
            | (s, .bad _) => (s.flashDone (.desc q n)).endDesc q d stUncorr 0x10
            | (s, .ok v) =>
              let b := bytesOf (max 64 (fieldOf v 2 2)) v
              match s.launchCheck p a b with
              | (s, .wait o page) => s.descWait q n o page
              | (s, .fails ((off, st) :: _)) => (s.flashDone (.desc q n)).endDesc q d st off
              | (s, .fails []) =>
                let k : KernelSt := { id := s.comp.nextKid, part := p, queue := q, count := n, block := b }
                let s := (s.flashDone (.desc q n)).setDesc q { d with launched := true }
                { s with comp := { s.comp with kernels := s.comp.kernels ++ [k], nextKid := s.comp.nextKid + 1 } }
    | _, _ => s)

/-! Dispatch (R356, R357, R361, R410, R419 to R422). -/

/-- Clusters of a partition that run nothing, in the order of the dispatcher's key (R356). -/
def State.freeClusters (s : State) (p : Nat) : List Nat :=
  let busy := s.comp.kernels.flatMap (·.clusters)
  sortBy (fun (n : Nat) => n % 8 * 4 + n / 8) ((s.maskOf p).filter (fun n => !busy.contains n))

/-- The launch that the dispatcher picks (R357). -/
def State.pickLaunch (s : State) (p : Nat) : Option KernelSt :=
  let ptr := s.comp.rr.getD p 0
  leastBy (fun (k : KernelSt) => let i := s.queueIdx p k.queue; if ptr ≤ i then i - ptr else 4096 + i) (s.comp.kernels.filter (fun k => k.part == p && !k.running))

/-- The registers and the argument copy of a core at the first instruction (R361, R422). -/
def startCore (x : CoreSt) (kid rank n q args : Nat) (block : List Byte) (code : List Word) : CoreSt :=
  { kid := some kid, s := [BitVec.ofNat 64 args, BitVec.ofNat 64 rank, BitVec.ofNat 64 n, BitVec.ofNat 64 q] ++ List.replicate 28 0,
    imem := ((List.range code.length).zip code).filter (fun e => e.2 != 0),
    mem := x.mem.writeN 0x1FF000 4096 (ofBytes block), bufs := x.bufs }

/-- Give a launch its clusters and start its cores; `code` is its program. -/
def State.startKernel (s : State) (k : KernelSt) (cl : List Nat) (code : List Word) (fault : Option EndCause) : State :=
  let p := k.part
  let n := k.arg 4 1
  let stoch := k.arg 5 1 = 1
  let no := s.rd .qdLaunchNo k.queue
  let seed := (s.rd .qdSeed k.queue).toNat
  let s := if stoch then (s.wr .qdLaunchNo (no + 1) k.queue).shipTable p else s
  let args := match s.desc k.queue k.count with | some d => d.fld 0x10 8 | none => 0
  let cl := sortBy (fun (c : Nat) => c) cl
  let k := { k with running := true, clusters := cl, startAt := s.time, seed := seed, launchNo := no.toNat,
                    reflect := s.rd .cmpPReflect p, lib := s.rd .cmpLibVersion, fault := fault }
  let s := s.setKernel k
  let s := cl.foldl (fun s c => (s.wrB .cmpClState 5 true c).wrF .cmpClState 16 12 k.queue c) s
  let s := ((List.range k.cores.length).zip k.cores).foldl (fun s x =>
    (s.setCore x.2 (startCore (s.core x.2) k.id x.1 (8 * n) k.queue args k.block code)).wrF .cmpCoreState 0 3 2 x.2) s
  match s.desc k.queue k.count with
  | some d => s.setDesc k.queue { d with started := true, launched := false, startAt := s.time }
  | none => s

/-- A launch leaves the dispatcher. -/
def State.dropKernel (s : State) (id : Nat) : State :=
  let s := s.storeGone (.kernel id)
  { s with comp := { s.comp with kernels := s.comp.kernels.filter (fun k => k.id != id) } }

/-- KERNEL_DISPATCH (R356). -/
def execKernelDispatch (p : PartId) (s : State) : Res :=
  .next (match s.pickLaunch p with
    | none => s
    | some k =>
      let idx := s.queueIdx p k.queue
      let n := k.arg 4 1
      let cl := s.freeClusters p
      if s.hup.flushAt.isSome then s
      else if s.rdF .pwrState 0 2 ≠ 0 ∨ s.rdB .pwrState 7 then s.wakeBy 0 2 0
      else if s.quarantined p then s
      else if cl.length < n then { s with comp := { s.comp with rr := s.comp.rr.set p idx } }
      else
        let go (s : State) (code : List Word) (fault : Option EndCause) : State :=
          ({ s with comp := { s.comp with rr := s.comp.rr.set p (idx + 1) } }.flashDone (.kernel k.id)).startKernel k (cl.take n) code fault
        if k.lid ≠ 0 then go s [] none else
        let len := k.arg 0x18 4
        match s.resolve p (k.arg 0x10 8) len with
        | none => go s [] (some .range)
        | some (o, x) => match s.getBytes (reqComp p) o x len with
          | (s, .wait page) => s.flashWait (.kernel k.id) o page
          | (s, .bad _) => go s [] (some .fetchFault)
          | (s, .ok v) =>
            let code := codeWords v len
            match checkCode code with
            | 0 => go s code none
            | st => match s.desc k.queue k.count with
              | some d => (s.dropKernel k.id).endDesc k.queue d st (2 ^ 31 + 0x10)
              | none => s.dropKernel k.id)

/-! Kernel end (R369 to R371, R374). -/

/-- The status of an early end (R369). -/
def causeStatus : EndCause → Nat
  | .normal => stDone
  | .fetchFault => stFetch
  | .uncorrectable => stUncorr
  | .range => stRange
  | .denied => stDenied
  | .nospace => stNospace
  | .timeLimit => stTimeout
  | .crossing => stTimeout
  | .reset => stReset
  | .quarantined => stQuar

/-- What an awaited acknowledgement is for one of some cores. -/
def Await.ofCores (l : List Nat) : Await → Bool
  | .store c _ _ _ _ => l.contains c
  | .sync (.core c) _ _ => l.contains c.val
  | _ => false

/-- Cores that stop wait for nothing any more. -/
def State.dropCoreWaits (s : State) (l : List Nat) : State :=
  let s := l.foldl (fun (s : State) c => s.storeGone (.core c)) s
  let s := s.sync.foldl (fun (s : State) e =>
    let o := s.obj e.1
    s.setObj e.1 { o with waits := o.waits.filter (fun w => match w.src with | .core c => !l.contains c.val | .desc _ _ => true) }) s
  (List.range 16).foldl (fun s p =>
    let m := s.mirPart p
    s.setMirPart p { m with awaiting := m.awaiting.filter (fun x => !x.2.2.ofCores l) }) s

/-- The row of R369 that an early-end cause stands in. -/
def causeRow : EndCause → Nat
  | .normal => 0
  | .fetchFault => 1
  | .uncorrectable => 2
  | .range => 3
  | .denied => 3
  | .nospace => 3
  | .timeLimit => 4
  | .crossing => 5
  | .reset => 6
  | .quarantined => 7

/-- A cause that arises while another stands takes its place: both at one time, and its row is the earlier (R369; causes at one module time count as of one cycle, DEDUCED, log 35). -/
def State.causeWins (s : State) (k : KernelSt) (c : EndCause) : Bool :=
  match k.fault with
  | none => true
  | some old => k.faultAt == s.time && decide (causeRow c < causeRow old)

/-- An early-end cause stops every core of a kernel; the first stands, and of two in one cycle the earlier row (R369). -/
def State.kernelFault (s : State) (kid : Nat) (c : EndCause) : State :=
  match s.kernel kid with
  | none => s
  | some k => if !s.causeWins k c then s else
    k.cores.foldl (fun s x => s.wrF .cmpCoreState 0 3 3 x) ((s.setKernel { k with fault := some c, faultAt := s.time }).dropCoreWaits k.cores)

/-- The result record (R374); bytes 0x20 to 0x3F only for library kernels. -/
def KernelSt.record (k : KernelSt) (status us : Nat) : Nat :=
  status + ((if k.nan then 1 else 0) + (if k.inf then 2 else 0)) * 2 ^ 8 + min us (2 ^ 32 - 1) * 2 ^ 32 + k.spill % 2 ^ 64 * 2 ^ 64
    + k.glare % 2 ^ 64 * 2 ^ 128 + k.refl % 2 ^ 32 * 2 ^ 192 + (if k.lid = 0 then 0 else k.out % 2 ^ 256 * 2 ^ 256)

/-- The code that a kernel reports (R20). -/
def KernelSt.code (k : KernelSt) (c : EndCause) : Nat :=
  if (causeStatus c) ≠ stDone then (causeStatus c) else if 0 < k.glare then stEscalated else if 0 < k.spill then stSpilled else stDone

/-- A core after a core reset: registers, sequencer and instruction memory cleared; local memory and operand buffers kept (R370). -/
def coreReset (x : CoreSt) : CoreSt := { mem := x.mem, bufs := x.bufs }

/-- Write the result record: its status as it then stands; `none` while no slot is free. -/
def State.putRecord (s : State) (k : KernelSt) (st us : Nat) : State × Option Nat :=
  let a := k.arg 8 8
  let n := if k.lid = 0 then 32 else 64
  if a = 0 then (s, some st)
  else if s.inFrozen k.part a 64 ∨ s.apparent k.part < a + 64 then (s, some (if isFailure st then st else stDenied))
  else
    let o := s.openSlots
    let lvl := s.compLevel k.part k.queue 0
    let (s1, _, r) := (s.atLevel lvl).putRun (.kernel k.id) (reqComp k.part) lvl k.part a n (k.record st us) 0 3
    match r with
    | .held => (s1, none)
    | .nospace => (s1.nospaceRefusal k.part none none a, some (if isFailure st then st else stNospace))
    | .done => (s1.compCharge k.part k.queue lvl (n + 4096 * (s1.openSlots - o)), some st)

/-- What follows the record. -/
def State.finishKernel (s : State) (k : KernelSt) (c : EndCause) (st : Nat) : State :=
  let early := c != .normal
  let s := if early then s.dropCoreWaits k.cores else s
  let s := k.cores.foldl (fun (s : State) x =>
    let y := s.core x
    let s := (s.setCore x (if early then coreReset y else { y with kid := none })).wrF .cmpCoreState 0 3 1 x
    if early then s.wrF .cmpCoreState 8 8 (causeStatus c) x else s) s
  let s := k.clusters.foldl (fun s x => s.wrB .cmpClState 5 false x) s
  let s := (s.incEvt .cmpKernels).incEvt .cmpPKernels k.part
  let s := if isFailure st then s.incErr .cmpPFailed k.part else s
  let ev (s : State) (b : Nat) : State := (s.setB .cmpEvent b).raise { reg := .cmpEvent, bit := b, status := st, part := some k.part, value := k.queue, args := [k.count] }
  let s := if c = .fetchFault then ev s 0 else if (causeStatus c) = stTimeout then ev s 1 else s
  let s := (s.dropKernel k.id).flashDone (.kernel k.id)
  let s := { s with tier := { s.tier with declined := s.tier.declined.filter (fun x => x != (4096, k.id)) } }
  match s.desc k.queue k.count with
  | some d => s.endDesc k.queue d st 0
  | none => s

/-- End a kernel: the result record, core resets after an early end, its clusters free, its descriptor's work ended (R369 to R374). `force`: the record does not wait for a slot. -/
def State.endKernel (s : State) (k : KernelSt) (c : EndCause) (force : Bool) : State :=
  match s.putRecord k (k.code c) ((s.time - k.startAt) / 1000) with
  | (s, none) => if force then s.finishKernel k c (k.code c) else s
  | (s, some st) => s.finishKernel k c st

/-- The cause with which a kernel ends that is stopped with another: the early end that stands, if one does (R369). -/
def KernelSt.stopCause (k : KernelSt) (c : EndCause) : EndCause :=
  match k.fault with
  | none => c
  | some .normal => c
  | some x => x

/-- Stop every kernel of a partition with a cause: running ones end with it or with what stopped them before, waiting launches are refused with its status (R91, R164, R168, R369). -/
def State.stopKernels (s : State) (p : Nat) (c : EndCause) : State :=
  (s.comp.kernels.filter (fun k => k.part == p)).foldl (fun s k =>
    if k.running then s.endKernel k (k.stopCause c) true else
    match s.desc k.queue k.count with
    | some d => (s.dropKernel k.id).endDesc k.queue d (causeStatus c) 0
    | none => s.dropKernel k.id) s

/-- KERNEL_TIME_LIMIT (R369): TIME_LIMIT_MS has passed since the first instruction. -/
def execKernelTimeLimit (kid : Nat) (s : State) : Res :=
  .next (match s.kernel kid with
    | none => s
    | some k =>
      let ms := k.arg 6 2
      if !k.running || ms == 0 || k.fault.isSome then s
      else
        let s := s.reach (k.startAt + 1000000 * ms)
        if k.lid = 0 ∧ k.cores.all (fun c => (s.core c).ended) then s else s.kernelFault kid .timeLimit)

/-- FLASH_WAIT_TIMEOUT (R307, R366, R466): 50 ms on a flash-homed page. -/
def execFlashWaitTimeout (who : FlashWaiter) (s : State) : Res :=
  .next (match s.flash.waits.find? (fun w => w.who == who && s.flashWaits w.part w.page) with
    | none => s
    | some w =>
      let s := (s.reach (w.since + 50000000)).flashDone who
      match who with
      | .ring q => match s.queueOwner q with | none => s | some p => s.fetchStop p q stTimeout
      | .desc q n => match s.desc q n with | none => s | some d => if d.status.isSome then s else s.endDesc q d stTimeout (d.pos / 4096)
      | .kernel id => match s.kernel id with
        | none => s
        | some k => if k.running then s.kernelFault id .timeLimit else
          match s.desc k.queue k.count with
          | some d => (s.dropKernel id).endDesc k.queue d stTimeout 0
          | none => s.dropKernel id)

/-- LIBRARY_ACTIVATE (R375). -/
def execLibraryActivate (s : State) : Res :=
  .next (match s.comp.pendLib with
    | none => s
    | some c =>
      let s := (s.wr .cmpLibVersion (BitVec.ofNat 64 c.version)).wr .cmpLibKernels (BitVec.ofNat 64 c.kernels.toNat)
      let s := s.putDigest .cmpLibDigest c.digest
      let s := { s with comp := { s.comp with pendLib := none } }
      s.event { reg := .cmpEvent, bit := 2, value := c.version })

end Sys2Proof.Machine
end

