-- ==== Sys2Proof/Machine/Operand.lean ====
section
/-! DEFINITION. The operand path of a kernel: pages by TLD, spill, operand cost, faults of reads and writes (R364 to R368, R380). -/

namespace Sys2Proof.Machine

/-- Bytes that a page's TLD sends across the die-to-die link (R364, R505). -/
def State.crossBytes (s : State) (o page : Nat) : Nat :=
  let e := s.frame o (page / 16)
  let g := e.page (page % 16)
  let ent := entrySize (s.runStrength e)
  if (s.slot o page).isSome ∨ (s.shwBuf o page).isSome then 4096
  else if (e.constPage (page % 16)).isSome ∨ g.codec = 7 then 8
  else if g.codec = 5 then g.len + ent + (e.page g.param).len + ent else g.len + ent

/-- A page read by TLD from a frozen span that no tier 0 copy serves (R380). -/
def State.spills (s : State) (o page : Nat) : Bool :=
  let e := s.frame o (page / 16)
  s.inFrozen o (page * 4096) 4096 && (s.slot o page).isNone && e.state != .zero && (e.constPage (page % 16)).isNone
    && !e.reloc && e.home != 0 && e.repl != some 0

/-- Count a spilled page (R380). -/
def State.countSpill (s : State) (kid : Nat) : State :=
  match s.kernel kid with
  | none => s
  | some k => ((s.setKernel { k with spill := k.spill + 1 }).incEvt .qdSpill k.queue).incEvt .cmpPSpillPages k.part

/-- Count escalated pairs (R405). -/
def State.countGlare (s : State) (kid n : Nat) : State :=
  if n = 0 then s else
  match s.kernel kid with
  | none => s
  | some k => (((s.setKernel { k with glare := k.glare + n }).incEvt .qdGlare k.queue n).incEvt .cmpPGlareBlocks k.part n).setB .cmpPNarEvent 1 k.part

/-- An accumulator tile of a kernel takes NaN (flag 1) or infinity (flag 2) (R404, R374). -/
def State.kernelFlags (s : State) (kid fl : Nat) : State :=
  match s.kernel kid with
  | none => s
  | some k =>
    let s := s.setKernel { k with nan := k.nan || fl % 2 == 1, inf := k.inf || fl / 2 % 2 == 1 }
    if fl % 2 = 1 then s.setB .cmpPNarEvent 3 k.part else s

/-- The cluster decoder takes a page: unit 16 + n of the Lens (R222, R364, R382). -/
def State.clusterDecode (s : State) (cl : Nat) (codec : Nat) (err : Bool) : State :=
  if codec = 0 then s else
  let s := ((s.incEvt .cmpClDecoded cl).incEvt .lnsUOutBytes (16 + cl))
  if err then (s.incErr .lnsUDecodeErr (16 + cl)).setB .lnsEvent 3 else s

/-- Read one page for a kernel by TLD (R364 to R366, R380), with the urgency of the buffers that it fills (R510). -/
def State.tldPage (s : State) (k : KernelSt) (cl o page fill : Nat) : State × Got :=
  let lvl := s.compLevel k.part k.queue fill
  let s := s.atLevel lvl
  let s := if s.awaited o page then s else (s.mapAccess o (page / 16)).touchPage o page
  if s.flashWaits o page then (s.demandOnce o page, .wait page) else
  let cost := s.crossBytes o page
  let spill := s.spills o page
  let open_ := (s.slot o page).isSome || (s.shwBuf o page).isSome
  let codec := ((s.frame o (page / 16)).page (page % 16)).codec
  let (s, r) := if open_ then (match s.getPage (reqComp k.part) o page with | (s, some r) => (s, r) | (s, none) => (s, { ok := false }))
    else (let (s, r) := s.readPage (reqComp k.part) o page true false; (s.clusterDecode cl codec r.decodeErr, r))
  let s := s.compCharge k.part k.queue lvl cost
  let s := if spill then s.countSpill k.id else s
  if !r.ok then (s.countUncorr.addPoisonPage o page, .bad page)
  else if r.poison ≠ 0 then (s, .bad page)
  else (s, .ok r.data.toNat)

/-- A kernel's store of `n` bytes from byte `pos` on (R367): how far it came, and what ended it. -/
inductive StoreRes where
  | done
  | held
  | fault (c : EndCause)
  deriving DecidableEq, Repr

/-- A store of a kernel, by one of its cores or by a library program as a whole, to a pool address (R204, R367, R505). -/
def State.kernelStore (s : State) (who : Holder) (k : KernelSt) (a n v pos : Nat) : State × Nat × StoreRes :=
  match s.resolve k.part a n with
  | none => (s, pos, .fault .range)
  | some (o, x) =>
    if s.inFrozen o x n then (s, pos, .fault .denied) else
    let c := s.openSlots
    let lvl := s.compLevel k.part k.queue 0
    let (s1, w, r) := (s.atLevel lvl).putRun who (reqComp k.part) lvl o x n v pos (n / 64 + 4)
    let s1 := s1.compCharge k.part k.queue lvl ((w - pos) + 4096 * (s1.openSlots - c))
    match r with
    | .done => (s1, w, .done)
    | .held => (s1, w, .held)
    | .nospace => (s1.nospaceRefusal o none none (x + w), w, .fault .nospace)

/-- A kernel's read of `n` bytes that is no TLD: a scalar load, or a table (R429, R437). -/
def State.kernelRead (s : State) (k : KernelSt) (a n : Nat) : State × Option (Nat × Nat) × Got :=
  match s.resolve k.part a n with
  | none => (s, none, .bad 0)
  | some (o, x) => match s.getBytes (reqComp k.part) o x n with
    | (s, .bad page) => (s.addPoisonPage o page, some (o, x), .bad page)
    | (s, g) => (s, some (o, x), g)

end Sys2Proof.Machine
end

