-- ==== Sys2Proof/Machine/Library.lean ====
section
/-! DEFINITION. The built-in library and the end of kernels (R369, R376 to R379, R403, R406 to R415). -/

namespace Sys2Proof.Machine

/-- How a library kernel comes along: on, waiting on a flash-homed page or on a merge slot, or ended early. -/
inductive Lib (α : Type) where
  | ok (s : State) (v : α)
  | flash (part page : Nat)
  | slot (part page : Nat)
  | stop (s : State) (c : EndCause)

/-- One part of a library kernel after another. -/
def Lib.bind {α β : Type} (x : Lib α) (f : State → α → Lib β) : Lib β :=
  match x with
  | .ok s v => f s v
  | .flash o p => .flash o p
  | .slot o p => .slot o p
  | .stop s c => .stop s c

/-- Do a part for each element of a list, collecting what they give. -/
def Lib.each {α β : Type} (f : State → α → Lib β) : List α → State → Lib (List β)
  | [], s => .ok s []
  | x :: t, s => (f s x).bind (fun s v => (Lib.each f t s).bind (fun s r => .ok s (v :: r)))

/-- Read `n` bytes by TLD, page by page (R364, R366). How full the operand buffers of the library's cores stand is a free value (log 34, 80). -/
def libPages (kid o a : Nat) : Nat → State → Lib Nat
  | 0, s => .ok s 0
  | n + 1, s =>
    match s.kernel kid with
    | none => .ok s 0
    | some k =>
      let (u, s) := s.nextFree
      match s.tldPage k (k.clusters.headD 0) o (a / 4096) (u % 4) with
      | (_, .wait page) => .flash o page
      | (s, .bad _) => .stop s .uncorrectable
      | (s, .ok v) => (libPages kid o (a + 4096) n s).bind (fun s r => .ok s (v + r * 256 ^ 4096))

/-- Read `n` bytes at a pool address (R367, R366). -/
def State.libRead (s : State) (kid a n : Nat) : Lib Nat :=
  match s.kernel kid with
  | none => .ok s 0
  | some k => match s.resolve k.part a n with
    | none => .stop s .range
    | some (o, x) =>
      if n = 0 then .ok s 0 else
      let p := x / 4096
      (libPages kid o (p * 4096) ((x + n - 1) / 4096 - p + 1) s).bind (fun s v => .ok s (fieldOf v (x % 4096) n))

/-- Write `n` bytes at a pool address (R367). -/
def State.libWrite (s : State) (kid a n v : Nat) : Lib Unit :=
  match s.kernel kid with
  | none => .ok s ()
  | some k => match s.kernelStore (.kernel kid) k a n v 0 with
    | (s, _, .done) => .ok s ()
    | (s, pos, .held) => .slot (match s.resolve k.part a n with | some (o, _) => o | none => k.part) ((a % 2 ^ 47 + pos) / 4096)
    | (s, _, .fault c) => .stop s c

/-! MATMUL and LOGITS (R376, R393 to R403, R413). -/

/-- A step's fields. -/
structure Step where
  op : Nat
  wf : Nat
  af : Nat
  ofm : Nat
  m : Nat
  k : Nat
  weight : Nat
  inp : Nat
  out : Nat
  aux : Nat
  deriving DecidableEq, Repr

/-- An entry of a step list (R376). -/
def stepOf (e : Nat) : Step := ⟨byteOf e 0, byteOf e 1, byteOf e 2, byteOf e 3, fieldOf e 4 4, fieldOf e 8 4, fieldOf e 16 8, fieldOf e 24 8, fieldOf e 32 8, fieldOf e 40 8⟩

/-- Read a weight stream page by page until its `total` blocks are placed or passed (R396); each page of a stream holds a block at least (R392), so that it has at most `total` pages. -/
def libStream (kid f total : Nat) : Nat → Nat → WStream → State → Lib WStream
  | 0, _, t, s => .ok s t
  | n + 1, a, t, s => (s.libRead kid a 4096).bind (fun s v =>
      let t := t.take f v false
      if (match t.expect with | some e => decide (total ≤ e) | none => false) then .ok s t else libStream kid f total n (a + 4096) t s)

/-- Row r of tile (tm, tk) of a stream (R393). -/
def streamRow (t : WStream) (f kt tm tk r : Nat) : WRow :=
  let nb := blockLen f
  .blocks f ((List.range (64 / nb)).map (fun b => t.block (((tm * kt + tk) * 64 + r) * (64 / nb) + b)))

/-- Row r of tile (tm, tk) of FP8 or BF16 weights (R394). -/
def plainRow (v wf kt tm tk r : Nat) : WRow :=
  let e := ((tm * kt + tk) * 64 + r) * 64
  .plain ((List.range 64).map (fun i => if wf = 4 then e4m3 (byteOf v (e + i)) else bf16Num (fieldOf v (2 * (e + i)) 2)))

/-- What a MATMUL gives: columns of accumulators, and its glare pairs. -/
structure MatOut where
  cols : List (List Acc)
  glare : Nat

/-- Every output of a MATMUL (R403): k-groups in ascending tk from +0. -/
def matmul (x : Step) (row : Nat → Nat → Nat → WRow) (cols : List (List Num)) : MatOut :=
  let wide := x.af = 3 ∨ x.af = 4
  let kt := x.k / 64
  let r := cols.map (fun a => (List.range x.m).map (fun i =>
    (List.range kt).foldl (fun (r : Acc × Nat) tk =>
      let (c, g) := rowStep r.1 (row (i / 64) tk (i % 64)) ((a.drop (64 * tk)).take 64) wide
      (c, r.2 + g)) (⟨0, 0⟩, 0)))
  { cols := r.map (fun c => c.map (·.1)), glare := r.foldl (fun g c => c.foldl (fun g y => g + y.2) g) 0 }

/-- CMP_P_REFLECT_LAST (R417). -/
def reflectLast (step tm tk col row q : Nat) : Word :=
  BitVec.ofNat 64 (step % 4096 + tm % 4096 * 2 ^ 12 + tk % 4096 * 2 ^ 24 + col % 256 * 2 ^ 36 + row % 64 * 2 ^ 44 + q % 4096 * 2 ^ 50)

/-- A mismatching tile and column (R415, R626). -/
def State.reflectHit (s : State) (kid step tm tk col row : Nat) : State :=
  match s.kernel kid with
  | none => s
  | some k =>
    let last := reflectLast step tm tk col row k.queue
    let s := (s.setKernel { k with refl := k.refl + 1 }).incErr .cmpPReflectEvents k.part
    let s := (s.wr .cmpPReflectLast last k.part).setB .cmpPNarEvent 0 k.part
    s.raiseGathered gkReflect k.part { reg := .cmpPNarEvent, bit := 0, part := some k.part, value := last.toNat }

/-- Check the columns of one tile (R414, R415). -/
def State.reflectTile (s : State) (kid step tm tk : Nat) (wide : Bool) (row : Nat → WRow) (cols : List (Nat × List Num)) (thresh : Nat) : State :=
  cols.foldl (fun s c => match (List.range 64).find? (fun r => reflectMismatch (row r) c.2 wide thresh) with
    | none => s
    | some r => s.reflectHit kid step tm tk c.1 r) s

/-- The reflection check of a step whose first tile has index `base` in the kernel (R413). -/
def State.reflectStep (s : State) (kid step base : Nat) (x : Step) (row : Nat → Nat → Nat → WRow) (cols : List (List Num)) : State :=
  match s.kernel kid with
  | none => s
  | some k =>
    let l := fld k.reflect 0 5
    if l = 0 then s else
    let kt := x.k / 64
    (List.range (x.m / 64 * kt)).foldl (fun s t =>
      if (base + t) % 2 ^ l ≠ 0 then s else
      s.reflectTile kid step (t / kt) (t % kt) (x.af = 3 || x.af = 4) (row (t / kt) (t % kt))
        (((List.range cols.length).zip cols).map (fun c => (c.1, (c.2.drop (64 * (t % kt))).take 64))) (fld k.reflect 8 5)) s

/-- Random number of output element `e` of a step, where the launch rounds stochastically (R409 to R411). -/
def KernelSt.rand (k : KernelSt) (step e : Nat) : Option Nat := if k.arg 5 1 = 1 then some (randomG k.seed k.launchNo (step * 2 ^ 40 + e)) else none

/-- One output column as bytes (R395, R406, R407): FP32 codes with the index of the first. -/
def columnBytes (ofm : Nat) (vals : List Nat) (rand : Nat → Option Nat) : Nat :=
  let l := (List.range vals.length).zip vals
  if ofm = 5 then
    (List.range (vals.length / 32)).foldr (fun b r => convertJ4 (((l.drop (32 * b)).take 32).map (fun x => (x.2, rand x.1))) + r * 256 ^ 17) 0
  else
    let w := if ofm = 6 then 4 else if ofm = 3 ∨ ofm = 4 then 2 else 1
    l.foldr (fun x r => convert ofm x.2 (rand x.1) + r * 256 ^ w) 0

/-- The argmax of a column (R377). -/
def argmaxOf (vals : List Nat) : Nat :=
  let best := ((List.range vals.length).zip vals).foldl (fun (r : Option (Nat × Num)) x =>
    match fp32.num x.2 with
    | .nan => r
    | v => match r with
      | none => some (x.1, v)
      | some (i, w) => if w.lt v then some (x.1, v) else some (i, w)) none
  match best with
  | none => 0xFFFFFFFF
  | some (i, _) => i

/-- A MATMUL or LOGITS step: the argmax of each column of a LOGITS. -/
def State.libMatmul (s : State) (kid step base : Nat) (x : Step) (ncol : Nat) : Lib (List Nat) :=
  let cb := colBytes x.af x.k
  (s.libRead kid x.inp (ncol * cb)).bind (fun s inp =>
  let cols := (List.range ncol).map (fun c => (List.range x.k).map (actNum x.af (fieldOf inp (c * cb) cb)))
  let kt := x.k / 64
  let rows : Lib ((Nat → Nat → Nat → WRow) × Bool) :=
    if x.wf < 4 then (libStream kid x.wf (x.m * x.k / blockLen x.wf) (x.m * x.k / blockLen x.wf) x.weight { expect := some 0 } s).bind (fun s t => .ok s (streamRow t x.wf kt, t.malformed))
    else (s.libRead kid x.weight (x.m * x.k * (if x.wf = 5 then 2 else 1))).bind (fun s v => .ok s (plainRow v x.wf kt, false))
  rows.bind (fun s (row, malformed) =>
  match s.kernel kid with
  | none => .ok s []
  | some k =>
    let r := matmul x row cols
    let fl := r.cols.foldl (fun f c => c.foldl (fun f y => f ||| y.fl) f) 0
    let s := if malformed then s.setB .cmpPNarEvent 2 k.part else s
    let s := ((s.countGlare kid r.glare).kernelFlags kid fl).reflectStep kid step base x row cols
    let ob := colBytes x.ofm x.m
    let bytes := ((List.range ncol).zip r.cols).foldr (fun c v => columnBytes x.ofm (c.2.map (·.v)) (fun i => k.rand step (c.1 * x.m + i)) + v * 256 ^ ob) 0
    (s.libWrite kid x.out (ncol * ob) bytes).bind (fun s _ => .ok s (if x.op = 6 then r.cols.map (fun c => argmaxOf (c.map (·.v))) else []))))

/-- Any other step: its output is a free value of the library version (R412, log 34). -/
def State.libOther (s : State) (kid e : Nat) (x : Step) (ncol : Nat) : Lib (List Nat) :=
  (s.libRead kid x.inp (ncol * colBytes x.af x.k)).bind (fun s inp =>
    let n := ncol * colBytes x.ofm x.m
    let (g, s) := s.nextFree
    let lib := match s.kernel kid with | some k => k.lib.toNat | none => 0
    (s.libWrite kid x.out n (Config.libStep lib e ncol inp g % 256 ^ n)).bind (fun s _ => .ok s []))

/-- Run a step list over columns: the argmax list of its last LOGITS step (R376, R378). -/
def libSteps (kid ncol : Nat) : List Nat → Nat → Nat → List Nat → State → Lib (List Nat)
  | [], _, _, last, s => .ok s last
  | e :: t, step, base, last, s =>
    let x := stepOf e
    if x.op = 1 ∨ x.op = 6 then
      (s.libMatmul kid step base x ncol).bind (fun s r => libSteps kid ncol t (step + 1) (base + x.m / 64 * (x.k / 64)) (if x.op = 6 then r else last) s)
    else (s.libOther kid e x ncol).bind (fun s _ => libSteps kid ncol t (step + 1) base last s)

/-- Read a step list and run it. -/
def State.libList (s : State) (kid a n ncol : Nat) : Lib (List Nat) :=
  (s.libRead kid a (64 * n)).bind (fun s v => libSteps kid ncol (stepEntries v n) 0 0 [] s)

/-- Words of a list, 4 bytes each. -/
def wordsN (w : Nat) (l : List Nat) : Nat := l.foldr (fun x r => x % 256 ^ w + r * 256 ^ w) 0

/-! Tree acceptance (R379). -/

/-- accepted and depth of each node, in index order: (parent, draft) and the argmax of every node. -/
def acceptTree (argmax : List Nat) : List (Nat × Nat) → Nat → List (Bool × Nat) → List (Bool × Nat)
  | [], _, acc => acc
  | (p, d) :: t, i, acc =>
    let v := if i = 0 then (true, 0) else
      let (pa, pd) := acc.getD p (false, 0)
      (pa && d == argmax.getD p 0xFFFFFFFF, pd + 1)
    acceptTree argmax t (i + 1) (acc ++ [v])

/-- The accepted node of greatest depth, ties to the lowest index. -/
def bestNode (acc : List (Bool × Nat)) : Nat :=
  (((List.range acc.length).zip acc).foldl (fun (r : Nat × Nat) x => if x.2.1 && r.2 < x.2.2 then (x.1, x.2.2) else r) (0, 0)).1

/-- Nodes from node 0, excluded, to a node, in order of depth. -/
def pathTo (parents : List Nat) : Nat → Nat → List Nat
  | 0, _ => []
  | fuel + 1, i => if i = 0 then [] else pathTo parents fuel (parents.getD i 0) ++ [i]

/-- The acceptance of a tree: path, best node, bonus token. -/
def treeResult (tree : List (Nat × Nat)) (argmax : List Nat) : List Nat × Nat × Nat :=
  let best := bestNode (acceptTree argmax tree 0 [])
  (pathTo (tree.map (·.1)) tree.length best, best, argmax.getD best 0xFFFFFFFF)

/-- The kernel's KERNEL_OUT. -/
def State.libOut (s : State) (kid out : Nat) : Lib Unit :=
  .ok (match s.kernel kid with | none => s | some k => s.setKernel { k with out := out }) ()

/-- Free bytes written by kernels 3 to 6 (R412, log 34). -/
def State.libFree (s : State) (kid a n : Nat) : Lib Unit :=
  match s.kernel kid with
  | none => .ok s ()
  | some k =>
    let (g, s) := s.nextFree
    s.libWrite kid a n (Config.libKernel k.lib.toNat (ofBytes k.block) g % 256 ^ n)

/-- Run a library kernel (R378). -/
def State.libRun (s : State) (k : KernelSt) : Lib Unit :=
  let kid := k.id
  let g := k.arg
  match k.lid with
  | 1 => (s.libList kid (g 0x40 8) (g 0x48 2) (g 0x4A 2)).bind (fun s am =>
      (if g 0x4C 8 = 0 ∨ am.isEmpty then Lib.ok s () else s.libWrite kid (g 0x4C 8) (4 * g 0x4A 2) (wordsN 4 am)).bind (fun s _ => s.libOut kid (am.headD 0 % 2 ^ 32)))
  | 2 =>
    let n := g 0x4A 2
    (s.libRead kid (g 0x4C 8) (8 * n)).bind (fun s tr =>
    (s.libList kid (g 0x40 8) (g 0x48 2) n).bind (fun s am =>
      let am := if am.isEmpty then List.replicate n 0xFFFFFFFF else am
      let (path, best, tok) := treeResult ((List.range n).map (fun i => (fieldOf tr (8 * i) 2, fieldOf tr (8 * i + 4) 4))) am
      (s.libWrite kid (g 0x54 8) (4 * n) (wordsN 4 am)).bind (fun s _ =>
      (s.libWrite kid (g 0x5C 8) (2 * path.length) (wordsN 2 path)).bind (fun s _ =>
      s.libOut kid (path.length + best * 2 ^ 16 + tok * 2 ^ 32)))))
  | 3 =>
    let c := if g 0x63 1 = 0 then 256 else g 0x63 1
    (s.libFree kid (g 0x50 8) (c * g 0x5C 2 * g 0x60 2 * 4)).bind (fun s _ => let (v, s) := s.nextFree; s.libOut kid (v % 2 ^ 64))
  | 4 =>
    let e := g 0x68 2
    let tk := g 0x6A 1
    let c := g 0x6B 2
    (s.libRead kid (g 0x48 8) (16 * e)).bind (fun s tab =>
      let (v, s) := s.nextFree
      let r := Config.libKernel k.lib.toNat (ofBytes k.block) v
      let idx := (List.range (c * tk)).map (fun i => fieldOf r (2 * i) 2 % max e 1)
      let used := idx.eraseDups
      (Lib.each (fun s (x : Nat) =>
        let en := fieldOf tab (16 * x) 16
        (s.libRead kid (fieldOf en 0 8) (64 * fieldOf en 8 2)).bind (fun s v => Lib.ok s ((stepEntries v (fieldOf en 8 2)).map stepOf))) used s).bind (fun s lists =>
      let steps := lists.flatMap (fun x => x)
      let s := steps.foldl (fun s x =>
        if x.op ≠ 1 ∧ x.op ≠ 6 then s else
        match s.resolve k.part x.weight 1 with
        | some (o, a) =>
          let n := if x.wf = 4 then x.m * x.k else if x.wf = 5 then 2 * x.m * x.k else x.m * x.k / blockLen x.wf * haloAt x.wf
          (List.range (n / 65536 + 1)).foldl (fun s i => s.prefetchFrame o (a / 65536 + i) 0 (4096, k.id)) s
        | none => s) s
      let out := match lists with
        | l :: _ => (match l.getLast? with | some x => colBytes x.ofm x.m | none => 0)
        | [] => 0
      (s.libWrite kid (g 0x60 8) (2 * c * tk) (wordsN 2 idx)).bind (fun s _ =>
      (s.libFree kid (g 0x58 8) (c * out)).bind (fun s _ => s.libOut kid used.length))))
  | 5 =>
    let cells := g 0x5A 2 * g 0x5C 2 * g 0x5E 2
    (s.libFree kid (g 0x48 8) (cells * g 0x60 1 * (if g 0x63 1 = 1 then 8 else 4))).bind (fun s _ => s.libOut kid cells)
  | _ =>
    let rows := g 0x68 4
    (s.libFree kid (g 0x60 8) (rows * (if g 0x74 1 = 1 then 8 else 4))).bind (fun s _ => s.libOut kid rows)

/-- A library kernel has run, or stopped: it ends, once its record finds a slot. -/
def State.libEnd (s : State) (kid : Nat) (c : EndCause) : State :=
  match s.kernel kid with
  | none => s
  | some k => let k := { k with fault := some c }; (s.setKernel k).endKernel k c false

/-- KERNEL_END (R369): a kernel whose cores have all executed END, a library kernel that has run, or an early end. -/
def execKernelEnd (kid : Nat) (cause : EndCause) (s : State) : Res :=
  .next (match s.kernel kid with
    | none => s
    | some k =>
      if !k.running then s else
      match k.fault with
      | some c => if c = cause then s.endKernel k c false else s
      | none =>
        if cause = .fetchFault ∨ cause = .crossing then s.endKernel k cause false
        else if cause ≠ .normal then s
        else if k.lid = 0 then (if k.cores.all (fun c => (s.core c).ended) then s.endKernel k .normal false else s)
        else
          match s.libRun k with
          | .flash o page => (s.demandOnce o page).flashWait (.kernel kid) o page
          | .slot o page => (if (s.heldStore (.kernel kid) o page).isSome then s else ((s.mapAccess o (page / 16)).touchPage o page).storeHeld (.kernel kid) o page).quotaSeal o page
          | .ok s1 _ => s1.libEnd kid .normal
          | .stop s1 c => s1.libEnd kid c)

end Sys2Proof.Machine
end

