-- ==== Sys2Proof/Machine/Tile.lean ====
section
/-! DEFINITION. Tile programs (13): the running word of a core, control and scalar instructions, transfers, barriers, sync operations. -/

namespace Sys2Proof.Machine

/-- The core's kernel and the word at its pc, where the core can issue (R423, R430): a user program that runs, not ended, not held by a BAR or SYNC. -/
def State.issue (s : State) (c : Nat) : Option (KernelSt × CoreSt × Word) :=
  let x := s.core c
  match x.kid with
  | none => none
  | some id => match s.kernel id with
    | none => none
    | some k => if k.running && k.lid == 0 && k.fault.isNone && !x.ended && x.atBar.isNone && !x.inSync then some (k, x, Store.get 0 x.pc x.imem) else none

/-- Execute the word at a core's pc where its opcode is `op`; an instruction the core cannot issue now has no effect. -/
def State.tile (s : State) (c op : Nat) (f : State → KernelSt → CoreSt → Word → State) : Res :=
  .next (match s.issue c with
    | none => s
    | some (k, x, w) => if fld w 56 8 = op then f s k x w else s)

/-- A scalar register. -/
def CoreSt.reg (x : CoreSt) (i : Nat) : Word := x.s.getD i 0
/-- Write a scalar register. -/
def CoreSt.setReg (x : CoreSt) (i : Nat) (v : Word) : CoreSt := { x with s := x.s.set i v }
/-- The core goes on to the next instruction (R423). -/
def CoreSt.next (x : CoreSt) : CoreSt := { x with pc := (x.pc + 1) % 8192, pos := 0 }
/-- The core goes to pc + IMM (R423). -/
def CoreSt.jump (x : CoreSt) (w : Word) : CoreSt := { x with pc := (((x.pc : Int) + immOf w) % 8192).toNat, pos := 0 }

/-- Fields D, A, B of format R (R431). -/
def rD (w : Word) : Nat := fld w 51 5
def rA (w : Word) : Nat := fld w 46 5
def rB (w : Word) : Nat := fld w 41 5
/-- IMM sign-extended to 64 bits. -/
def rImm (w : Word) : Word := BitVec.ofInt 64 (immOf w)

/-! Spaces (R424, R425) and interlocks (R426, R429, R430). -/

/-- Size of a space in bytes. -/
def spaceSize (sp : Nat) : Nat := match sp with | 0 => 196608 | 1 => 65536 | 2 => 2097152 | 3 => 16777216 | _ => 131072

/-- The memory of a space of a core; `em` picks the lowest engine for space 0. -/
def State.space (s : State) (c : Nat) (x : CoreSt) (sp em : Nat) : Memory :=
  match sp with
  | 0 => x.bufs.getD (((List.range 4).find? (fun e => em.testBit e)).getD 0) []
  | 1 => x.tiles
  | 2 => x.mem
  | 3 => Store.get [] (c / 8) s.shared
  | _ => x.acc

/-- Read `n` bytes of a memory of `size` bytes from `off`, going on at offset 0 past its end (R425). -/
def readWrap (m : Memory) (size off n : Nat) : Nat :=
  let o := off % size
  if o + n ≤ size then m.readN o n else m.readN o (size - o) + m.readN 0 (n - (size - o)) * 256 ^ (size - o)

/-- Write `n` bytes likewise. -/
def writeWrap (m : Memory) (size off n v : Nat) : Memory :=
  let o := off % size
  if o + n ≤ size then m.writeN o n v else (m.writeN o (size - o) (v % 256 ^ (size - o))).writeN 0 (n - (size - o)) (v / 256 ^ (size - o))

/-- Mark the page slots of a span in the operand buffers of some engines as filled or as empty (R368, R510). -/
def CoreSt.fillSlots (x : CoreSt) (em off n : Nat) (full : Bool) : CoreSt :=
  let a := off % 196608
  let slots := (List.range ((a + n - 1) / 4096 - a / 4096 + 1)).map (fun i => (a / 4096 + i) % 48)
  { x with loaded := x.loaded.mapIdx (fun e b => if em.testBit e then slots.foldl (fun b i => if b.testBit i == full then b else b ^^^ 2 ^ i) b else b) }

/-- Urgency of the emptiest operand buffer that a TLD fills (R510): by the page slots that hold data, out of 48 (DEDUCED, log 80). -/
def CoreSt.urgency (x : CoreSt) (em : Nat) : Nat :=
  let u (b : Nat) : Nat := let n := ((List.range 48).filter (fun i => b.testBit i)).length
    if 4 * n < 48 then 3 else if 2 * n < 48 then 2 else if 4 * n < 3 * 48 then 1 else 0
  ((List.range 4).filter (fun e => em.testBit e)).foldl (fun a e => max a (u (x.loaded.getD e 0))) 0

/-- Write `n` bytes into a space of a core; space 0 in every engine of `em` (R439, R441). -/
def State.spacePut (s : State) (c : Nat) (x : CoreSt) (sp em off n v : Nat) : State :=
  let z := spaceSize sp
  match sp with
  | 0 => s.setCore c { x.fillSlots em off n true with bufs := x.bufs.mapIdx (fun e m => if em.testBit e then writeWrap m z off n v else m) }
  | 1 => s.setCore c { x with tiles := writeWrap x.tiles z off n v }
  | 2 => s.setCore c { x with mem := writeWrap x.mem z off n v }
  | 3 =>
    let s := s.setCore c x
    { s with shared := Store.set [] (c / 8) (writeWrap (Store.get [] (c / 8) s.shared) z off n v) s.shared }
  | _ => s.setCore c { x with acc := writeWrap x.acc z off n v }

/-- The 4 KiB regions of a span of a space: (space, engine, index) (R426). -/
def regionsOf (sp em off n : Nat) : List (Nat × Nat × Nat) :=
  let z := spaceSize sp
  let a := off % z
  let idx := (List.range ((a + n - 1) / 4096 - a / 4096 + 1)).map (fun i => (a / 4096 + i) % (z / 4096))
  if sp = 0 then (List.range 4).flatMap (fun e => if em.testBit e then idx.map (fun i => (0, e, i)) else []) else idx.map (fun i => (sp, 0, i))

/-- The regions that an outstanding TLD page will write. -/
def TldPage.regions (t : TldPage) : List (Nat × Nat × Nat) :=
  if t.dsp = 1 then [(1, 0, t.off)] else regionsOf t.dsp t.em t.off 4096

/-- An instruction that touches these regions must wait for a TLD of the core (R426). -/
def CoreSt.locked (x : CoreSt) (l : List (Nat × Nat × Nat)) : Bool := x.tld.any (fun t => t.regions.any (fun r => l.contains r))

/-- The stores of a core whose acceptance is still awaited: tag, partition, address, length (R428, R534). -/
def State.storesOf (s : State) (c : Nat) : List (Nat × Nat × Nat × Nat) :=
  (List.range 16).flatMap (fun p => (s.mirPart p).awaiting.filterMap (fun x => match x.2.2 with
    | .store k t o a n => if k = c then some (t, o, a, n) else none
    | _ => none))

/-- Every earlier transfer of the core has ended and every store has been accepted (R430). -/
def State.settled (s : State) (c : Nat) (x : CoreSt) : Bool := x.tld.isEmpty && (s.storesOf c).isEmpty

/-- A read of the pool waits for the core's own stores to its pages (R429). -/
def State.storeAhead (s : State) (c o a n : Nat) : Bool :=
  (s.storesOf c).any (fun t => t.2.1 == o && decide (a / 4096 * 4096 < t.2.2.1 + t.2.2.2 ∧ t.2.2.1 < (a + n + 4095) / 4096 * 4096))

/-- Instructions outstanding in a transfer group (R428). -/
def State.outstanding (s : State) (c : Nat) (x : CoreSt) (g : Nat) : Nat :=
  ((x.tld.filter (fun t => t.group == g)).map (·.xid)).eraseDups.length + (((s.storesOf c).filter (fun t => t.1 % 16 == g)).map (·.1)).eraseDups.length

/-- A store of a mirrored partition awaits its acknowledgement (R534). -/
def State.storeAwait (s : State) (c tag o a n : Nat) : State :=
  if !s.mirSync o then s else
  let m := s.mirPart o
  let hubs := ((List.range ((a + n - 1) / 65536 - a / 65536 + 1)).map (fun i => hubOf (a / 65536 + i))).eraseDups
  s.setMirPart o { m with awaiting := m.awaiting ++ hubs.map (fun h => (h, s.openEpoch o h, Await.store c tag o a n)) }

/-! Control (R432, R434 to R436, R457, R459). -/

/-- A kernel that its time limit has stopped at this very time goes on for its last core's END, which counts (R369). -/
def State.lastEnd (s : State) (c : Nat) : State :=
  match (s.core c).kid.bind s.kernel with
  | none => s
  | some k =>
    if k.fault = some .timeLimit ∧ k.faultAt = s.time ∧ k.cores.all (fun x => x == c || (s.core x).ended) then s.setKernel { k with fault := none } else s

/-- END (R459): once every transfer has ended, the core ends. On the kernel's last core it wins over a time limit of the same cycle (R369). -/
def execTEnd (core : CoreId) (s : State) : Res :=
  match (s.lastEnd core).issue core with
  | none => .next s
  | some (_, x, w) =>
    .next (if fld w 56 8 = 0 && (s.lastEnd core).settled core x then (((s.lastEnd core).setCore core { x with ended := true }).wrF .cmpCoreState 0 3 1 core) else s)
/-- NOP (R432). -/
def execTNop (core : CoreId) (s : State) : Res := s.tile core 0x01 (fun s _ x _ => s.setCore core x.next)
/-- BRA (R432). -/
def execTBra (core : CoreId) (s : State) : Res := s.tile core 0x02 (fun s _ x w => s.setCore core (x.jump w))

/-- A conditional branch (R432). -/
def State.branch (s : State) (core op : Nat) (c : Word → Word → Bool) : Res :=
  s.tile core op (fun s _ x w => s.setCore core (if c (x.reg (rA w)) (x.reg (rB w)) then x.jump w else x.next))
/-- BEQ (R432). -/
def execTBeq (core : CoreId) (s : State) : Res := s.branch core 0x03 (fun a b => a == b)
/-- BNE (R432). -/
def execTBne (core : CoreId) (s : State) : Res := s.branch core 0x04 (fun a b => a != b)
/-- BLT, signed (R432). -/
def execTBlt (core : CoreId) (s : State) : Res := s.branch core 0x05 (fun a b => a.slt b)
/-- BGE, signed (R432). -/
def execTBge (core : CoreId) (s : State) : Res := s.branch core 0x06 (fun a b => !a.slt b)
/-- BLTU (R432). -/
def execTBltu (core : CoreId) (s : State) : Res := s.branch core 0x07 (fun a b => a.ult b)

/-- LPS (R434). -/
def execTLps (core : CoreId) (s : State) : Res :=
  s.tile core 0x08 (fun s _ x w =>
    let v := (x.reg (rA w)).toNat % 2 ^ 32
    let y := { x with lc := x.lc.set (rD w) v }
    s.setCore core (if v = 0 then y.jump w else y.next))
/-- LPB (R434). -/
def execTLpb (core : CoreId) (s : State) : Res :=
  s.tile core 0x09 (fun s _ x w =>
    let v := x.lc.getD (rD w) 0
    s.setCore core (if 1 < v then ({ x with lc := x.lc.set (rD w) (v - 1) }).jump w else ({ x with lc := x.lc.set (rD w) 0 }).next))
/-- GET (R435). Core cycles are a free value: the model keeps no core clock (log 2). -/
def execTGet (core : CoreId) (s : State) : Res :=
  s.tile core 0x0A (fun s _ x w =>
    let sel := fld w 0 32
    let (v, s) := if sel = 4 then s.nextFree else (0, s)
    let r : Nat := match sel with
      | 4 => v
      | 5 => s.time / 1000
      | 6 => x.flags
      | 7 => x.glare
      | i => x.lc.getD i 0
    s.setCore core (x.setReg (rD w) (BitVec.ofNat 64 r)).next)
/-- WAITG (R436). -/
def execTWaitg (core : CoreId) (s : State) : Res :=
  s.tile core 0x0B (fun s _ x w =>
    let gs := if fld w 40 1 = 1 then List.range 8 else [rD w]
    if gs.all (fun g => decide (s.outstanding core x g ≤ fld w 0 32)) then s.setCore core x.next else s)

/-- BAR (R457): scope 0 waits for R430 alone; the others hold the core until BARRIER_RELEASE. -/
def execTBar (core : CoreId) (s : State) : Res :=
  s.tile core 0x0C (fun s _ x w =>
    if !s.settled core x then s
    else if fld w 0 32 = 0 then s.setCore core x.next else s.setCore core { x with atBar := some (fld w 0 32) })

/-- The group of a core in a barrier scope (R457). -/
def barGroup (scope c : Nat) : Nat := if scope = 1 then c / 8 else if scope = 2 then c / 64 else 0

/-- BARRIER_RELEASE (R457, R459): every group of the scope whose cores have all arrived or ended goes on. -/
def execBarrierRelease (kid : Nat) (scope : Nat) (s : State) : Res :=
  .next (match s.kernel kid with
    | none => s
    | some k =>
      if !k.running || k.lid != 0 || k.fault.isSome || scope == 0 || 3 < scope then s else
      let here (g : Nat) : Bool := (k.cores.filter (fun c => barGroup scope c == g)).all (fun c => (s.core c).ended || (s.core c).atBar == some scope)
      let go := k.cores.filter (fun c => (s.core c).atBar == some scope && here (barGroup scope c))
      go.foldl (fun s c =>
        let x := s.core c
        s.setCore c ({ x with atBar := none, bars := x.bars.set scope (x.bars.getD scope 0 + 1) }).next) s)

/-! Scalar arithmetic (R432, R433). -/

/-- s[D] := s[A] op operand. -/
def State.alu (s : State) (core op : Nat) (f : Word → Word → Word) : Res :=
  s.tile core op (fun s _ x w =>
    let b := if fld w 40 1 = 1 then rImm w else x.reg (rB w)
    s.setCore core (x.setReg (rD w) (f (x.reg (rA w)) b)).next)
/-- ADD (R432). -/
def execTAdd (core : CoreId) (s : State) : Res := s.alu core 0x10 (· + ·)
/-- SUB (R432). -/
def execTSub (core : CoreId) (s : State) : Res := s.alu core 0x11 (· - ·)
/-- MUL (R432). -/
def execTMul (core : CoreId) (s : State) : Res := s.alu core 0x12 (· * ·)
/-- AND (R432). -/
def execTAnd (core : CoreId) (s : State) : Res := s.alu core 0x13 (· &&& ·)
/-- OR (R432). -/
def execTOr (core : CoreId) (s : State) : Res := s.alu core 0x14 (· ||| ·)
/-- XOR (R432). -/
def execTXor (core : CoreId) (s : State) : Res := s.alu core 0x15 (· ^^^ ·)
/-- SHL (R432). -/
def execTShl (core : CoreId) (s : State) : Res := s.alu core 0x16 (fun a b => a <<< (b.toNat % 64))
/-- SHR (R432). -/
def execTShr (core : CoreId) (s : State) : Res := s.alu core 0x17 (fun a b => a >>> (b.toNat % 64))
/-- SRA (R432). -/
def execTSra (core : CoreId) (s : State) : Res := s.alu core 0x18 (fun a b => a.sshiftRight (b.toNat % 64))
/-- MIN, signed (R432). -/
def execTMin (core : CoreId) (s : State) : Res := s.alu core 0x19 (fun a b => if a.slt b then a else b)
/-- MAX, signed (R432). -/
def execTMax (core : CoreId) (s : State) : Res := s.alu core 0x1A (fun a b => if a.slt b then b else a)
/-- MOVHI (R432). -/
def execTMovhi (core : CoreId) (s : State) : Res :=
  s.tile core 0x1B (fun s _ x w => s.setCore core (x.setReg (rD w) (setFld (x.reg (rD w)) 32 32 (fld w 0 32))).next)
/-- MOVI (R432). -/
def execTMovi (core : CoreId) (s : State) : Res := s.tile core 0x1C (fun s _ x w => s.setCore core (x.setReg (rD w) (rImm w)).next)

/-- s[D] := an FP64 function of s[A], s[B] and s[D]. -/
def State.fpu (s : State) (core op : Nat) (f : Nat → Nat → Nat → Nat) : Res :=
  s.tile core op (fun s _ x w =>
    s.setCore core (x.setReg (rD w) (BitVec.ofNat 64 (f (x.reg (rA w)).toNat (x.reg (rB w)).toNat (x.reg (rD w)).toNat))).next)
/-- FADD (R433). -/
def execTFadd (core : CoreId) (s : State) : Res := s.fpu core 0x20 (fun a b _ => fp64.op2 Num.add a b)
/-- FSUB (R433). -/
def execTFsub (core : CoreId) (s : State) : Res := s.fpu core 0x21 (fun a b _ => fp64.op2 (fun u v => u.add v.neg) a b)
/-- FMUL (R433). -/
def execTFmul (core : CoreId) (s : State) : Res := s.fpu core 0x22 (fun a b _ => fp64.op2 Num.mul a b)
/-- FDIV (R433). -/
def execTFdiv (core : CoreId) (s : State) : Res := s.fpu core 0x23 (fun a b _ => fp64.op2 Num.div a b)
/-- FSQRT (R433). -/
def execTFsqrt (core : CoreId) (s : State) : Res := s.fpu core 0x24 (fun a _ _ => fp64.code (fp64.num a).sqrt)
/-- FFMA (R433). -/
def execTFfma (core : CoreId) (s : State) : Res := s.fpu core 0x25 (fun a b d => fp64.fma a b d)
/-- ITOF (R432). -/
def execTItof (core : CoreId) (s : State) : Res := s.fpu core 0x26 (fun a _ _ => itof (BitVec.ofNat 64 a))
/-- FTOI (R432). -/
def execTFtoi (core : CoreId) (s : State) : Res := s.fpu core 0x27 (fun a _ _ => (ftoi a).toNat)
/-- FLT (R432). -/
def execTFlt (core : CoreId) (s : State) : Res := s.fpu core 0x28 (fun a b _ => if (fp64.num a).lt (fp64.num b) then 1 else 0)

/-! Loads, stores and transfers (R437 to R441). -/

/-- The address of LD and ST, aligned down to the size (R437). -/
def ldAddr (x : CoreSt) (w : Word) : Nat := let n := 2 ^ fld w 35 2; (x.reg (rA w) + rImm w).toNat / n * n

/-- LD (R437). -/
def execTLd (core : CoreId) (s : State) : Res :=
  s.tile core 0x30 (fun s k x w =>
    let n := 2 ^ fld w 35 2
    let sp := fld w 37 3
    let a := ldAddr x w
    let put (s : State) (v : Nat) : State := s.setCore core (((s.core core).setReg (rD w) (BitVec.ofNat 64 v))).next
    if sp ≠ 5 then (if x.locked (regionsOf sp 0 a n) then s else put s (readWrap (s.space core x sp 0) (spaceSize sp) a n))
    else match s.resolve k.part a n with
      | none => s.kernelFault k.id .range
      | some (o, y) =>
        if s.storeAhead core o y n then s else
        match s.kernelRead k a n with
        | (s, _, .ok v) => put (s.flashGot (.kernel k.id) o (y / 4096)) v
        | (s, _, .wait page) => s.flashWait (.kernel k.id) o page
        | (s, _, .bad _) => s.kernelFault k.id .uncorrectable)

/-- A pool store of the core at its pc: `n` bytes of `v`, from where it stands; then the core goes on (R428, R430, R437, R440). -/
def State.coreStore (s : State) (core : Nat) (k : KernelSt) (x : CoreSt) (a n v group : Nat) : State :=
  let (s, pos, r) := s.kernelStore (.core core) k a n v x.pos
  match r with
  | .fault c => s.kernelFault k.id c
  | .held => s.setCore core { x with pos := pos }
  | .done =>
    match s.resolve k.part a n with
    | none => s.setCore core x.next
    | some (o, y) => (s.setCore core { x.next with xid := x.xid + 1 }).storeAwait core (group + 16 * x.xid) o y n

/-- ST (R437). -/
def execTSt (core : CoreId) (s : State) : Res :=
  s.tile core 0x31 (fun s k x w =>
    let n := 2 ^ fld w 35 2
    let sp := fld w 37 3
    let a := ldAddr x w
    let v := (x.reg (rD w)).toNat % 256 ^ n
    if sp ≠ 5 then (if x.locked (regionsOf sp 0 a n) then s else s.spacePut core x.next sp 0 a n v)
    else s.coreStore core k x a n v 8)

/-- TLD (R438, R439): its pages become outstanding; TLD_PAGE_ARRIVE brings each. -/
def execTTld (core : CoreId) (s : State) : Res :=
  s.tile core 0x38 (fun s k x w =>
    let a := (x.reg (fld w 51 5)).toNat / 4096 * 4096
    let dsp := fld w 43 3
    let em := fld w 39 4
    let off := (x.reg (fld w 46 5)).toNat / 4096 * 4096 % spaceSize dsp
    let g := fld w 30 3
    let pages := (List.range (fld w 33 6 + 1)).map (fun i =>
      ({ xid := x.xid, group := g, addr := a + 4096 * i, dsp := dsp, em := em,
         off := if dsp = 1 then (em + i) % 16 else (off + 4096 * i) % spaceSize dsp } : TldPage))
    if pages.any (fun t => (s.resolve k.part t.addr 4096).isNone) then s.kernelFault k.id .range
    else if 64 ≤ s.outstanding core x g || x.locked (pages.flatMap (·.regions)) then s
    else if pages.any (fun t => match s.resolve k.part t.addr 4096 with | some (o, y) => s.storeAhead core o y 4096 | none => false) then s
    else
      -- the slots that the TLD will fill stand empty until their pages arrive
      let x := if dsp = 0 then x.fillSlots em off (min 196608 (4096 * pages.length)) false else x
      s.setCore core { x.next with tld := x.tld ++ pages, xid := x.xid + 1 })

/-- TLD_PAGE_ARRIVE (R364, R439): the i-th outstanding page of a core arrives. -/
def execTldPageArrive (core : CoreId) (i : Nat) (s : State) : Res :=
  .next (
    let x := s.core core
    match x.kid.bind s.kernel, x.tld[i]? with
    | some k, some t =>
      if !k.running || k.fault.isSome then s else
      match s.resolve k.part t.addr 4096 with
      | none => s.kernelFault k.id .range
      | some (o, a) => match s.tldPage k (core.val / 8) o (a / 4096) (if t.dsp = 0 then x.urgency t.em else 0) with
        | (s, .wait page) => s.flashWait (.kernel k.id) o page
        | (s, .bad _) => s.kernelFault k.id .uncorrectable
        | (s, .ok v) =>
          let s := s.flashGot (.kernel k.id) o (a / 4096)
          let y := s.core core
          s.spacePut core { y with tld := y.tld.eraseIdx i } t.dsp t.em (if t.dsp = 1 then 4096 * t.off else t.off) 4096 v
    | _, _ => s)

/-- TST (R440). -/
def execTTst (core : CoreId) (s : State) : Res :=
  s.tile core 0x39 (fun s k x w =>
    let a := (x.reg (fld w 51 5)).toNat / 64 * 64
    let off := (x.reg (fld w 46 5)).toNat / 64 * 64
    let sp := fld w 43 3
    let n := 64 * (fld w 29 10 + 1)
    let g := fld w 26 3
    if x.locked (regionsOf sp 0 off n) || 64 ≤ s.outstanding core x g then s
    else s.coreStore core k x a n (readWrap (s.space core x sp 0) (spaceSize sp) off n) g)

/-- XFER (R441). -/
def execTXfer (core : CoreId) (s : State) : Res :=
  s.tile core 0x3A (fun s _ x w =>
    let d := (x.reg (fld w 51 5)).toNat / 64 * 64
    let o := (x.reg (fld w 46 5)).toNat / 64 * 64
    let dsp := fld w 43 3
    let ssp := fld w 40 3
    let em := fld w 36 4
    let n := 64 * (fld w 22 14 + 1)
    let low := 2 ^ ((List.range 4).find? (fun e => em.testBit e)).getD 0
    if x.locked (regionsOf ssp low o (min n (spaceSize ssp)) ++ regionsOf dsp em d (min n (spaceSize dsp))) || 64 ≤ s.outstanding core x (fld w 19 3) then s
    else
      -- a copy longer than a space wraps over it: line by line from the lines as first read
      let src := s.space core x ssp em
      let z := spaceSize ssp
      let lines := (List.range (n / 64)).map (fun i => readWrap src z (o + 64 * i) 64)
      ((List.range (n / 64)).zip lines).foldl (fun s l => s.spacePut core (s.core core) dsp em (d + 64 * l.1) 64 l.2) (s.setCore core x.next))

/-! SYNC (R430, R454 to R456, R482 to R486). -/

/-- The sync operation of a core at its pc. -/
def State.coreSync (s : State) (c op : Nat) (src : SyncSrc) : State :=
  match s.issue c with
  | none => s
  | some (k, x, w) =>
    if fld w 56 8 ≠ 0x70 ∨ fld w 0 4 ≠ op then s
    else if !(op == 2 || op == 3 || op == 5) && !s.settled c x then s
    else match (s.part k.part).cfg with
      | none => s.kernelFault k.id .range
      | some r =>
        let i := (x.reg (rA w)).toNat
        if r.syncCount ≤ i then s.kernelFault k.id .range
        else s.syncOp (r.syncBase + i) { op := op, value := x.reg (rB w), expected := x.reg (fld w 35 5), timeoutUs := 0, part := k.part, queue := k.queue, src := src }

/-- A sync operation of one kind for its source: a descriptor of TYPE 7, or a core (R471, R454). -/
def State.syncCmd (s : State) (op : Nat) (src : SyncSrc) : State :=
  match src with
  | .core c => s.coreSync c op src
  | .desc q n =>
    match s.desc q n with
    | none => s
    | some d =>
      let k := d.fld 0x12 1
      if d.fld 0 1 = 7 ∧ k ≠ op ∧ k ≤ 7 then s else
      match s.startDesc q n (· == 7) with
      | some (p, s, some d) =>
        (match s.objRef p (d.fld 0x10 2) with
        | .inr st => s.endDesc q d st 0x10
        | .inl o => s.syncOp o { op := op, value := BitVec.ofNat 64 (d.fld 0x18 8), expected := BitVec.ofNat 64 (d.fld 0x20 8), timeoutUs := d.fld 0x14 4, part := p, queue := q, src := src })
      | some (_, s, none) => s
      | none => s

/-- SYNC_SET (R482). -/
def execSyncSet (src : SyncSrc) (s : State) : Res := .next (s.syncCmd 0 src)
/-- SYNC_ADD (R482). -/
def execSyncAdd (src : SyncSrc) (s : State) : Res := .next (s.syncCmd 1 src)
/-- SYNC_WAIT_GE (R483). -/
def execSyncWaitGe (src : SyncSrc) (s : State) : Res := .next (s.syncCmd 2 src)
/-- SYNC_WAIT_EQ (R483). -/
def execSyncWaitEq (src : SyncSrc) (s : State) : Res := .next (s.syncCmd 3 src)
/-- SYNC_COMPARE_AND_SWAP (R482). -/
def execSyncCompareAndSwap (src : SyncSrc) (s : State) : Res := .next (s.syncCmd 4 src)
/-- SYNC_LOCK (R484). -/
def execSyncLock (src : SyncSrc) (s : State) : Res := .next (s.syncCmd 5 src)
/-- SYNC_UNLOCK (R485). -/
def execSyncUnlock (src : SyncSrc) (s : State) : Res := .next (s.syncCmd 6 src)
/-- SYNC_BARRIER_ARRIVE (R486). -/
def execSyncBarrierArrive (src : SyncSrc) (s : State) : Res := .next (s.syncCmd 7 src)

/-- SYNC_WAIT_TIMEOUT (R483, R484): the deadline of a wait or lock request passes. -/
def execSyncWaitTimeout (src : SyncSrc) (s : State) : Res :=
  .next (match s.sync.find? (fun e => e.2.waits.any (fun w => w.src == src && w.deadline.isSome)) with
    | none => s
    | some (k, o) => match o.waits.find? (fun w => w.src == src) with
      | none => s
      | some w =>
        let s := s.reach (w.deadline.getD 0)
        let s := s.setObj k { o with waits := o.waits.filter (fun v => v.src != src) }
        s.syncDone src stTimeout (if w.kind = .lock then stTimeout else o.value.toNat))

end Sys2Proof.Machine
end

