-- ==== Sys2Proof/Machine/Vector.lean ====
section
/-! DEFINITION. Engine, conversion and vector instructions of tile programs (R442 to R453). -/

namespace Sys2Proof.Machine

/-- First byte of row r of accumulator tile t (R424, R450). -/
def accAddr (t r : Nat) : Nat := 16384 * t + 256 * r
/-- A row of an accumulator tile as a number. -/
def CoreSt.accRow (x : CoreSt) (t r : Nat) : Nat := x.acc.readN (accAddr t r) 256
/-- Write a row of an accumulator tile. -/
def CoreSt.putRow (x : CoreSt) (t r v : Nat) : CoreSt := { x with acc := x.acc.writeN (accAddr t r) 256 v }
/-- A tile's sticky flags take NaN (1) or infinity (2) (R404). -/
def CoreSt.addFlags (x : CoreSt) (t fl : Nat) : CoreSt := { x with flags := x.flags ||| (fl % 4 * 4 ^ t) }
/-- Lanes of `w` bytes as one number. -/
def packLanes (w : Nat) (l : List Nat) : Nat := l.foldr (fun v r => v + r * 256 ^ w) 0

/-! MMA (R442 to R446). -/

/-- The weight rows of an MMA, whether the stream was malformed or left a block of the tile unfound, and the regions read (R396, R443). -/
def mmaWeights (x : CoreSt) (w : Word) : (Nat → WRow) × Bool × List (Nat × Nat × Nat) :=
  let e := fld w 54 2
  let wf := fld w 11 3
  let buf := x.bufs.getD e []
  let slot := (x.reg (fld w 46 5)).toNat % 196608 / 4096
  let wt := fld w 30 4
  if 4 ≤ wf then
    let n := if wf = 5 then 2 else 1
    let v := if fld w 35 1 = 1 then x.tiles.readN (4096 * wt) (4096 * n) else readWrap buf 196608 (4096 * slot) (4096 * n)
    let rs := (List.range n).map (fun i => if fld w 35 1 = 1 then (1, 0, wt + i) else (0, e, (slot + i) % 48))
    (plainRow v wf 1 0 0, false, rs)
  else
    let nb := blockLen wf
    let j0 := (x.reg (fld w 41 5)).toNat
    let t := walkSlots wf (fun i => buf.readN (4096 * i) 4096) (j0 + 4096 / nb) 48 slot { expect := none }
    let row (r : Nat) : WRow := .blocks wf ((List.range (64 / nb)).map (fun b => t.block (j0 + r * (64 / nb) + b)))
    let whole := (List.range (4096 / nb)).all (fun i => (t.block (j0 + i)).isSome)
    (row, t.malformed || !whole, (List.range t.read).map (fun i => (0, e, (slot + i) % 48)))

/-- The activation columns of an MMA, and the regions read (R444). -/
def mmaColumns (x : CoreSt) (w : Word) : List (Nat × List Num) × List (Nat × Nat × Nat) :=
  let e := fld w 54 2
  let af := fld w 8 3
  let cb := if af = 3 ∨ af = 4 then 128 else 64
  let xt := fld w 26 4
  let off := (x.reg (fld w 36 5)).toNat / 64 * 64
  let c0 := fld w 14 6
  let nc := fld w 20 6 + 1
  let bytes (c : Nat) : Nat :=
    if fld w 34 1 = 0 then x.tiles.readN (4096 * xt + cb * c) cb else readWrap (x.bufs.getD e []) 196608 (off + cb * c) cb
  ((List.range nc).map (fun i => (c0 + i, (List.range 64).map (actNum af (bytes (c0 + i))))),
    if fld w 34 1 = 0 then [(1, 0, xt)] else regionsOf 0 (2 ^ e) (off + cb * c0) (cb * nc))

/-- One row of the accumulator takes the products of a k-group: the new row, its flags, its escalated pairs (R445). -/
def mmaRow (old : Nat) (w : WRow) (cols : List (Nat × List Num)) (wide : Bool) : Nat × Nat × Nat :=
  let r := (List.range 64).map (fun c => match cols.find? (fun x => x.1 == c) with
    | none => ((⟨fieldOf old (4 * c) 4, 0⟩ : Acc), 0)
    | some x => rowStep ⟨fieldOf old (4 * c) 4, 0⟩ w x.2 wide)
  (packLanes 4 (r.map (·.1.v)), r.foldl (fun f a => f ||| a.1.fl) 0, r.foldl (fun g a => g + a.2) 0)

/-- MMA (R442 to R446). -/
def execTMma (core : CoreId) (s : State) : Res :=
  s.tile core 0x40 (fun s k x w =>
    let (row, malformed, wr) := mmaWeights x w
    let (cols, ar) := mmaColumns x w
    let t := fld w 51 3
    let af := fld w 8 3
    let wide := af == 3 || af == 4
    if x.locked (wr ++ ar ++ regionsOf 4 0 (16384 * t) 16384) then s else
    let refl := fld w 7 1 = 1
    let (y, fl, g) := (List.range 64).foldl (fun (a : CoreSt × Nat × Nat) r =>
      let (v, f, g) := mmaRow (a.1.accRow t r) (row r) cols wide
      (a.1.putRow t r v, a.2.1 ||| f, a.2.2 + g)) (x, 0, 0)
    let z := y.addFlags t fl
    let glare := z.glare + g
    let n := z.reflN
    let s := s.setCore core ({ z with glare := glare, reflN := if refl then n + 1 else n }).next
    let s := (s.countGlare k.id g).kernelFlags k.id fl
    let s := if malformed then s.setB .cmpPNarEvent 2 k.part else s
    let l := fld k.reflect 0 5
    if refl ∧ l ≠ 0 ∧ n % 2 ^ l = 0 then
      s.reflectTile k.id (k.cores.idxOf core.val) (n % 4096) (n / 4096 % 4096) wide row cols (fld k.reflect 8 5)
    else s)

/-! CVT (R447 to R449). -/

/-- Bytes of a column that CVT writes (R448). -/
def cvtBytes (ofm : Nat) : Nat := if ofm = 6 then 256 else if ofm = 3 ∨ ofm = 4 then 128 else 64

/-- CVT (R447 to R449). -/
def execTCvt (core : CoreId) (s : State) : Res :=
  s.tile core 0x48 (fun s k x w =>
    let t := fld w 53 3
    let dsp := fld w 50 3
    let em := fld w 46 4
    let off := (x.reg (fld w 41 5)).toNat / 64 * 64
    let si := (x.reg (fld w 36 5)).toNat
    let ofm := fld w 33 3
    let rnd := fld w 31 2
    let c0 := fld w 25 6
    let nc := fld w 19 6 + 1
    let ob := cvtBytes ofm
    if x.locked (regionsOf dsp em off (ob * nc) ++ regionsOf 4 0 (16384 * t) 16384) then s else
    let stoch := k.arg 5 1 = 1 ∧ rnd ≠ 0
    let rows := (List.range 64).map (fun r => x.accRow t r)
    (List.range nc).foldl (fun s i =>
      let c := c0 + i
      let v := columnBytes ofm (rows.map (fun r => fieldOf r (4 * c) 4)) (fun r => if stoch then some (randomG k.seed k.launchNo (si + 64 * c + r)) else none)
      s.spacePut core (s.core core) dsp em (off + ob * i) ob v) (s.setCore core x.next))

/-! VOP (R450 to R453). -/

/-- The fields of a VOP. -/
structure Vop where
  f : Fmt
  /-- Bytes of a lane. -/
  wb : Nat
  d : Nat
  a : Nat
  b : Nat
  row0 : Nat
  rows : Nat
  /-- The broadcast operand. -/
  bc : Option Nat
  sb : Nat
  deriving DecidableEq, Repr

/-- Read the fields of a VOP (R450). -/
def vopOf (x : CoreSt) (w : Word) : Vop :=
  let p := fld w 29 1 = 1
  let sb := fld w 23 5
  { f := if p then fp64 else fp32, wb := if p then 8 else 4, d := fld w 48 3, a := fld w 45 3, b := fld w 42 3,
    row0 := fld w 36 6, rows := fld w 30 6 + 1, bc := if fld w 28 1 = 1 then some ((x.reg sb).toNat % (if p then 2 ^ 64 else 2 ^ 32)) else none, sb := sb }

/-- Lanes of a row. -/
def Vop.lanes (v : Vop) (row : Nat) : List Nat := (List.range (256 / v.wb)).map (fun l => fieldOf row (v.wb * l) v.wb)
/-- Operand b of a row. -/
def Vop.bRow (v : Vop) (x : CoreSt) (r : Nat) : List Nat :=
  match v.bc with
  | none => v.lanes (x.accRow v.b r)
  | some c => List.replicate (256 / v.wb) c

/-- Regions a VOP touches: accumulator tiles alone. -/
def tileRegions (l : List Nat) : List (Nat × Nat × Nat) := l.flatMap (fun t => regionsOf 4 0 (16384 * t) 16384)

/-- A VOP at the core's pc with function `fn`. -/
def State.vop (s : State) (core : CoreId) (fn : Nat) (f : State → KernelSt → CoreSt → Vop → State) : Res :=
  s.tile core 0x60 (fun s k x w =>
    let v := vopOf x w
    if fld w 51 5 ≠ fn ∨ x.locked (tileRegions [v.d, v.a, v.b]) then s else f s k x v)

/-- A lane-wise function of a, b and the old d (R451, R453). -/
def State.vopMap (s : State) (core : CoreId) (fn : Nat) (f : Fmt → Nat → Nat → Nat → Nat) : Res :=
  s.vop core fn (fun s k x v =>
    let (y, fl) := (List.range v.rows).foldl (fun (p : CoreSt × Nat) i =>
      let r := v.row0 + i
      let out := ((v.lanes (p.1.accRow v.a r)).zip ((v.bRow p.1 r).zip (v.lanes (p.1.accRow v.d r)))).map (fun l => f v.f l.1 l.2.1 l.2.2)
      (p.1.putRow v.d r (packLanes v.wb out), out.foldl (fun m c => m ||| numFlags (v.f.num c)) p.2)) (x, 0)
    (s.setCore core (y.addFlags v.d fl).next).kernelFlags k.id fl)

/-- A reduction into s[SB] (R451, R452). -/
def State.vopReduce (s : State) (core : CoreId) (fn : Nat) (f : CoreSt → Vop → Nat) : Res :=
  s.vop core fn (fun s _ x v => s.setCore core (x.setReg v.sb (BitVec.ofNat 64 (f x v))).next)

/-- VOP ADD (R451). -/
def execTVopAdd (core : CoreId) (s : State) : Res := s.vopMap core 0 (fun f a b _ => f.op2 Num.add a b)
/-- VOP SUB (R451). -/
def execTVopSub (core : CoreId) (s : State) : Res := s.vopMap core 1 (fun f a b _ => f.op2 (fun u v => u.add v.neg) a b)
/-- VOP MUL (R451). -/
def execTVopMul (core : CoreId) (s : State) : Res := s.vopMap core 2 (fun f a b _ => f.op2 Num.mul a b)
/-- VOP FMA (R451). -/
def execTVopFma (core : CoreId) (s : State) : Res := s.vopMap core 3 (fun f a b d => f.fma a b d)
/-- VOP FNMA (R451). -/
def execTVopFnma (core : CoreId) (s : State) : Res := s.vopMap core 4 (fun f a b d => f.code (((f.num a).mul (f.num b)).neg.add (f.num d)))
/-- VOP MAX (R451). -/
def execTVopMax (core : CoreId) (s : State) : Res := s.vopMap core 5 (fun f a b _ => f.op2 Num.max a b)
/-- VOP MIN (R451). -/
def execTVopMin (core : CoreId) (s : State) : Res := s.vopMap core 6 (fun f a b _ => f.op2 Num.min a b)
/-- VOP DIV (R451). -/
def execTVopDiv (core : CoreId) (s : State) : Res := s.vopMap core 7 (fun f a b _ => f.op2 Num.div a b)
/-- VOP SQRT (R451). -/
def execTVopSqrt (core : CoreId) (s : State) : Res := s.vopMap core 8 (fun f a _ _ => f.code (f.num a).sqrt)
/-- VOP ABS (R451, log 30). -/
def execTVopAbs (core : CoreId) (s : State) : Res := s.vopMap core 9 (fun f a _ _ => f.code (f.num a).abs)
/-- VOP NEG (R451, log 30). -/
def execTVopNeg (core : CoreId) (s : State) : Res := s.vopMap core 10 (fun f a _ _ => f.code (f.num a).neg)
/-- VOP MOV (R451, log 30). -/
def execTVopMov (core : CoreId) (s : State) : Res := s.vopMap core 11 (fun _ a _ _ => a)

/-- VOP CLR (R451): over rows 0 to 63 it also clears AD's flags. -/
def execTVopClr (core : CoreId) (s : State) : Res :=
  s.vop core 12 (fun s _ x v =>
    let y := (List.range v.rows).foldl (fun (y : CoreSt) i => y.putRow v.d (v.row0 + i) 0) x
    let flags := if v.row0 = 0 ∧ v.rows = 64 then y.flags - y.flags / 4 ^ v.d % 4 * 4 ^ v.d else y.flags
    s.setCore core ({ y with flags := flags }).next)

/-- Pairwise sums until one lane is left (R452). -/
def pairSums (f : Fmt) : Nat → List Nat → Nat
  | 0, l => l.headD 0
  | n + 1, l => pairSums f n ((List.range (l.length / 2)).map (fun i => f.op2 Num.add (l.getD (2 * i) 0) (l.getD (2 * i + 1) 0)))

/-- The fixed-order reduction of a × b (R452). -/
def Vop.reduce (v : Vop) (a b : Nat → List Nat) : Nat :=
  let p := (List.range v.rows).foldl (fun (p : List Nat) i =>
    ((a (v.row0 + i)).zip ((b (v.row0 + i)).zip p)).map (fun l => v.f.fma l.1 l.2.1 l.2.2)) (List.replicate (256 / v.wb) 0)
  pairSums v.f (if v.wb = 8 then 5 else 6) p

/-- VOP DOT (R452). -/
def execTVopDot (core : CoreId) (s : State) : Res :=
  s.vopReduce core 13 (fun x v => v.reduce (fun r => v.lanes (x.accRow v.a r)) (fun r => v.lanes (x.accRow v.b r)))
/-- VOP RSUM (R452): b is 1. -/
def execTVopRsum (core : CoreId) (s : State) : Res :=
  s.vopReduce core 14 (fun x v => v.reduce (fun r => v.lanes (x.accRow v.a r)) (fun _ => List.replicate (256 / v.wb) (v.f.code (.fin false 1 0))))
/-- VOP RMAX (R451). -/
def execTVopRmax (core : CoreId) (s : State) : Res :=
  s.vopReduce core 15 (fun x v =>
    v.f.code (((List.range v.rows).flatMap (fun i => (v.lanes (x.accRow v.a (v.row0 + i))).map v.f.num)).foldl
      (fun (m : Option Num) y => some (match m with | none => y | some z => z.max y)) none |>.getD .nan))

end Sys2Proof.Machine
end

