-- ==== Sys2Proof/Machine/Image.lean ====
section
/-! DEFINITION. Structure images: header, records, trailer, validation (02 R53 to R70, R76, R82; R155, R203, R244, R275, R302, R331, R502 to R504, R523, R546). -/

namespace Sys2Proof.Machine

/-! Bytes. -/

/-- A little-endian field of an image given byte by byte. -/
def srcN (g : Nat → Byte) (off n : Nat) : Nat := ofBytes ((List.range n).map (fun i => g (off + i)))
/-- A run of bytes of an image. -/
def srcBytes (g : Nat → Byte) (off n : Nat) : List Byte := (List.range n).map (fun i => g (off + i))
/-- A big-endian number (R57). -/
def beNat (l : List Byte) : Nat := l.foldl (fun a b => 256 * a + b.toNat) 0
/-- A byte of the staging window; one that nothing has written is undefined (R83, log 8). -/
def State.stageByte (s : State) (i : Nat) : Byte := (Store.get none i s.img.staging).getD (Config.stagingByte i)
/-- The first failing check of a list: (fails, status). -/
def firstFail (l : List (Bool × Nat)) : Option Nat := (l.find? (·.1)).map (·.2)

/-- TOTAL_LEN of an image (R54). -/
def imgTotal (g : Nat → Byte) : Nat := srcN g 8 4
/-- SEQUENCE of an image (R54). -/
def imgSeq (g : Nat → Byte) : Nat := srcN g 0x10 8

/-! Step 1 of R65: the header. -/

/-- The first failure of the header (R54, R65, R66). `fw`: the running firmware version as MIN_FW writes it. `live`: a reload may be taken. -/
def headerFail (g : Nat → Byte) (fw : Nat) (safe live : Bool) : Option Nat :=
  let f (o n : Nat) : Nat := srcN g o n
  firstFail [(crc32c (srcBytes g 0 0x30) != f 0x30 4, stFormat), (f 0 4 != 0x494B5844, stFormat), (f 4 2 != 1, stFormat), (f 6 2 != 64, stFormat),
    (f 8 4 % 8 != 0 || decide (524160 < f 8 4), stFormat), (f 0xC 2 == 0 || decide (4096 < f 0xC 2), stRange),
    (decide (1 < f 0xE 1) || (f 0xE 1 == 1 && !live), stRange), (f 0xE 1 == 1 && safe, stDenied),
    (if f 0xE 1 = 0 then f 0xF 1 != 0xFF else decide (15 < f 0xF 1), stRange), (f 0x18 4 != 0xB640, stDenied),
    (decide (fw < f 0x1C 4) || f 0x1C 4 / 2 ^ 24 != fw / 2 ^ 24, stDenied), (f 0x34 12 != 0, stFormat)]

/-! Step 2: the trailer (R57 to R59). -/

/-- The key of a slot (R58). -/
def State.keyOf (s : State) (k : Nat) : Option (BitVec 768) := if k = 0 then some Config.cylaynKey else s.img.keys.getD k none

/-- SEQUENCE of the last-good image; the minimal image has 0 (R59). -/
def State.lastGoodSeq (s : State) : Nat := match s.img.lastGood with | none => 0 | some b => ofBytes ((b.drop 0x10).take 8)
/-- SEQUENCE of the full image in force. -/
def State.activeSeq (s : State) : Nat := match s.img.inForce with | none => 0 | some i => i.sequence

/-- SHA-384 over the signed bytes (R57). -/
def imgDigest (g : Nat → Byte) : BitVec 384 := Sys2Proof.Machine.sha384 (srcBytes g 0 (imgTotal g))

/-- The first failure of the trailer step (R57 to R59, R66). -/
def State.trailerFail (s : State) (g : Nat → Byte) : Option Nat :=
  let t := imgTotal g
  let k := srcN g t 1
  let keys := s.rd .strKeyState
  let p := srcN g 0xF 1
  match firstFail [(decide (3 < k), stRange), (srcN g (t + 1) 15 != 0, stFormat), (srcN g (t + 112) 16 != 0, stFormat),
      (!bit keys k || bit keys (8 + k), stDenied)] with
  | some st => some st
  | none =>
    let r := BitVec.ofNat 384 (beNat (srcBytes g (t + 16) 48))
    let v := BitVec.ofNat 384 (beNat (srcBytes g (t + 64) 48))
    let signed := match s.keyOf k with | none => false | some key => ecdsaOk key (imgDigest g) r v
    if !signed then some stDenied
    else if srcN g 0xE 1 = 0 then (if imgSeq g < s.lastGoodSeq then some stDenied else none)
    else if imgSeq g < s.activeSeq ∨ (s.img.reloads.contains p ∧ imgSeq g ≤ (s.rd .strPartSeq p).toNat) then some stDenied else none

/-! Step 3: the records. -/

/-- A record's outcome: refused with a status, or read. -/
inductive RecRes where
  | bad (status : Nat)
  | good (r : ImgRec)

/-- A record after its fails. -/
def recIf (l : List (Bool × Nat)) (r : ImgRec) : RecRes := match firstFail l with | some st => .bad st | none => .good r

/-- Scope and reload of each known type (R60): (partition scope, Reload). -/
def typeInfo : Nat → Option (Bool × Bool)
  | 2 => some (true, true) | 4 => some (true, true) | 6 => some (true, true) | 9 => some (true, true) | 0xD => some (true, false)
  | 1 => some (false, false) | 3 => some (false, false) | 5 => some (false, false) | 7 => some (false, false) | 8 => some (false, false)
  | 0xA => some (false, false) | 0xB => some (false, false) | 0xC => some (false, false)
  | _ => none

/-- The PART record (R63, R64 within one record). -/
def partRec (b : List Byte) (scope : Nat) : RecRes :=
  let f (o n : Nat) : Nat := argFld b o n
  let bc := f 0x12 1
  let rc := f 0x13 1
  let ro := (0x40 + 4 * bc + 7) / 8 * 8
  let need := ro + 32 * rc
  let gib := 2 ^ 30
  let binds := (List.range bc).map (fun i => (f (0x40 + 4 * i) 1, f (0x41 + 4 * i) 1))
  let attrOf (v : Nat) : Attr := if v = 0 then .priv else if v = 1 then .shared else if v = 2 then .frozen else .window
  let rangeAt (i : Nat) : RangeRec :=
    let o := ro + 32 * i
    ⟨f o 8, f (o + 8) 8, f (o + 16) 8, attrOf (f (o + 24) 1), f (o + 25) 1⟩
  let ranges := (List.range rc).map rangeAt
  let r : PartRec := ⟨f 0x10 1, bit (BitVec.ofNat 64 (f 0x11 1)) 0, binds, ranges, f 0x14 2, f 0x16 2, f 0x18 8, f 0x20 8, f 0x28 8, f 0x30 8, f 0x38 2, f 0x3A 2, f 0x3C 2, f 0x3E 2⟩
  let head : List (Bool × Nat) := [(r.id != scope, stRange), (decide (1 < f 0x11 1), stFormat), (bc == 0 || decide (32 < bc), stRange), (rc == 0 || decide (64 < rc), stRange),
    (decide (b.length < need), stFormat), (decide (r.deepMissUs < 2 ∨ 200 < r.deepMissUs), stRange), (decide (r.mergeQuota < 16 ∨ 4096 < r.mergeQuota), stRange),
    (decide (r.apparent % gib ≠ 0 ∨ r.apparent < gib ∨ 2 ^ 47 < r.apparent ∨ 2 * (r.quota0 + r.quota1 + r.quota2) < r.apparent), stRange),
    (r.quota0 % gib != 0, stRange), (r.quota1 % gib != 0, stRange), (r.quota2 % gib != 0, stRange),
    (decide (4095 < r.queueBase), stRange), (decide (4096 < r.queueBase + r.queueCount), stRange),
    (decide (8191 < r.syncBase), stRange), (decide (8192 < r.syncBase + r.syncCount), stRange)]
  let bindF := (List.range bc).flatMap (fun i => [(decide (31 < f (0x40 + 4 * i) 1), stRange), (decide (15 < f (0x41 + 4 * i) 1), stRange), (f (0x42 + 4 * i) 2 != 0, stFormat)])
  let rangeF := (List.range rc).flatMap (fun i =>
    let o := ro + 32 * i
    let x := rangeAt i
    [(x.base % 65536 != 0, stRange), (x.length % 65536 != 0 || x.length == 0 || decide (2 ^ 52 < x.base + x.length), stRange),
     (x.target % 65536 != 0 || (x.owner == scope && decide (r.apparent < x.target + x.length)), stRange),
     (decide (3 < f (o + 24) 1) || (x.owner != scope && x.attr != .shared && x.attr != .frozen), stRange), (decide (15 < x.owner), stRange), (f (o + 26) 6 != 0, stFormat),
     ((ranges.take i).any (fun y => decide (y.base < x.base + x.length ∧ x.base < y.base + y.length)), stRange)])
  recIf (head ++ bindF ++ [(f (0x40 + 4 * bc) (ro - 0x40 - 4 * bc) != 0, stFormat)] ++ rangeF ++ [((b.drop need).any (fun x => x != 0), stFormat)]) (.part r)

/-- A bank mask has its own bit set, and otherwise only row bits (R275). -/
def maskBad (own lo hi v : Nat) : Bool := v / 2 ^ own % 2 == 0 || (v - 2 ^ own) % 2 ^ lo != 0 || decide (2 ^ (hi + 1) ≤ v)

/-- One record's body by its type (R60): its fields in ascending offset. `fast`: STRAP_SPEED. -/
def bodyRec (ty scope : Nat) (fast : Bool) (b : List Byte) : RecRes :=
  let f (o n : Nat) : Nat := argFld b o n
  let body := b.drop 16
  let masks := [f 0x18 8, f 0x20 8, f 0x28 8, f 0x30 8]
  let len (n : Nat) : Bool × Nat := (b.length != n, stRange)
  match ty with
  | 1 =>
    let r := Config.portBody body
    recIf [(decide (7 < r.port), stRange), (decide (2 < r.bifurcation), stRange), (!([16, 32, 64, 128].contains r.rate) || (r.rate == 128 && !fast), stRange), (decide (2 < r.ide), stRange)] (.port r)
  | 2 => if b.length < 0x40 then .bad stFormat else partRec b scope
  | 3 =>
    recIf [len 56, (f 0x10 1 == 0, stRange), (f 0x11 1 == 0, stRange), (f 0x12 1 == 255 || decide (f 0x11 1 ≤ f 0x12 1), stRange), (f 0x13 1 == 255 || decide (f 0x10 1 ≤ f 0x13 1), stRange),
      (f 0x14 2 == 0 || decide (1000 < f 0x14 2), stRange), (f 0x16 2 != 0, stFormat),
      (maskBad 13 18 36 (f 0x18 8), stRange), (maskBad 14 18 36 (f 0x20 8), stRange), (maskBad 15 18 36 (f 0x28 8), stRange), (maskBad 16 18 36 (f 0x30 8), stRange)]
      (.tier ⟨f 0x10 1, f 0x11 1, f 0x12 1, f 0x13 1, f 0x14 2, masks⟩)
  | 4 =>
    recIf [len 40, (f 0x10 8 % 65536 != 0, stRange), (f 0x18 8 == 0 || f 0x18 8 % 65536 != 0, stRange),
      (if f 0x20 1 = 255 then f 0x21 1 != 0 else !paramOk (f 0x20 1) (f 0x21 1), stRange), (f 0x22 6 != 0, stFormat)]
      (.lens ⟨scope, f 0x10 8, f 0x18 8, f 0x20 1, f 0x21 1⟩)
  | 5 =>
    let ok (v : Nat) : Bool := [8, 16, 32, 64].contains v
    recIf [len 56, (!ok (f 0x10 1), stRange), (!ok (f 0x11 1), stRange), (!ok (f 0x12 1), stRange), (decide (40 < f 0x13 1), stRange), (f 0x14 4 != 0, stFormat),
      (maskBad 10 14 30 (f 0x18 8), stRange), (maskBad 11 14 30 (f 0x20 8), stRange), (maskBad 12 14 30 (f 0x28 8), stRange), (maskBad 13 14 30 (f 0x30 8), stRange)]
      (.code ⟨f 0x10 1, f 0x11 1, f 0x12 1, f 0x13 1, masks⟩)
  | 6 => .good (.comp scope (Config.compBody body % 2 ^ 32))
  | 7 => let r := Config.routeBody body; recIf [(decide (31 < r.1), stRange), (decide (16 < r.2), stRange)] (.route r.1 r.2)
  | 8 => let r := Config.clockBody body; recIf [(decide (255 < r.1), stRange), (decide (r.2.1 < 80 ∨ 210 < r.2.1), stRange)] (.clock r.1 r.2.1 r.2.2)
  | 9 =>
    let cc := f 0x10 1
    let mc := f 0x11 1
    let cs := (List.range cc).map (fun i => let o := 0x20 + 16 * i; (⟨f o 4, f (o + 4) 4, f (o + 8) 1 == 1⟩ : QosClass))
    let mo := 0x20 + 16 * cc
    let ms := (List.range mc).map (fun i => let o := mo + 8 * i; (⟨f o 1, f (o + 1) 1, f (o + 2) 1, f (o + 3) 1, f (o + 4) 2, f (o + 6) 2⟩ : QosMaster))
    let r : QosRec := ⟨scope, f 0x12 2, f 0x14 2, f 0x18 4, f 0x1C 4, cs, ms⟩
    if b.length < 0x20 then .bad stFormat else
    recIf ([(cc == 0 || decide (4 < cc), stRange), (decide (32 < mc), stRange), (decide (b.length < mo + 8 * mc), stFormat), len (mo + 8 * mc),
        (decide (r.dirShare < 64 ∨ 2048 < r.dirShare), stRange), (decide (2047 < r.missVec), stRange), (f 0x16 2 != 0, stFormat),
        (decide (2048 < r.hostBudget), stRange), (decide (24000 < r.compBudget), stRange)]
      ++ ((List.range cc).flatMap (fun i =>
        let o := 0x20 + 16 * i
        let c := cs.getD i ⟨0, 0, false⟩
        [(c.latNs != 0 && decide (c.latNs < 200 ∨ 100000 < c.latNs), stRange), (decide (1600 < c.floor), stRange), (decide (1 < f (o + 8) 1), stRange), (f (o + 9) 7 != 0, stFormat),
         ((c.guaranteed && (i == 0 || (c.latNs == 0 && c.floor == 0))) || (!c.guaranteed && (c.latNs != 0 || c.floor != 0)), stRange)]))
      ++ (ms.flatMap (fun m => [(decide (1 < m.source), stRange), (decide (cc ≤ m.cls), stRange), (decide (3 < m.urg) || (m.urg == 2 && m.source != 1), stRange),
        ((m.urg == 3) != (m.pinLevels != 0), stRange), (decide (m.last < m.first) || (m.source == 0 && decide (511 < m.last)), stRange)]))) (.qos r)
  | 0xA =>
    let e (p : Nat) : MirrorEntry := let o := 0x18 + 8 * p; ⟨f o 1, f (o + 1) 1 == 1, f (o + 2) 1 == 1, if f (o + 4) 4 = 0 then 100 else f (o + 4) 4⟩
    let t := f 0x10 4
    recIf ([len 152, (t != 0 && decide (t < 50 ∨ 100000 < t), stRange), (f 0x14 4 != 0, stFormat)] ++ (List.range 16).flatMap (fun p =>
      let o := 0x18 + 8 * p
      let us := f (o + 4) 4
      [(decide (2 < f o 1), stRange), (decide (1 < f (o + 1) 1), stRange), (decide (1 < f (o + 2) 1), stRange), (f (o + 3) 1 != 0, stFormat), (us != 0 && decide (us < 10 ∨ 10000 < us), stRange)]))
      (.mirror ⟨if t = 0 then 1000 else t, (List.range 16).map e⟩)
  | 0xB =>
    recIf [len 24, (decide (1 < f 0x10 1), stRange), (decide (1 < f 0x11 1), stRange), (f 0x12 2 != 0, stFormat), (decide (8192 < f 0x14 4), stRange)]
      (.spare ⟨f 0x10 1 == 1, f 0x11 1 == 1, f 0x14 4⟩)
  | 0xC =>
    let mask (o : Nat) : Nat := if f o 1 = 0 then 0xFF else f o 1
    recIf [len 40, (decide (f 0x10 2 < 600 ∨ 1600 < f 0x10 2), stRange), (decide (3 < f 0x12 1), stRange), (decide (mask 0x13 < 128), stRange),
      (decide (mask 0x14 < 128) || mask 0x14 &&& mask 0x13 != mask 0x14, stRange), (f 0x15 3 != 0, stFormat),
      (decide (f 0x18 4 < 10 ∨ 10000 < f 0x18 4), stRange), (f 0x1C 4 != 0, stFormat), (f 0x20 8 % 2 ^ 30 != 0 || decide (4096 * 2 ^ 30 < f 0x20 8), stRange)]
      (.power ⟨f 0x10 2, f 0x12 1, f 0x13 1, f 0x14 1, f 0x18 4, f 0x20 8⟩)
  | _ => .good (.shadow scope (Config.shadowBody body))

/-- One record at `off` (R55, R60, R62, R66): its outcome and its LENGTH. `target`: of a reload. -/
def readRec (g : Nat → Byte) (off total : Nat) (target : Option Nat) (fast : Bool) : RecRes × Nat :=
  let n := srcN g (off + 4) 4
  let tw := srcN g off 2
  let ty := tw % 2 ^ 15
  let scope := srcN g (off + 3) 1
  if total < off + 16 ∨ total < off + n then (.bad stFormat, n)
  else if n % 8 ≠ 0 ∨ n < 16 then (.bad stRange, n)
  else
    let b := srcBytes g off n
    let zeroed := b.take 8 ++ [0, 0, 0, 0] ++ b.drop 12
    if crc32c zeroed ≠ argFld b 8 4 then (.bad stFormat, n) else
    match typeInfo ty with
    | none => (if 2 ^ 15 ≤ tw then .good (.skipped tw) else .bad stFormat, n)
    | some (part, reload) =>
      match firstFail [(target.isSome && !reload, stDenied), (if part then decide (15 < scope) else scope != 0xFF, stRange), (match target with | some p => scope != p | none => false, stDenied),
          (argFld b 2 1 != 1, stRange), (argFld b 0xC 4 != 0, stFormat)] with
      | some st => (.bad st, n)
      | none => (bodyRec ty scope fast b, n)

/-- All records from `off` (R65, R67): the first failure with its index, or the records. -/
def readRecs (g : Nat → Byte) (total : Nat) (target : Option Nat) (fast : Bool) : Nat → Nat → Nat → (Nat × Nat) ⊕ List ImgRec
  | 0, _, off => if off = total then .inr [] else .inl (stFormat, 0xFFFF)
  | n + 1, k, off =>
    if total ≤ off then .inl (stFormat, 0xFFFF) else
    match readRec g off total target fast with
    | (.bad st, _) => .inl (st, k)
    | (.good r, len) => match readRecs g total target fast n (k + 1) (off + len) with
      | .inl e => .inl e
      | .inr l => .inr (r :: l)

/-! Step 4: checks across records. Each answers the index of the failing record. -/

/-- The higher index of the first conflicting pair. -/
def pairFail (l : List ImgRec) (f : ImgRec → ImgRec → Bool) : Option Nat :=
  (List.range l.length).find? (fun j => match l[j]? with | none => false | some y => (l.take j).any (fun x => f x y || f y x))
/-- The record that takes a sum above a limit. -/
def sumFail (l : List ImgRec) (w : ImgRec → Nat) (limit : Nat) : Option Nat :=
  (List.range l.length).find? (fun j => decide (limit < ((l.take (j + 1)).map w).sum ∧ 0 < (match l[j]? with | none => 0 | some x => w x)))
/-- The first record that fails a test. -/
def oneFail (l : List ImgRec) (f : ImgRec → Bool) : Option Nat := (List.range l.length).find? (fun j => match l[j]? with | none => false | some x => f x)
/-- The first record that, with those before it, fails a test. -/
def firstPrefix (l : List ImgRec) (f : List ImgRec → Bool) : Option Nat := (List.range l.length).find? (fun j => f (l.take (j + 1)))
/-- The first failure of a list. -/
def firstSome (l : List (Option Nat)) : Option Nat := (l.find? (·.isSome)).join

/-- Two spans have a place in common; an empty span has none (R63). -/
def spansMeet (a n b m : Nat) : Bool := decide (0 < n ∧ 0 < m ∧ a < b + m ∧ b < a + n)
/-- A record may stand once: the same type, and for a record of a port, partition, cluster or core the same one (R60). -/
def sameSeat : ImgRec → ImgRec → Bool
  | .port x, .port y => x.port == y.port
  | .part x, .part y => x.id == y.id
  | .tier _, .tier _ => true
  | .code _, .code _ => true
  | .comp p _, .comp q _ => p == q
  | .route c _, .route d _ => c == d
  | .clock c _ _, .clock d _ _ => c == d
  | .qos x, .qos y => x.part == y.part
  | .mirror _, .mirror _ => true
  | .spare _, .spare _ => true
  | .power _, .power _ => true
  | .shadow p _, .shadow q _ => p == q
  | _, _ => false
/-- LENS ranges of one partition overlap (R203). -/
def lensMeet : ImgRec → ImgRec → Bool
  | .lens x, .lens y => x.part == y.part && spansMeet x.base x.length y.base y.length
  | _, _ => false

/-- The PART record of a partition in a list. -/
def partIn (l : List ImgRec) (p : Nat) : Option PartRec := l.findSome? (fun r => match r with | .part x => if x.id = p then some x else none | _ => none)
/-- Sub-links of a bifurcation code. -/
def subLinks (b : Nat) : Nat := if b = 0 then 1 else if b = 1 then 2 else 4

/-- Sub-link `k` of a port exists under bifurcation `b`: its number is the link's first lane divided by 4 (R107). -/
def hasSub (b k : Nat) : Bool := k % (4 / subLinks b) == 0
/-- Bifurcation code that STRAP_BIF gives a port (R41). -/
def strapBif (bifc port : Nat) : Nat := if bifc = 3 then (if port < 4 then 0 else 1) else bifc
/-- A link exists under the bifurcation of its port (R68). -/
def linkExists (l : List ImgRec) (bifc link : Nat) : Bool :=
  let b := (l.findSome? (fun r => match r with | .port x => if x.port = link / 4 then some x.bifurcation else none | _ => none)).getD (strapBif bifc (link / 4))
  hasSub b (link % 4)
/-- The partition that a partition-scoped record belongs to. -/
def scopeOf : ImgRec → Option Nat
  | .part x => some x.id
  | .lens x => some x.part
  | .comp p _ => some p
  | .qos x => some x.part
  | .shadow p _ => some p
  | _ => none
/-- A record's bindings. -/
def bindsOf : ImgRec → List (Nat × Nat)
  | .part x => x.bindings
  | _ => []
/-- Quota of a tier that a record gives. -/
def quotaIn (t : Nat) : ImgRec → Nat
  | .part x => if t = 0 then x.quota0 else if t = 1 then x.quota1 else x.quota2
  | _ => 0
/-- Over-provisioning extra of an image in GiB (R302). -/
def extraIn (l : List ImgRec) : Nat := (l.findSome? (fun r => match r with | .spare x => some x.opExtra | _ => none)).getD 0
/-- DIRTY_BUDGET of an image (R61, R68). -/
def budgetIn (l : List ImgRec) : Nat := (l.findSome? (fun r => match r with | .power x => some x.dirtyBudget | _ => none)).getD (256 * 2 ^ 30)
/-- A range of a foreign partition is allowed by its owner's PART record (R64). -/
def rangeOk (x : RangeRec) (o : PartRec) : Bool :=
  decide (x.target + x.length ≤ o.apparent) &&
    o.ranges.any (fun y => y.owner == o.id && y.attr == x.attr && decide (y.target ≤ x.target ∧ x.target + x.length ≤ y.target + y.length))
/-- Levels that a QOS record gives pin n. -/
def pinUsed (q : QosRec) (n : Nat) : Bool := q.masters.any (fun m => m.pinLevels / 4 ^ n % 4 != 0)
/-- A master's run lies in the partition (R503). -/
def masterOk (r : PartRec) (m : QosMaster) : Bool :=
  if m.source = 0 then (List.range (m.last + 1 - m.first)).all (fun i => r.bindings.contains ((m.first + i) / 16, (m.first + i) % 16))
  else decide (m.last < r.queueCount)
/-- Bytes of window ranges (R155). -/
def windowBytes (r : PartRec) : Nat := (r.ranges.map (fun x => if x.attr = .window then x.length else 0)).sum
/-- What the mirror keeps in tier 0 for a partition: 128 MiB on the secondary (R524). -/
def mirrorPinned (l : List ImgRec) (pairSecond : Bool) (p : Nat) : Nat :=
  match l.findSome? (fun r => match r with | .mirror m => m.entries[p]? | _ => none) with
  | some e => if e.role = (if pairSecond then 1 else 2) then 128 * 2 ^ 20 else 0
  | none => 0

/-- The partition that a list of records makes the shadow window's owner: the lowest with a PART record whose SHADOW record enables it (R177). -/
def shwOwnerIn (l : List ImgRec) : Option Nat :=
  (List.range 16).find? (fun p => (partIn l p).isSome && l.any (fun r => match r with | .shadow q e => q == p && e | _ => false))

/-- Checks of a full image across its records (R60, R64, R68, R155, R203, R503, R504, R523, R630), given the straps. -/
def crossFull (l : List ImgRec) (mode bifc : Nat) : Option Nat :=
  let gib := 2 ^ 30
  let parts := l.filterMap (fun r => match r with | .part x => some x | _ => none)
  let share (r : ImgRec) : Nat := match r with | .qos q => q.dirShare | _ => 0
  let bare := (parts.filter (fun x => !l.any (fun r => match r with | .qos q => q.part == x.id | _ => false))).length
  let mirrorOf (r : ImgRec) : Option MirrorRec := match r with | .mirror m => some m | _ => none
  firstSome [
    pairFail l sameSeat,
    (List.range l.length).find? (fun j => match l[j]? with
      | some (.lens x) => decide (256 < ((l.take (j + 1)).filter (fun r => match r with | .lens y => y.part == x.part | _ => false)).length)
      | _ => false),
    pairFail l lensMeet,
    pairFail l (fun x y => (bindsOf x).any (fun b => (bindsOf y).contains b)),
    (List.range l.length).find? (fun j => match l[j]? with
      | some (.part x) => x.bindings.any (fun b => !linkExists l bifc b.1 && !(l.drop (j + 1)).any (fun r => match r with | .port y => y.port == b.1 / 4 | _ => false))
      | some (.port x) => (l.take j).any (fun r => (bindsOf r).any (fun b => b.1 / 4 == x.port && !hasSub x.bifurcation (b.1 % 4)))
      | _ => false),
    pairFail l (fun x y => match x, y with | .comp _ a, .comp _ b => a &&& b != 0 | _, _ => false),
    pairFail l (fun x y => match x, y with | .part a, .part b => spansMeet a.queueBase a.queueCount b.queueBase b.queueCount | _, _ => false),
    pairFail l (fun x y => match x, y with | .part a, .part b => spansMeet a.syncBase a.syncCount b.syncBase b.syncCount | _, _ => false),
    sumFail l (quotaIn 0) (495 * gib), sumFail l (quotaIn 1) (3456 * gib), firstPrefix l (fun m => decide ((45056 - extraIn m) * gib < (m.map (quotaIn 2)).sum)),
    sumFail l (fun r => match r with | .part x => x.apparent | _ => 0) (2 ^ 47),
    oneFail l (fun r => match scopeOf r with | some p => (partIn l p).isNone | none => false),
    oneFail l (fun r => match mirrorOf r with | some m => m.entries.any (fun e => e.role != 0) && mode != 1 && mode != 2 | none => false),
    firstPrefix l (fun m => budgetIn m == 0 && m.any (fun r => match r with | .part x => x.durable | _ => false)),
    pairFail l (fun x y => match x, y with | .part a, .lens b => a.id == b.part && decide (a.apparent < b.base + b.length) | _, _ => false),
    (List.range l.length).find? (fun j => match l[j]? with
      | some (.part x) => x.ranges.any (fun r => r.owner != x.id && (match partIn l r.owner with | none => true | some o => (partIn (l.take j) r.owner).isSome && !rangeOk r o))
          || (l.take j).any (fun r => match r with | .part y => y.ranges.any (fun r => r.owner == x.id && y.id != x.id && !rangeOk r x) | _ => false)
      | _ => false),
    pairFail l (fun x y => match x, y with | .part a, .qos q => a.id == q.part && q.masters.any (fun m => !masterOk a m) | _, _ => false),
    sumFail l share 2048,
    if 0 < bare ∧ 2048 < (l.map share).sum + 64 * bare then ((List.range l.length).reverse.find? (fun j => match l[j]? with | some (.part _) => true | some (.qos _) => true | _ => false)) else none,
    pairFail l (fun x y => match x, y with | .qos a, .qos b => (List.range 4).any (fun n => pinUsed a n && pinUsed b n) | _, _ => false),
    sumFail l (fun r => match r with | .qos q => (q.classes.map (·.floor)).sum | _ => 0) 2000,
    pairFail l (fun x y => match x, y with
      | .part a, .mirror m => decide (a.quota0 < gib) && (match m.entries[a.id]? with | some e => e.role != 0 | none => false)
      | _, _ => false),
    oneFail l (fun r => match mirrorOf r with | some m => (List.range 16).any (fun p => (match m.entries[p]? with | some e => e.role != 0 | none => false) && (partIn l p).isNone) | none => false),
    firstPrefix l (fun m => m.any (fun r => match r with
      | .part x => decide (x.quota0 < windowBytes x + mirrorPinned m (mode == 2) x.id + (if shwOwnerIn m = some x.id then 2 ^ 21 else 0)) && decide (0 < windowBytes x)
      | _ => false))]

/-- Highest mapped byte of a partition: the end of its highest frame that is not ZERO. -/
def State.topMapped (s : State) (p : Nat) : Nat := (s.framesOf p).foldl (fun a x => if x.2.state = .zero then a else max a (65536 * (x.1 + 1))) 0

/-- Records of the full image in force. -/
def State.records (s : State) : List ImgRec := match s.img.inForce with | none => [] | some i => i.records

/-- Bytes that pins and the receive buffer keep in tier 0 beside the window ranges of a PART record (R155, R250, R524). -/
def State.pinnedBeside (s : State) (p : Nat) (r : PartRec) : Nat :=
  (s.framesOf p).foldl (fun a x =>
    if r.ranges.any (fun y => y.attr == .window && decide (y.target ≤ 65536 * x.1 ∧ 65536 * x.1 < y.target + y.length)) then a
    else if s.inWindow p x.1 then a + (if x.2.pin = 2 then 64 * s.runLen x.2 else 0)
    else a + (s.pinBytes p x.1 x.2).1) (s.recvBuf p)

/-- Checks of a partition reload against the running module (R76, R155, R250, R203, R503, R504, R523, R630). -/
def State.crossReload (s : State) (p : Nat) (l : List ImgRec) : Option Nat :=
  let gib := 2 ^ 30
  let idx (f : ImgRec → Bool) : Option Nat := (List.range l.length).reverse.find? (fun j => match l[j]? with | some x => f x | none => false)
  let isPart (r : ImgRec) : Bool := match r with | .part _ => true | _ => false
  let isQos (r : ImgRec) : Bool := match r with | .qos _ => true | _ => false
  let at_ (c : Bool) (i : Option Nat) : Option Nat := if c then some (i.getD 0xFFFD) else none
  let pi := idx isPart
  let old := s.part p
  match (partIn l p).orElse (fun _ => old.cfg) with
  | none => some (if l.isEmpty then 0xFFFD else 0)
  | some r =>
    let others := (s.partsOn).filter (fun q => q != p)
    let cfgs := others.filterMap (fun q => (s.part q).cfg)
    let comp := (l.findSome? (fun x => match x with | .comp _ m => some m | _ => none)).getD old.comp
    let qos := (l.findSome? (fun x => match x with | .qos q => some q | _ => none)).orElse (fun _ => old.qos)
    let lens := if l.any (fun x => match x with | .lens _ => true | _ => false) then l.filterMap (fun x => match x with | .lens y => some y | _ => none) else old.lens
    let qs := others.filterMap (fun q => (s.part q).qos)
    let allQ := qs ++ (match qos with | some q => [q] | none => [])
    let bare := (others.filter (fun q => (s.part q).qos.isNone)).length + (if qos.isNone then 1 else 0)
    let shares := (allQ.map (·.dirShare)).sum
    firstSome [
      pairFail l sameSeat, pairFail l lensMeet, (if 256 < lens.length then some (l.length - 1) else none),
      at_ (r.bindings.any (fun b => cfgs.any (fun c => c.bindings.contains b))) pi,
      at_ (others.any (fun q => (s.part q).comp &&& comp != 0)) (idx (fun x => match x with | .comp _ _ => true | _ => false)),
      at_ (cfgs.any (fun c => spansMeet r.queueBase r.queueCount c.queueBase c.queueCount || spansMeet r.syncBase r.syncCount c.syncBase c.syncCount)) pi,
      at_ (decide (495 * gib < r.quota0 + (cfgs.map (·.quota0)).sum ∨ 3456 * gib < r.quota1 + (cfgs.map (·.quota1)).sum
        ∨ (45056 - s.spareRec.opExtra) * gib < r.quota2 + (cfgs.map (·.quota2)).sum)) pi,
      at_ (decide (r.quota2 < s.occ p 2)) pi, at_ (decide (r.apparent < s.topMapped p)) pi,
      at_ (cfgs.any (fun c => c.ranges.any (fun x => x.owner == p && decide (r.apparent < x.target + x.length)))) pi,
      at_ (decide (2 ^ 47 < r.apparent + (cfgs.map (·.apparent)).sum)) pi,
      at_ (r.durable && budgetIn s.records == 0) pi,
      at_ (cfgs.any (fun c => c.ranges.any (fun x => x.owner == p && !rangeOk x r))) pi,
      at_ (r.ranges.any (fun x => x.owner != p && (match (s.part x.owner).cfg with | none => true | some o => !rangeOk x o))) pi,
      at_ (lens.any (fun x => decide (r.apparent < x.base + x.length)))
        (idx (fun x => match x with | .lens y => decide (r.apparent < y.base + y.length) | .part _ => true | _ => false)),
      at_ (match qos with | some q => q.masters.any (fun m => !masterOk r m) | none => false) (idx (fun x => isPart x || isQos x)),
      at_ (decide (2048 < shares) || (decide (0 < bare) && decide (2048 < shares + 64 * bare))) (idx isQos),
      at_ (match qos with | some q => qs.any (fun o => (List.range 4).any (fun n => pinUsed o n && pinUsed q n)) | none => false) (idx isQos),
      at_ (decide (2000 < (allQ.flatMap (fun q => q.classes.map (·.floor))).sum)) (idx isQos),
      at_ (s.mirRole p != 0 && decide (r.quota0 < gib)) pi,
      at_ (decide (0 < windowBytes r ∨ r.quota0 < s.quota p 0) && decide (r.quota0 < windowBytes r + s.pinnedBeside p r + (if s.shwOwner = some p then 2 ^ 21 else 0))) pi]

/-! The whole validation (R65). -/

/-- A validation's end: refused with status and RECORD_INDEX, or the image. -/
inductive ImgVerdict where
  | bad (status index : Nat)
  | ok (i : Image)

/-- Validate an image (R65 to R68). `live`: a load in service, which may be a partition reload. -/
def State.validate (s : State) (g : Nat → Byte) (live : Bool) : ImgVerdict :=
  let fw := (s.rd .fwmVersion).toNat / 2 ^ 32
  match headerFail g fw (s.rdB .strStatus 5) live with
  | some st => .bad st 0xFFFF
  | none => match s.trailerFail g with
    | some st => .bad st 0xFFFE
    | none =>
      let kind := srcN g 0xE 1
      let p := srcN g 0xF 1
      let total := imgTotal g
      match readRecs g total (if kind = 1 then some p else none) (s.rdB .strStraps 9) (srcN g 0xC 2) 0 64 with
      | .inl (st, k) => .bad st k
      | .inr l =>
        match (if kind = 0 then crossFull l (s.rdF .strStraps 0 2) (s.rdF .strStraps 4 2) else s.crossReload p l) with
        | some k => .bad stRange k
        | none => .ok { kind := kind, target := p, sequence := imgSeq g, minFw := srcN g 0x1C 4, records := l, digest := imgDigest g }

/-- The minimal image under the sampled straps (R82). -/
def State.minimalImage (s : State) : Image :=
  let gib := 2 ^ 30
  let bifc := s.rdF .strStraps 4 2
  let rate := if s.rdB .strStraps 9 then 128 else 64
  let links := (List.range 32).filter (fun k => hasSub (strapBif bifc (k / 4)) (k % 4))
  let part : PartRec := ⟨0, false, links.map (fun k => (k, 0)), [⟨0, 49007 * gib, 0, .priv, 0⟩], 20, 4096, 49007 * gib, 495 * gib, 3456 * gib, 45056 * gib, 0, 4096, 0, 8192⟩
  { kind := 0, target := 0xFF, sequence := 0, minFw := 0, digest := Config.minimalDigest,
    records := (List.range 8).map (fun p => ImgRec.port ⟨p, strapBif bifc p, rate, 1⟩) ++ [.part part, .comp 0 (2 ^ 32 - 1)] }

end Sys2Proof.Machine
end

