-- ==== Sys2Proof/Machine/Partition.lean ====
section
/-! DEFINITION. Quiescence, quarantine, partition resets, the shadow window (03 R88 to R92; 05 R162 to R187; R134 to R136, R354, R487, R488). -/

namespace Sys2Proof.Machine

/-- A register returns to its reset value. -/
def State.resetReg (s : State) (n : RegName) (i : Nat) : State := s.wr n (BitVec.ofNat 64 n.row.reset) i



/-! Stopping a partition's work (R91, R164, R168, R347, R369). -/

/-- Executing descriptors of a queue end with a status: a scrub writes its summary with STOPPED, and each completes (R347, R477, R478). -/
def State.stopQueue (s : State) (p q st : Nat) : State :=
  let s := (s.queue q).descs.foldl (fun (s : State) d =>
    if (d.started || d.launched) && d.status.isNone then
      let s := if d.fld 0 1 = 5 then (s.putSummary p q d (({} : ScrubSum).record st ((s.time - d.startAt) / 1000) true) false).1 else s
      s.endDesc q d st (d.pos / 4096)
    else s) s
  (s.queue q).descs.foldl (fun (s : State) d => s.descComplete p q d) s

/-- Kernels and executing descriptors of a partition stop and complete (R91, R168). -/
def State.stopWork (s : State) (p : Nat) (c : EndCause) : State :=
  let s := s.stopKernels p c
  (s.queuesOf p).foldl (fun s q => s.stopQueue p q (causeStatus c)) s

/-- Outstanding host reads of a partition's descriptors keep their tags until their completions come, which are accepted and discarded (R91, R134, R168). -/
def State.forgetTags (s : State) (p : Nat) : State :=
  let qs := s.queuesOf p
  { s with links := Store.mapVals {} (fun _ (l : LinkSt) => { l with ioTags := l.ioTags.map (fun t => if t.q.any (qs.contains ·) then { t with q := none } else t) }) s.links }

/-- Nothing outside a queue refers to its descriptors any more. -/
def State.forgetQueue (s : State) (p q : Nat) : State :=
  let ours (w : FlashWaiter) : Bool := match w with | .desc k _ => k.val == q | .ring k => k.val == q | .kernel _ => false
  let flush (w : FlushWho) : Bool := match w with | .desc k _ => k.val == q | .part _ => false
  let s := { s with flash := { s.flash with waits := s.flash.waits.filter (fun w => !ours w.who) } }
  let s := { s with lens := { s.lens with flushes := s.lens.flushes.filter (fun f => !flush f.who) } }
  let moves := s.tier.moves.map (fun (m : Move) => if (match m.hint with | some (k, _) => k == q | none => false) then { m with hint := none } else m)
  let s := { s with tier := { s.tier with declined := s.tier.declined.filter (fun x => x.1 != q), moves := moves } }
  let m := s.mirPart p
  s.setMirPart p { m with awaiting := m.awaiting.filter (fun x => match x.2.2 with | .desc k _ => k != q | .sync (.desc k _) _ _ => k.val != q | _ => true) }

/-- A queue's registers and descriptors return to reset values (R136, R170). -/
def State.resetQueue (s : State) (p q : Nat) : State :=
  let s := [RegName.qdTail, .qdHead, .qdStatus, .qdCtrl, .qdRingBase, .qdSeed, .qdLaunchNo, .qdGlare, .qdSpill, .qdDone, .qdFailed].foldl (fun s n => s.resetReg n q) s
  ((s.forgetQueue p q).setQueue q {}).dropAcc [.qdRingBase, .qdSeed, .qdLaunchNo, .qdGlare, .qdSpill, .qdDone] q

/-- Queues, doorbells and MSI-X state of a partition return to reset values (R136, R170). -/
def State.resetQueues (s : State) (p : Nat) : State :=
  let s := (s.queuesOf p).foldl (fun s q => s.resetQueue p q) s
  let s := (s.ldsOf p).foldl (fun s d => s.setLd d.1 d.2 { s.ld d.1 d.2 with pba := [] }) s
  s.shipTable p

/-! Clearing a partition's frame map (R92, R323, R354, R528). -/

/-- A cluster's memories read as zero (R354). -/
def State.zeroCluster (s : State) (c : Nat) : State :=
  let s := (List.range 8).foldl (fun (s : State) i => let x := s.core (8 * c + i); s.setCore (8 * c + i) { x with mem := [], bufs := [[], [], [], []] }) s
  { s with shared := Store.set [] c [] s.shared }

/-- A new key goes into the unused slot (R323, R326); the first of a partition into slot 0. Pages that the slot still encrypts are rewritten before (DESIGN CHOICE, log 83), and the old key is erased once no page uses it. -/
def State.newKey (s : State) (p : Nat) : State :=
  let w := s.rd .carPKey p
  let act := fld w 0 1
  let slot := if (Store.get none (2 * p + act) s.flash.keys).isSome then 1 - act else act
  let s := s.rekey p s.nandPages.length
  let (k, s) := s.freshKey
  let s := { s with flash := { s.flash with keys := Store.set none (2 * p + slot) (some k) s.flash.keys } }
  (s.wr .carPKey (setFld (setFld w 0 2 slot) 16 16 (min (fld w 16 16 + 1) 65535)) p).keySweep p

/-- A write that was held for the partition's pages is discarded, a read completes poisoned, as R96 serves an inactive LD. -/
def State.dropHeld (s : State) (p : Nat) (f : Nat → Bool) : State :=
  let hit (o a : Nat) : Bool := o == p && f (a / 65536)
  let ws := s.lens.heldW.filter (fun w => hit w.owner w.addr && !w.lost)
  let rs := s.tier.heldR.filter (fun r => hit r.owner r.addr)
  let s := { s with lens := { s.lens with heldW := s.lens.heldW.filter (fun w => !hit w.owner w.addr) }, tier := { s.tier with heldR := s.tier.heldR.filter (fun r => !hit r.owner r.addr) } }
  let s := ws.foldl (fun (s : State) w => s.hostCmp w.link w.ld w.tag 1 (s.devLoad w.reqPart (hubOf (w.addr / 65536)))) s
  rs.foldl (fun (s : State) r => s.hostData r.link r.ld r.tag true 0 (s.devLoad r.reqPart (hubOf (r.addr / 65536)))) s

/-- Clear one frame: its moves, slots and staged data go, and it becomes ZERO. -/
def State.clearFrame (s : State) (p f : Nat) : State :=
  let s := (s.abortMove p f).dropMove p f false
  let s := (List.range 16).foldl (fun (s : State) k => s.freeSlot p (16 * f + k)) s
  let s := (List.range 16).foldl (fun (s : State) k => (s.unstage p (16 * f + k)).setPoolPage p (16 * f + k) 0) s
  s.setFrame p f {}

/-- Clear the frame map of a partition, frames of granted ranges excepted (R92). -/
def State.clearMap (s : State) (p : Nat) : State :=
  let keep (f : Nat) : Bool := s.grantedFrame p f
  let slots := (s.lens.slots.filter (fun (x : SlotSt) => x.part == p)).map (fun (x : SlotSt) => x.page / 16)
  let frames : List Nat := ((s.framesOf p).map (fun (x : Nat × FrameSt) => x.1) ++ slots).eraseDups
  let go := frames.filter (fun f => !keep f)
  let s := s.dropHeld p (fun f => !keep f)
  let s := go.foldl (fun s f => s.clearFrame p f) s
  let s := s.dropPoison p (fun e => !keep (e.addr / 65536))
  let s := { s with lens := { s.lens with wb := s.lens.wb.filter (fun x => !(x.2.1 == p && !keep (x.2.2 / 16))) } }
  let s := s.newKey p
  let s := if s.shipsLive p then (s.shipRec p 0 (.map 0 0 [] [] [] true)).shipRec p 1 (.map 0 0 [] [] [] true) else s
  ((s.maskOf p).foldl (fun s c => s.zeroCluster c) s).checkDebt p

/-! The shadow window (R177 to R187). -/

/-- Frame span of a swap index in bytes. -/
def shwAddr (i : Nat) : Nat := i * 2 ^ 20

/-- Write a pinned buffer's changed pages back (R181): the pages that must wait for a slot or for room stay. -/
def State.writeBackBuf (s : State) (p : Nat) (b : ShwBuf) : State × List Nat :=
  b.dirty.foldl (fun (r : State × List Nat) k =>
    let page := 256 * b.index + k
    match r.1.putPage (reqHost p) 3 p page (b.page k) (b.lines k) with
    | (s, .done) => (s, r.2)
    | (s, _) => (s, r.2 ++ [k])) (s, [])

/-- Write one buffer's changed pages back; the buffer keeps those that must wait. -/
def State.flushBuf (s : State) (p : Nat) (b : Option ShwBuf) : State × Option ShwBuf :=
  match b with
  | none => (s, none)
  | some b => match s.writeBackBuf p b with | (s, l) => (s, some { b with dirty := l })

/-- Write the changed pages of both pinned buffers back (R182, R185), the old one first; the selection stays. -/
def State.shwFlush (s : State) : State :=
  match s.shwOwner with
  | none => s
  | some p =>
    let was := s.shw
    match ({ s with shw := { was with cur := none, old := none } }).flushBuf p was.old with
    | (s, o) => match s.flushBuf p was.cur with
      | (s, c) => { s with shw := { s.shw with cur := c, old := o } }

/-- Every merge slot and both pinned buffers are committed (R182, R213). -/
def State.commitAll (s : State) : State :=
  let s := (s.shwFlush.flushSlots (fun _ => true)).shwFlush
  s.flushSlots (fun _ => true)

/-- Neither pinned buffer holds a change that is not in the pool. -/
def State.shwClean (s : State) : Bool := [s.shw.cur, s.shw.old].all (fun o => match o with | none => true | some b => b.dirty.isEmpty)

/-- LD reset and RELEASE of the owner: the frame is written back, the map is cleared after, and the window then shows index 0 (R185). That SHW_INDEX_LO, SHW_INDEX_HI and ERROR return to their reset values too is the model's
choice (DESIGN CHOICE, log 26). -/
def State.shwReset (s : State) (p : Nat) : State :=
  if s.shwOwner ≠ some p then s else
  let s := { s.shwFlush with shw := {} }
  let s := (s.wr .shwSelected 0).wr .shwIndexLo 0
  (s.wr .shwIndexHi 0).wr .shwStat 1

/-- SHW_INDEX_LO (R179). -/
def State.shwWriteLo (s : State) (v : Nat) : State :=
  { s.wr .shwIndexLo (BitVec.ofNat 64 (v % 65536)) with shw := { s.shw with loFresh := true } }

/-- The frame lies in a frozen or granted span of its owner (R184). -/
def State.shwDenied (s : State) (p i : Nat) : Bool :=
  (s.rangesInto p).any (fun x => (x.2.attr == .frozen || x.1 != p) && decide (x.2.target < shwAddr i + 2 ^ 20 ∧ shwAddr i < x.2.target + x.2.len))

/-- Ask for the promotion of the flash-homed pages of a swap frame (R181); true where one is still in flash. -/
def State.shwFetch (s : State) (p i : Nat) : State × Bool :=
  (List.range 16).foldl (fun (r : State × Bool) k =>
    let f := 16 * i + k
    if (List.range 16).any (fun j => r.1.flashWaits p (16 * f + j)) then (r.1.demand p f, true) else r) (s, false)

/-- A page of a swap frame that lies within the partition's apparent capacity (R178). -/
def State.shwFits (s : State) (p i : Nat) : Bool := decide (shwAddr i + 2 ^ 20 ≤ s.apparent p)

/-- SHW_INDEX_HI (R179, R181, R184). -/
def State.shwWriteHi (s : State) (p v : Nat) : State :=
  let hi := v % 65536
  let i := s.rdF .shwIndexLo 0 16 + hi % 4096 * 65536
  let s := (s.wr .shwIndexHi (BitVec.ofNat 64 hi)).wrB .shwStat 2 (!s.shw.loFresh)
  let s := { s with shw := { s.shw with loFresh := false } }
  let err := if 4096 ≤ hi ∨ !s.shwFits p i then stRange else if s.shwDenied p i then stDenied else 0
  if err ≠ 0 then s.wrF .shwStat 8 8 err
  else if (match s.shw.cur with | some b => b.index == i | none => false) then
    { (s.wrB .shwStat 1 false).wrB .shwStat 0 true with shw := { s.shw with next := none } }
  else
    ({ (s.wrB .shwStat 1 true).wrB .shwStat 0 false with shw := { s.shw with next := some i } }.shwFetch p i).1

/-- SHW_INDEX_LO_WRITE (R179): the owner's BAR0 alone (R186). -/
def execShwIndexLoWrite (link : LinkId) (ld : LdId) (val : BitVec 32) (s : State) : Res :=
  .next (s.onBar0 link ld 0x1002000 (fun p => if s.shwOwner = some p then s.shwWriteLo val.toNat else s))
/-- SHW_INDEX_HI_WRITE (R181). -/
def execShwIndexHiWrite (link : LinkId) (ld : LdId) (val : BitVec 32) (s : State) : Res :=
  .next (s.onBar0 link ld 0x1002004 (fun p => if s.shwOwner = some p then s.shwWriteHi p val.toNat else s))

/-- Read a swap frame into a pinned buffer (R181, R183): the slots of its pages are absorbed. True where a page was uncorrectable. -/
def State.shwLoad (s : State) (p i : Nat) : State × ShwBuf × Bool :=
  (List.range 256).foldl (fun (r : State × ShwBuf × Bool) k =>
    let page := 256 * i + k
    let e := r.1.frame p (page / 16)
    if (r.1.slot p page).isNone ∧ e.state = .zero then r else
    let had := (r.1.slot p page).isSome
    let (s, q) := r.1.viewPage (reqHost p) p page
    let s := s.freeSlot p page
    let b := r.2.1
    if q.ok then
      (s, { b with data := b.data.writeN (4096 * k) 4096 q.data.toNat, poison := Store.set 0 k q.poison b.poison, dirty := if had then b.dirty ++ [k] else b.dirty }, r.2.2)
    else (s.countUncorr.addPoisonPage p page, { b with poison := Store.set 0 k (BitVec.allOnes 64) b.poison }, true)) (s, { index := i }, false)

/-- The window shows index 0 of its owner: after the partition's memory has come up at a start, and after an LD reset or RELEASE (R178, R182, R185). A frame with pages in flash is fetched as for a swap (R181). -/
def State.shwOpen (s : State) (p : Nat) : State :=
  if s.shwOwner ≠ some p ∨ s.shw.cur.isSome ∨ !s.shwFits p 0 then s else
  match s.shwFetch p 0 with
  | (s, true) => { (s.wrB .shwStat 1 true).wrB .shwStat 0 false with shw := { s.shw with next := some 0 } }
  | (s, false) => match s.shwLoad p 0 with
    | (s, b, bad) =>
      let s := { s with shw := { s.shw with cur := some b } }
      if bad then s.wrF .shwStat 8 8 stUncorr else s

/-- The window switches to the fetched frame (R181, R183); it waits for flash-homed pages and for the second buffer. -/
def State.shwSwitch (s : State) (p : Nat) : State :=
  match s.shw.next with
  | none => s
  | some i =>
    match s.shwFetch p i with
    | (s, true) => s
    | (s, false) =>
      if s.shw.old.isSome then s else
      let (s, b, bad) := s.shwLoad p i
      let prev := s.shw.cur
      let s := { s with shw := { s.shw with cur := some b, old := prev, next := none } }
      let s := (s.wr .shwSelected (BitVec.ofNat 64 i)).wrB .shwStat 3 prev.isSome
      let s := (s.wrB .shwStat 1 false).wrB .shwStat 0 true
      if bad then s.wrF .shwStat 8 8 stUncorr else s

/-- SHADOW_SWAP_SWITCH (R181). -/
def execShadowSwapSwitch (p : PartId) (s : State) : Res := .next (if s.shwOwner = some p.val then s.shwSwitch p else s)

/-- SHADOW_WRITEBACK_DONE (R181). -/
def execShadowWritebackDone (p : PartId) (s : State) : Res :=
  .next (match s.shw.old with
    | none => s
    | some b =>
      if s.shwOwner ≠ some p.val then s else
      match ({ s with shw := { s.shw with old := none } }).writeBackBuf p b with
      | (s, []) => s.wrB .shwStat 3 false
      | (s, l) => { s with shw := { s.shw with old := some { b with dirty := l } } })

/-- Write the enabled bytes of an access to the window, line by line, going on at byte 0 past its end (R180); a line that `shut` names keeps its bytes. -/
def ShwBuf.putBytes (b : ShwBuf) (shut : Nat → Bool) (off n v be : Nat) : Nat → ShwBuf
  | 0 => b
  | fuel + 1 =>
    if n = 0 then b else
    let a := off % 2 ^ 20
    let o := a % 64
    let m := min n (64 - o)
    let data : Line := BitVec.ofNat 512 (v % 256 ^ m * 256 ^ o)
    let en := be % 2 ^ m * 2 ^ o
    let b := if shut (a / 64) ∨ en = 0 then b else b.write (a / 4096) (a / 64 % 64) data (BitVec.ofNat 64 en) false
    b.putBytes shut (a + m) (n - m) (v / 256 ^ m) (be / 2 ^ m) fuel

/-- Bytes that a write carries: its enabled ones (R180). -/
def enabledBytes (size : Nat) (be : BitVec 64) : Nat := ((List.range (min size 64)).filter (fun i => be.getLsbD i)).length


/-- SHADOW_WINDOW_ACCESS (R180, R185, R186): a write carries its value and its byte enables. A frozen span keeps its contents (R154). -/
def execShadowWindowAccess (link : LinkId) (ld : LdId) (off size : Nat) (write : Option (Nat × BitVec 64)) (s : State) : Res :=
  .next (s.onBar0 link ld (0x3F00000 + off) (fun p =>
      let ours := s.shwOwner = some p ∧ !s.quarantined p
      let b := s.shw.cur.getD { index := 0 }
      match write with
      | none =>
        if size = 0 ∨ 64 < size then s
        else if ours then
          let a := off % 2 ^ 20
          let bad := (List.range size).any (fun i => let x := (a + i) % 2 ^ 20; (b.lines (x / 4096)).getLsbD (x / 64 % 64))
          s.send (.windowData link ld off size (readWrap b.data (2 ^ 20) a size) bad)
        else s.send (.windowData link ld off size 0 false)
      | some (v, be) =>
        if ours ∧ 4 ≤ enabledBytes size be ∧ s.shw.cur.isSome then
          let shut (l : Nat) : Bool := s.inFrozen p (shwAddr b.index + 64 * l) 64
          { s with shw := { s.shw with cur := some (b.putBytes shut off size v be.toNat (size / 64 + 2)) } }
        else s))

/-! Quiescence (R162 to R165). -/

/-- QUIESCE_REQUEST (R162). -/
def State.quiesceOn (s : State) (p : Nat) : State := (s.wrB .prtQuiesceCtrl 0 true p).wrB .prtState 1 true p
/-- QUIESCE_REQUEST (R162). -/
def execQuiesceRequest (p : PartId) (s : State) : Res := .next (s.quiesceOn p)

/-- R163: no descriptor executes, no kernel runs, no DMA is outstanding, no wait of its queues is pending. -/
def State.idlePart (s : State) (p : Nat) : Bool :=
  (s.queuesOf p).all (fun q => (s.queue q).descs.all (fun d => !d.started && !d.launched) && s.links.all (fun l => l.2.ioTags.all (fun t => t.q != some q)))
    && s.comp.kernels.all (fun k => k.part != p) && s.sync.all (fun e => e.2.waits.all (fun w => w.part != p))

/-- QUIESCED sets, and an event record is raised (R163). -/
def State.tellQuiesced (s : State) (p : Nat) : State := (s.setB .prtState 2 p).raise { reg := .prtState, bit := 2, part := some p }
/-- PARTITION_QUIESCED (R163). -/
def execPartitionQuiesced (p : PartId) (s : State) : Res :=
  .next (if s.rdB .prtQuiesceCtrl 0 p && !s.rdB .prtState 2 p && s.idlePart p then s.tellQuiesced p else s)

/-- The partition that a running load reloads: the staged image is a partition reload (R54, R66). -/
def State.reloading (s : State) (p : Nat) : Bool := s.img.loading && (s.stageByte 0xE == 1) && (s.stageByte 0xF).toNat == p

/-- Lift quiescence (R165). -/
def State.quiesceOff (s : State) (p : Nat) : State :=
  let s := if s.rdB .prtQuiesceCtrl 0 p && s.reloading p then { s with img := { s.img with spoiled := true } } else s
  ((s.wrB .prtQuiesceCtrl 0 false p).wrB .prtState 1 false p).wrB .prtState 2 false p
/-- QUIESCE_LIFT (R165). -/
def execQuiesceLift (p : PartId) (s : State) : Res := .next (s.quiesceOff p)

/-- Abort of quiescence: running kernels and pending waits end with RESET; locks stay (R164). -/
def State.quiesceAbort (s : State) (p : Nat) : State :=
  let s := (s.comp.kernels.filter (fun k => k.part == p && k.running)).foldl (fun (s : State) k => s.endKernel k .reset true) s
  s.endWaits (fun _ w => w.part == p) stReset
/-- QUIESCE_ABORT (R164). -/
def execQuiesceAbort (p : PartId) (s : State) : Res := .next (s.quiesceAbort p)

/-! Quarantine (R166 to R171). -/

/-- Start quarantine and run it to its end (R168). -/
def State.quarantine (s : State) (p : Nat) : State :=
  if s.quarantined p || (s.part p).cfg.isNone then s else
  let s := if s.reloading p then { s with img := { s.img with spoiled := true } } else s
  let s := (s.setMemActive p false).setB .prtState 3 p
  let s := (s.stopWork p .quarantined).forgetTags p
  let s := (s.endWaits (fun _ w => w.part == p) stQuar).releaseLocks p
  let s := s.setPart p { s.part p with armed := false }
  ((s.clrB .prtState 3 p).setB .prtState 4 p).raise { reg := .prtState, bit := 4, status := stQuar, part := some p }
/-- A trigger of quarantine (R167, R168); it waits while a link-and-partition processor is down, and PRT_QUAR_CTRL.QUARANTINE stays set until it has run (R15, R591; DEDUCED, log 90). -/
def State.quarantineReq (s : State) (p : PartId) : State :=
  if s.fpDown 5 || s.fpDown 9 then (s.wrB .prtQuarCtrl 0 true p).fpWait (.quarantine p) else (s.wrB .prtQuarCtrl 0 false p).quarantine p
/-- QUARANTINE (R168). -/
def execQuarantine (p : PartId) (s : State) : Res := .next (s.quarantineReq p)

/-- End quarantine (R170). A recorded REQUEST leaves the partition quiesced (R171). -/
def State.lift (s : State) (p : Nat) : State :=
  if !s.rdB .prtState 4 p then s else
  let s := (s.resetQueues p).clrB .prtState 4 p
  let s := s.setMemActive p true
  if s.rdB .prtQuiesceCtrl 0 p then s.tellQuiesced p else s
/-- LIFT (R170). -/
def execLift (p : PartId) (s : State) : Res := .next (s.lift p)

/-- RELEASE (R170): what an LD reset does to the partition's objects and frame map (R88, R488), then as LIFT. -/
def State.release (s : State) (p : Nat) : State :=
  if !s.rdB .prtState 4 p then s else ((((s.resetObjs (fun k => s.syncOwner k == some p)).shwReset p).clearMap p).shwOpen p).lift p
/-- RELEASE (R170). -/
def execRelease (p : PartId) (s : State) : Res := .next (s.release p)

/-- A write to PRT_LIVENESS (R167). One made while the timeout is 0 finds the watchdog off and does not arm it for a timeout set later (DESIGN CHOICE, log 75). -/
def State.liveness (s : State) (p v : Nat) : State :=
  let s := s.wr .prtLiveness (BitVec.ofNat 64 v) p
  if s.rdF .prtLivenessTimeout 0 14 p ≠ 0 ∧ s.memActive p then s.setPart p { s.part p with armed := true, liveTick := s.time / 1000000 } else s
/-- PRT_LIVENESS_WRITE (R167). -/
def execPrtLivenessWrite (link : LinkId) (ld : LdId) (val : BitVec 32) (s : State) : Res :=
  .next (s.onBar0 link ld 0x1000030 (fun p => s.liveness p val.toNat))

/-- A write to PRT_LIVENESS_TIMEOUT (R167, R175). -/
def State.livenessTimeout (s : State) (p v : Nat) : State :=
  let t := v % 2 ^ 14
  let t := if t = 0 then 0 else if 10 ≤ t ∧ t ≤ 10000 then t else 10000
  let s := s.wr .prtLivenessTimeout (BitVec.ofNat 64 t) p
  if t = 0 then s.setPart p { s.part p with armed := false } else s

/-- LIVENESS_TIMEOUT (R167): the tick after the timeout's last has begun. -/
def execLivenessTimeout (p : PartId) (s : State) : Res :=
  .next (
    let t := s.rdF .prtLivenessTimeout 0 14 p
    if t = 0 ∨ !(s.part p).armed ∨ s.departed 2 then s
    else (s.reach (((s.part p).liveTick + t + 1) * 1000000)).quarantineReq p)

/-! Partition resets (R88, R91, R92, R134 to R136, R185, R488). -/

/-- What both forms do to the partition: work ends with RESET, locks are released, queues and MSI-X state reset (R88, R91, R136). -/
def State.partReset (s : State) (p : Nat) : State :=
  let s := (s.stopWork p .reset).forgetTags p
  let s := (s.endWaits (fun _ w => w.part == p) stReset).releaseLocks p
  s.resetQueues p

/-- The LD's configuration space and MSI-X state are reset: Bus Master Enable 0, the default MRRS, nothing in its MSI-X table and PBA (R136). -/
def State.resetLd (s : State) (link ld : Nat) : State := s.setLd link ld { s.ld link ld with bme := false, mrrs := 512, pba := [], msixTable := [] }

/-- FLR (R136). -/
def execFlr (link : LinkId) (ld : LdId) (s : State) : Res :=
  .next (if s.linkGone link then s else
    let s := s.resetLd link ld
    match s.bound link ld with
    | none => s
    | some p =>
      let s := s.partReset p
      if s.shwOwner = some p then { (s.wr .shwIndexLo 0).wrB .shwStat 2 false with shw := { s.shw with loFresh := false } } else s)

/-- A restore of a durable partition that is still to be made is discarded (R102). -/
def State.dropRestore (s : State) (p : Nat) : State := { s with flash := { s.flash with journals := Store.set none p none s.flash.journals } }

/-- A CXL LD reset of an LD (R92, R102, R171). -/
def State.ldReset (s : State) (link ld : Nat) : State :=
  match s.bound link ld with
  | none => s.resetLd link ld
  | some p =>
    let on := s.memActive p
    let s := (s.setMemActive p false).resetLd link ld
    let s := (s.partReset p).resetObjs (fun k => s.syncOwner k == some p)
    let s := ((s.shwReset p).clearMap p).shwOpen p
    let s := if s.rdF .strStartState 0 4 = 5 then s.dropRestore p else s
    if on then s.setMemActive p true else s
/-- LD_RESET (R92). -/
def execLdReset (link : LinkId) (ld : LdId) (s : State) : Res := .next (s.ldReset link ld)

end Sys2Proof.Machine
end

