-- ==== Sys2Proof/Machine/Links.lean ====
section
/-! DEFINITION. Host links: training, rate mode, L0p, L1, IDE, link loss, Bus Master Enable, GPF, fabric manager, crossing watchdogs (01 R32 to R35; 04 R107 to R147). -/

namespace Sys2Proof.Machine

/-! Configuration (R107 to R109, R116, R120). -/

/-- The PORT record of a port; the minimal image's where the image has none (R61, R82, R109). -/
def State.portRec (s : State) (port : Nat) : PortRec :=
  (s.records.findSome? (fun r => match r with | .port x => if x.port = port then some x else none | _ => none)).getD
    ⟨port, strapBif (s.rdF .strStraps 4 2) port, if s.rdB .strStraps 9 then 128 else 64, 1⟩
/-- The link exists under its port's bifurcation (R107). -/
def State.linkIs (s : State) (link : Nat) : Bool := hasSub (s.portRec (link / 4)).bifurcation (link % 4)
/-- Lanes of a link under its bifurcation (R107). -/
def State.linkLanes (s : State) (link : Nat) : Nat := 16 / subLinks (s.portRec (link / 4)).bifurcation
/-- Links of a port. -/
def portLinks (port : Nat) : List Nat := (List.range 4).map (fun k => 4 * port + k)

/-- ARMED follows ENABLE_128, RATE128_CAPABLE and LOCKED_OUT (R122). -/
def State.armUpdate (s : State) (link : Nat) : State :=
  let on := s.rdB .cylRateCtrl 0 link && s.rdB .cylRateCap 0 link && !s.rdB .cylRateStatus 2 link
  (s.wrB .cylRateStatus 0 on link).wrB .lnkStatus 23 on link
/-- RATE128_CAPABLE of every link, as straps and PORT records give it (R120). -/
def State.rateCaps (s : State) : State :=
  (List.range 32).foldl (fun (s : State) k => (s.wrB .cylRateCap 0 (s.rdB .strStraps 9 && (s.portRec (k / 4)).rate == 128) k).armUpdate k) s

/-- Store LNK_STATUS.STATE. -/
def State.setLinkState (s : State) (link v : Nat) : State := s.wrF .lnkStatus 0 4 v link
/-- The host ports are configured and the module's power state keeps links up (R94, R557). -/
def State.portsReady (s : State) : Bool := s.rdB .strStartState 4 && decide (s.rdF .pwrState 0 2 ≤ 1)
/-- A link that may train: it exists, its PERST_N is deasserted, DISABLE is 0 (R94, R110, R147). -/
def State.mayTrain (s : State) (link : Nat) : Bool := s.portsReady && s.linkIs link && !(s.link link).perst && !s.rdB .lnkCtrl 9 link
/-- A down link starts training (R94), as one does that a lost state image left at 8 with DISABLE back at 0 (R147, R562). -/
def State.startTraining (s : State) (link : Nat) : State := if (s.linkState link == 0 || s.linkState link == 8) && s.mayTrain link then s.setLinkState link 1 else s

/-- Cap on the active width, at least 2 (R126). -/
def State.widthCap (s : State) (link : Nat) : Nat :=
  let c := match s.rdF .lnkCtrl 6 2 link with | 0 => 16 | 1 => 8 | 2 => 4 | _ => 2
  max 2 (min c (s.link link).fwCap)
/-- Store the active width; STATE tells a reduced one (R125, R145). -/
def State.setActive (s : State) (link w : Nat) : State :=
  let s := s.wrF .lnkStatus 13 5 w link
  if s.linkCarries link then s.setLinkState link (if w < s.rdF .lnkStatus 8 5 link then 3 else 2) else s
/-- The active width is what training and L0p leave, within the cap (R125, R126); L0p narrows nothing while it is off. -/
def State.capWidth (s : State) (link : Nat) : State :=
  if !s.linkCarries link then s else
  let s := if s.rdB .lnkCtrl 0 link then s else s.setLink link { s.link link with l0pWidth := 16 }
  s.setActive link (min (min (s.rdF .lnkStatus 8 5 link) (s.link link).l0pWidth) (s.widthCap link))

/-- The rate a link settles at; 0 when no common rate exists (R116). -/
def State.settleRate (s : State) (link : Nat) (partner : Partner) : Nat :=
  let m := min (s.portRec (link / 4)).rate (if s.rdB .strStraps 9 then 128 else 64)
  let m := if s.rdB .cylRateStatus 0 link then m else min m 64
  ([16, 32, 64, 128].filter (fun r => partner.rates.contains r && decide (r ≤ m))).foldl max 0
/-- RATE code (R145). -/
def rateCode (r : Nat) : Nat := if r = 128 then 4 else if r = 64 then 3 else if r = 32 then 2 else if r = 16 then 1 else 0

/-- The link has left 128 GT/s (R120, R146). -/
def State.fellBack (s : State) (link : Nat) : State := (s.setB .cylRateStatus 8 link).setB .lnkEvent 1 link

/-- LINK_UP (R116 to R118): training, a retrain or a recovery ends. The records for the bindings that a root port leaves inactive (R111) are raised at every LINK_UP, a recovery's too (DESIGN CHOICE, log 71). -/
def execLinkUp (link : LinkId) (partner : Partner) (s : State) : Res :=
  .next (
    let st := s.linkState link
    let rate := s.settleRate link partner
    let width := min partner.width (s.linkLanes link)
    if !s.mayTrain link || !([0, 1, 6, 8].contains st) || rate == 0 || width == 0 then s else
    let cxl := partner.cxl && partner.flit256
    let was := s.rdB .cylRateStatus 1 link
    let l := { s.link link with mld := partner.switch, l0p := partner.l0p, ideBoth := partner.ide, ideTold := false, back := 0, l0pWidth := 16, idePolicy := (s.portRec (link / 4)).ide }
    let s := s.setLink link l
    let keep := st == 6 && cxl
    let w := s.rd .lnkStatus link
    let w := setFld (setFld (setFld w 4 4 (rateCode rate)) 8 5 width) 18 1 (if partner.loFlit then 1 else 0)
    let w := setFld (setFld w 19 1 (if partner.switch then 1 else 0)) 24 2 (min partner.retimers 2)
    let w := if keep then w else setFld w 20 2 0
    let s := s.wr .lnkStatus (setFld w 0 4 (if cxl then 2 else 7)) link
    let s := s.setActive link (min width (s.widthCap link))
    let s := ((s.wrB .cylRateStatus 1 (rate == 128) link).wrB .lnkCtrl 8 false link).wrB .cylRateCtrl 1 false link
    let s := if was && rate != 128 then s.fellBack link else s
    let s := if cxl then s else s.event { reg := .lnkEvent, bit := 3, link := some link.val } link
    -- a root port carries only the binding of LD-ID 0 (R111)
    if partner.switch then s else
    s.binding.foldl (fun (s : State) b => if b.1 / 16 = link.val ∧ b.1 % 16 ≠ 0 ∧ b.2.isSome then s.raise { reg := .prtBind, part := b.2, link := some link.val, args := [b.1 % 16] } else s) s)

/-! Link loss (R137, R138). -/

/-- A request held inside the module completes to the discard sink and is logged (R137). -/
def State.loseRead (s : State) (r : HeldRead) : State :=
  let page := r.addr / 4096
  let s := { s with tier := { s.tier with heldR := s.tier.heldR.erase r } }
  let (s, q) := (s.holdEnd r).viewPage (reqHost r.reqPart) r.owner page
  s.lostLog r.link r.ld r.tag 0 (!q.ok || q.poison.getLsbD (r.addr / 64 % 64))

/-- Requests of a link complete inside the module, and their responses are lost (R137 step 2). -/
def State.loseRequests (s : State) (link : Nat) : State :=
  let s := (List.range 16).foldl (fun (s : State) p =>
    let m := s.mirPart p
    let mine (i : Instr) : Bool := match i with | .hostMemRead l _ _ _ _ => l.val == link | .hostMemWrite l _ _ _ _ _ _ => l.val == link | _ => false
    let s := s.setMirPart p { m with heldReq := m.heldReq.filter (fun i => !mine i) }
    (m.heldReq.filter mine).foldl (fun (s : State) i => s.runHeld i) s) s
  let s := (s.tier.heldR.filter (fun r => r.link == link)).foldl (fun (s : State) r => s.loseRead r) s
  let s := (s.lens.heldW.filter (fun w => w.link == link && !w.lost)).foldl (fun (s : State) w => s.lostLog w.link w.ld w.tag 1 false) s
  let s := { s with lens := { s.lens with heldW := s.lens.heldW.map (fun (w : HeldWrite) => if w.link = link then { w with lost := true } else w) } }
  (List.range 16).foldl (fun (s : State) p =>
    let m := s.mirPart p
    let mine (a : Await) : Bool := match a with | .hostWrite l _ _ _ => l == link | _ => false
    let s := s.setMirPart p { m with awaiting := m.awaiting.filter (fun x => !mine x.2.2) }
    (m.awaiting.filter (fun x => mine x.2.2)).foldl (fun (s : State) x => match x.2.2 with | .hostWrite l d t _ => s.lostLog l d t 1 false | _ => s) s) s

/-- DMA of some logical devices of a link stops: what awaits their host data ends with a status. `drop`: their tags are forgotten, so that a later completion is unexpected (R134, R137). -/
def State.stopDma (s : State) (link : Nat) (lds : Nat → Bool) (status : Nat) (drop : Bool) : State :=
  let l := s.link link
  let desc (s : State) (t : IoTag) : Option DescSt := t.q.bind (fun q => s.desc q t.n)
  let hit (s : State) (t : IoTag) : Bool := match desc s t with | some d => lds d.ld && d.link == link | none => drop
  let go := l.ioTags.filter (hit s)
  let s := if drop then s.setLink link { l with ioTags := l.ioTags.filter (fun t => !hit s t) } else s
  go.foldl (fun (s : State) t => match t.q, desc s t with
    | some q, some d => if d.status.isSome || !d.started then s else s.endDesc q d status (d.pos / 4096)
    | _, _ => s) s

/-- The rate-mode registers in the configuration space of a link's LDs return to reset values, RWS fields excepted (R88, R120, R124, R137): a lock-out, FALLBACK with its copy in LNK_EVENT, the failures' count and RETRY end. -/
def State.rateReset (s : State) (link : Nat) : State :=
  let s := ((s.wr .cylRateStatus 0 link).wr .cylRateCount 0 link).clrB .lnkEvent 1 link
  let s := (s.wrB .cylRateCtrl 1 false link).setLink link { s.link link with eqFails := [] }
  s.armUpdate link

/-- A link leaves the link-up state (R137). `state`: what STATE reads after. -/
def State.linkDown (s : State) (link state : Nat) : State :=
  if [0, 1, 8].contains (s.linkState link) then (if s.linkState link = 8 ∧ state = 0 then s else s.setLinkState link state) else
  let w := s.rd .lnkStatus link
  let w := setFld (setFld (setFld (setFld w 0 4 state) 4 15 0) 20 2 0) 24 2 0
  let s := s.wr .lnkStatus w link
  let s := s.loseRequests link
  let s := s.stopDma link (fun _ => true) stLinkLost true
  let s := s.setLink link { s.link link with keyed := false, ideTold := false, back := 0, ioTags := [] }
  let s := (List.range 16).foldl (fun (s : State) d => s.setLd link d { s.ld link d with bme := false, mrrs := 512, pba := [], msixTable := [], policy := [0, 0, 0, 0] }) s
  let s := (s.wrB .lnkCtrl 8 false link).rateReset link
  s.event { reg := .lnkEvent, bit := 0, link := some link } link

/-- LINK_DOWN (R137). -/
def execLinkDown (link : LinkId) (s : State) : Res := .next (if [0, 1, 8].contains (s.linkState link) then s else s.linkDown link 0)

/-- PERST_ASSERT (R110): the pin has been low for `ns`. Past the glitch filter of 1 µs it is a port hot reset of every link of the port, which also ends a lock-out (R124). -/
def execPerstAssert (port : Fin 8) (ns : Nat) (s : State) : Res :=
  .next (if ns ≤ 1000 then s else (portLinks port).foldl (fun (s : State) k =>
    let s := s.linkDown k 0
    (s.setLink k { s.link k with perst := true }).rateReset k) s)
/-- PERST_DEASSERT (R94). -/
def execPerstDeassert (port : Fin 8) (s : State) : Res :=
  .next ((portLinks port).foldl (fun (s : State) k => (s.setLink k { s.link k with perst := false }).startTraining k) s)

/-! Control of a link (R124, R146, R147). -/

/-- A link goes to Recovery (R139, R144). -/
def State.enterRecovery (s : State) (link : Nat) : State :=
  let st := s.linkState link
  if !([2, 3, 4, 5, 7].contains st) then s else
  ((s.setLink link { s.link link with back := st }).setLinkState link 6).incErr .lnkRecovery link
/-- LINK_ENTERS_RECOVERY (R139). -/
def execLinkEntersRecovery (link : LinkId) (s : State) : Res := .next (s.enterRecovery link)

/-- A write of 1 to RETRAIN (R146, R147). A link that is still training counts as down (DESIGN CHOICE, log 71). -/
def State.retrain (s : State) (link : Nat) : State :=
  if [0, 1, 8].contains (s.linkState link) || s.rdB .lnkCtrl 9 link then s else (s.enterRecovery link).setB .lnkCtrl 8 link
/-- RETRAIN (R147). -/
def execRetrain (link : LinkId) (s : State) : Res := .next (s.retrain link)

/-- DISABLE set (R146). -/
def State.disableLink (s : State) (link : Nat) : State := ((s.setB .lnkCtrl 9 link).linkDown link 8).setLinkState link 8
/-- LINK_DISABLE (R146). -/
def execLinkDisable (link : LinkId) (s : State) : Res := .next (s.disableLink link)
/-- DISABLE cleared (R147). -/
def State.enableLink (s : State) (link : Nat) : State :=
  let s := s.clrB .lnkCtrl 9 link
  if s.linkState link = 8 then (s.setLinkState link 0).startTraining link else s
/-- LINK_ENABLE (R147). -/
def execLinkEnable (link : LinkId) (s : State) : Res := .next (s.enableLink link)

/-! The Cylayn rate mode (R119 to R124). -/

/-- ENABLE_128 (R122): a permitted write of 1. -/
def execEnable128 (link : LinkId) (s : State) : Res := .next ((s.setB .cylRateCtrl 0 link).armUpdate link)
/-- A write of 1 to RETRY (R120, R124): the bit stays set while the link retrains (DEDUCED, log 90). -/
def State.rateRetry (s : State) (link : Nat) : State :=
  let s := (((s.wrB .cylRateStatus 2 false link).setLink link { s.link link with eqFails := [] }).armUpdate link).retrain link
  s.wrB .cylRateCtrl 1 (s.rdB .lnkCtrl 8 link) link
/-- RETRY (R124). -/
def execRetry (link : LinkId) (s : State) : Res := .next (s.rateRetry link)
/-- EQ_FAIL_128 (R124): the third failure within 1 s locks the rate mode out. -/
def execEqFail128 (link : LinkId) (s : State) : Res :=
  .next (if !s.rdB .cylRateStatus 0 link then s else
    let l := s.link link
    let t := (l.eqFails.filter (fun t => decide (s.time ≤ t + 1000000000))) ++ [s.time]
    let s := (s.setLink link { l with eqFails := t }).incErr .cylRateCount link
    if t.length < 3 then s else
    let s := (s.setB .cylRateStatus 2 link).armUpdate link
    ((s.wrB .cylRateStatus 1 false link).fellBack link).raise { reg := .lnkEvent, bit := 1, link := some link.val })

/-! Link power (R125 to R128). -/

/-- L0P_WIDTH_CHANGE (R125, R126). -/
def execL0pWidthChange (link : LinkId) (m : WidthMeasure) (s : State) : Res :=
  .next (
    let a := s.rdF .lnkStatus 13 5 link
    let full := min (s.rdF .lnkStatus 8 5 link) (s.widthCap link)
    if !s.linkCarries link || !(s.link link).l0p || !s.rdB .lnkCtrl 0 link then s else
    match m with
    | .narrow t => if t ≤ 400 ∧ 4 ≤ a then (s.setLink link { s.link link with l0pWidth := a / 2 }).setActive link (a / 2) else s
    | .widen t wait => if (800 < t || wait) && decide (a < full) then (s.setLink link { s.link link with l0pWidth := if full ≤ 2 * a then 16 else 2 * a }).setActive link (min (2 * a) full) else s)

/-- Nothing is outstanding on a link (R127). -/
def State.linkIdle (s : State) (link : Nat) : Bool :=
  s.tier.heldR.all (fun r => r.link != link) && s.lens.heldW.all (fun w => w.link != link || w.lost) && (s.link link).ioTags.isEmpty
    && s.mir.parts.all (fun e => e.2.awaiting.all (fun x => match x.2.2 with | .hostWrite l _ _ _ => l != link | _ => true))
    && s.mir.parts.all (fun e => e.2.heldReq.all (fun i => match i with | .hostMemRead l _ _ _ _ => l.val != link | .hostMemWrite l _ _ _ _ _ _ => l.val != link | _ => true))
/-- L1 idle time of a link in ms (R127, R146). -/
def State.l1Idle (s : State) (link : Nat) : Nat := s.rdF .lnkCtrl 2 4 link + 1
/-- ASPM_L1_ENTRY (R127): L1.1 (0) or L1.2 (1), whichever substate the partner enabled with ASPM L1, after the link has been idle for `idleMs`. -/
def execAspmL1Entry (link : LinkId) (substate : Option (Fin 2)) (idleMs : Nat) (s : State) : Res :=
  .next (match substate with
    | none => s
    | some v =>
      if !s.linkCarries link || !s.rdB .lnkCtrl 1 link || !s.linkIdle link || decide (idleMs < s.l1Idle link) then s else
      (s.setLink link { s.link link with back := s.linkState link }).setLinkState link (4 + v.val))
/-- ASPM_L1_EXIT (R127): back to the state before, whatever woke the link. -/
def execAspmL1Exit (link : LinkId) (_wake : L1Wake) (s : State) : Res := .next (s.leaveL1 link)

/-! IDE (R129 to R132). -/

/-- The LD whose configuration space holds the link's DOE mailbox (R129): the fabric-manager-owned one (none) of a multi-logical link, LD 0 of a single-logical one. -/
def State.doeAt (s : State) (link : Nat) (ld : Option LdId) : Bool :=
  match ld with
  | none => (s.link link).mld
  | some d => !(s.link link).mld && d.val == 0
/-- IDE_KEY_EXCHANGE (R129, R131, R132) through an LD's DOE mailbox: both streams become active under new keys; `fresh` tells an establishment from a refresh, which act alike. -/
def execIdeKeyExchange (link : LinkId) (ld : Option LdId) (_fresh ok : Bool) (s : State) : Res :=
  .next (
    let l := s.link link
    if !ok || !s.doeAt link ld || s.fpDown 0 || !s.linkCarries link || l.idePolicy == 0 || !l.ideBoth then s else
    (s.setLink link { l with keyed := true, ideTold := false }).wrF .lnkStatus 20 3 3 link)
/-- IDE_CHECK_FAIL (R132). -/
def execIdeCheckFail (link : LinkId) (s : State) : Res :=
  .next (
    let l := s.link link
    if !s.linkCarries link || !l.keyed then s else
    ((s.setLink link { l with keyed := false, ideTold := false }).wrF .lnkStatus 20 3 4 link).event { reg := .lnkEvent, bit := 2, link := some link.val } link)

/-! Bus Master Enable (R134). -/

/-- Bus Master Enable cleared: DMA stops; its outstanding reads' completions will be discarded. -/
def execBusMasterDisable (link : LinkId) (ld : LdId) (s : State) : Res :=
  .next ((s.setLd link ld { s.ld link ld with bme := false }).stopDma link (fun d => d == ld.val) stDenied false)
/-- Bus Master Enable set: held vectors are sent in ascending order. -/
def execBusMasterEnable (link : LinkId) (ld : LdId) (s : State) : Res :=
  .next (
    let d := s.ld link ld
    let s := s.setLd link ld { d with bme := true, pba := [] }
    d.pba.foldl (fun (s : State) v => s.msix link ld v) s)

/-! GPF and the fabric manager (R112). -/

/-- GPF_PHASE2: complete once every write received whole is committed to the pool. -/
def execGpfPhase2 (link : LinkId) (s : State) : Res :=
  .next (
    let s := (((s.flushSlots (fun _ => true)).releaseWrites 0).releaseWrites 1).commitAll
    if s.lens.heldW.isEmpty && s.lens.slots.all (fun x => x.written == 0) && s.shwClean then s.send (.gpfDone link) else s)

/-- Bindings a partition may have (R2, R63). -/
def maxBindings : Nat := 32
/-- FM_LD_BIND_UNBIND: the pair's entry of the binding table; a pair has at most one partition, a partition at most 32 pairs (R2, R68, R149), and Memory_Active of the LD is its partition's (R95). -/
def execFmLdBindUnbind (link : LinkId) (ld : LdId) (part : Option PartId) (s : State) : Res :=
  .next (
    let k := 16 * link.val + ld.val
    let put (v : Option Nat) (on : Bool) : State := { s with binding := Store.set none k v s.binding }.ldActive link ld on
    match part with
    | none => (put none false).send (.fm [0])
    | some p =>
      if (s.part p).cfg.isNone || (Store.get none k s.binding).isSome || decide (maxBindings ≤ (s.binding.filter (fun e => e.2 == some p.val)).length) then s.send (.fm [1])
      else (put (some p.val) (s.memActive p)).send (.fm [0]))
/-- FM_LINK_STATE_QUERY. -/
def execFmLinkStateQuery (link : LinkId) (s : State) : Res := .next (s.send (.fm [(s.rd .lnkStatus link).toNat]))

/-! Crossing watchdogs (R32 to R35, R139, R281, R284). -/

/-- A number for an island. -/
def islandNo : Island → Nat
  | .core n => n
  | .cluster n => 256 + n
  | .hub n => 512 + n
  | .hbm n => 576 + n
  | .lpddr n => 640 + n
  | .onfi n => 704 + n
  | .link n => 768 + n
  | .mirror n => 832 + n
  | .always => 896
/-- Key of an island pair, in either order. -/
def islandPair (a b : Island) : Nat := let x := islandNo a; let y := islandNo b; min x y * 1024 + max x y

/-- The die of an island (R21 to R24, R30): compute dies C0 to C3 are 0 to 3, hub dies H0 and H1 are 4 and 5. The always-on island is on every die (DESIGN CHOICE, log 72). -/
def islandDie : Island → Option Nat
  | .core n => some (n / 64)
  | .cluster n => some (n / 8)
  | .hub n => some (4 + n)
  | .hbm n => some (4 + n / 4)
  | .lpddr n => some (4 + n / 17)
  | .onfi n => some (4 + n / 16)
  | .link n => some (4 + n / 16)
  | .mirror n => some (4 + n)
  | .always => none
/-- A link layer's island (R33, R139). -/
def islandLink : Island → Bool
  | .link _ | .mirror _ => true
  | _ => false
/-- Bound of a crossing's watchdog in ns (R33, R139): 2 µs within one die; 8 µs between dies and at a link layer. The always-on island counts as on every die (DESIGN CHOICE, log 72). -/
def crossBound (a b : Island) : Nat :=
  if islandLink a || islandLink b then 8000 else
  match islandDie a, islandDie b with
  | some x, some y => if x = y then 2000 else 8000
  | _, _ => 2000

/-- What waited on a crossing ends (R34): with poisoned data for a host read, with TIMEOUT for everything else. -/
def State.crossLost (s : State) (w : WaitOp) : State :=
  match w with
  | .hostWrite link tag => match takeFirst (fun (x : HeldWrite) => x.link == link.val && x.tag == tag) s.lens.heldW with
    | none => s
    | some (x, rest) =>
      let s := { s with lens := { s.lens with heldW := rest } }
      if x.lost then s else s.hostCmp x.link x.ld x.tag 1 (s.devLoad x.reqPart (hubOf (x.addr / 65536)))
  | .access req off => s.send (.timedOut req off)
  | .sync src => s.endWaits (fun _ w => w.src == src) stTimeout
  | .move p f => s.abortMove p f
  | .hostRead link tag => match takeFirst (fun (r : HeldRead) => r.link == link.val && r.tag == tag) s.tier.heldR with
    | none => s
    | some (r, rest) => ({ s with tier := { s.tier with heldR := rest } }.holdEnd r).hostData r.link r.ld r.tag true 0 (s.devLoad r.reqPart (hubOf (r.addr / 65536)))
  | .desc q n => match s.desc q n with
    | some d => if d.started && d.status.isNone then (s.flashDone (.desc q n)).endDesc q d stTimeout (d.pos / 4096) else s
    | none => s
  | .kernel id => match s.kernel id with
    | some k => if k.running then s.kernelFault id .crossing else s
    | none => s

/-- What an expiry means for the unit behind an island: a link's event bit, a memory controller's count (R146, R281, R284). -/
def State.crossUnit (s : State) (i : Island) : State :=
  match i with
  | .link n => if n < 32 then s.setB .lnkEvent 4 n else s
  | .lpddr n => s.ctrlExpiry (.lpc (Fin.ofNat 34 n))
  | .hbm n => s.ctrlExpiry (.hbc (Fin.ofNat 8 n))
  | _ => s
/-- A link's watchdog is paused in Recovery, an L0p change or L1 (R139), those of unpowered islands from the commit step (R558). -/
def State.crossPaused (s : State) (i : Island) : Bool :=
  match i with
  | .link n => !s.linkCarries n || s.departed 2
  | .core _ | .cluster _ => s.departed 1
  | .always => false
  | _ => s.departed 2

/-- The acknowledge of a request phase that toggled at `since` arrived in time, in the cycle of the expiry at the latest (R35). -/
def State.ackedSince (s : State) (k since : Nat) : Bool := match Store.get none k s.cross.acked with | none => false | some t => decide (since ≤ t)

/-- CROSSING_WATCHDOG_EXPIRY (R33 to R35): the watchdog that a request phase started at `since` runs out. The crossing's FIFOs are flushed, so that `waiting` is what they held, and its handshake restarts at phase 0. -/
def execCrossingWatchdogExpiry (a b : Island) (since : Nat) (waiting : List WaitOp) (s : State) : Res :=
  .next (
    let k := islandPair a b
    if s.crossPaused a || s.crossPaused b || s.ackedSince k since then s else
    let s := s.reach (since + crossBound a b)
    let n := Store.get 0 k s.cross.timeouts
    let cross := { s.cross with timeouts := Store.set 0 k (min (n + 1) (2 ^ 32 - 1)) s.cross.timeouts, lastAt := some s.time, late := s.cross.late ++ [k], phase := Store.set 0 k 0 s.cross.phase }
    let s := { s with cross := cross }
    let s := waiting.foldl (fun (s : State) w => s.crossLost w) s
    let s := (s.crossUnit a).crossUnit b
    let link := match a, b with | .link n, _ => some n | _, .link n => some n | _, _ => none
    s.raise { reg := .lnkEvent, bit := 4, status := stTimeout, link := link, args := [islandNo a, islandNo b] })

/-- CROSSING_ACKNOWLEDGE (R32, R33, R35): it stops the watchdog of its request phase, and the handshake goes to its other phase; after an expiry it is discarded and counted as unexpected. -/
def execCrossingAcknowledge (a b : Island) (s : State) : Res :=
  .next (
    let k := islandPair a b
    match takeFirst (fun (x : Nat) => x == k) s.cross.late with
    | none => { s with cross := { s.cross with phase := Store.set 0 k (1 - Store.get 0 k s.cross.phase) s.cross.phase, acked := Store.set none k (some s.time) s.cross.acked } }
    | some (_, rest) => { s with cross := { s.cross with unexpected := min (s.cross.unexpected + 1) (2 ^ 32 - 1), late := rest } })

end Sys2Proof.Machine
end

