-- ==== Sys2Proof/Machine/CxlMbox.lean ====
section
/-! DEFINITION. The CXL memory-device mailbox of each logical device (R115, R143, R343, R347). -/

namespace Sys2Proof.Machine

/-- Return codes of the CXL mailbox (log 40). -/
def mbOk : Nat := 0
def mbBackground : Nat := 1
def mbInvalid : Nat := 2
def mbUnsupported : Nat := 3
def mbInternal : Nat := 4
def mbRetry : Nat := 5
def mbHandle : Nat := 0xE
def mbAddress : Nat := 0xF

/-- Reply on an LD's mailbox. -/
def State.mbox (s : State) (link ld code : Nat) (payload : List Nat) : State := s.send (.cxlMbox link ld code payload)

/-- A mailbox command of an LD: its link carries CXL; an LD without an active binding answers Unsupported. -/
def State.mboxCmd (s : State) (link ld : Nat) (f : Nat → State) : Res :=
  .next (if !s.linkCarries link then s else match s.bound link ld with
    | none => s.mbox link ld mbUnsupported []
    | some p => f p)

/-- GET_EVENT_RECORDS (R115, R606): oldest first. -/
def execGetEventRecords (link : LinkId) (ld : LdId) (log : Nat) (s : State) : Res :=
  s.mboxCmd link ld (fun _ =>
    if 3 < log then s.mbox link ld mbInvalid []
    else s.send (.events (some link) (some ld) (((s.ld link ld).log.filter (fun e => e.1 == log)).map (·.2))))

/-- CLEAR_EVENT_RECORDS (R115): all of a log, or the records named. -/
def execClearEventRecords (link : LinkId) (ld : LdId) (log : Nat) (all : Bool) (handles : List Nat) (s : State) : Res :=
  s.mboxCmd link ld (fun _ =>
    let d := s.ld link ld
    if 3 < log then s.mbox link ld mbInvalid []
    else if all then (s.setLd link ld { d with log := d.log.filter (fun e => e.1 != log) }).mbox link ld mbOk []
    else if handles.any (fun h => !d.log.any (fun e => e.1 == log && e.2.handle == h)) then s.mbox link ld mbHandle []
    else (s.setLd link ld { d with log := d.log.filter (fun e => !(e.1 == log && handles.contains e.2.handle)) }).mbox link ld mbOk [])

/-- GET_EVENT_INTERRUPT_POLICY (R115). -/
def execGetEventInterruptPolicy (link : LinkId) (ld : LdId) (s : State) : Res :=
  s.mboxCmd link ld (fun _ => s.mbox link ld mbOk (s.ld link ld).policy)

/-- SET_EVENT_INTERRUPT_POLICY (R115): one byte for each of the four logs. -/
def execSetEventInterruptPolicy (link : LinkId) (ld : LdId) (policy : List Nat) (s : State) : Res :=
  s.mboxCmd link ld (fun _ =>
    if policy.length ≠ 4 ∨ policy.any (fun v => decide (255 < v)) then s.mbox link ld mbInvalid []
    else (s.setLd link ld { s.ld link ld with policy := policy }).mbox link ld mbOk [])

/-- GET_FW_INFO (R115, R599): the running version. -/
def execGetFwInfo (link : LinkId) (ld : LdId) (s : State) : Res :=
  s.mboxCmd link ld (fun _ => s.mbox link ld mbOk [(s.rd .fwmVersion).toNat])

/-- GET_TIMESTAMP (R115): 0 until one has been set. -/
def execGetTimestamp (link : LinkId) (ld : LdId) (s : State) : Res :=
  s.mboxCmd link ld (fun _ =>
    let d := s.ld link ld
    s.mbox link ld mbOk [if d.tsHost = 0 then 0 else d.tsHost + (s.time - d.tsAt)])
/-- SET_TIMESTAMP (R115). -/
def execSetTimestamp (link : LinkId) (ld : LdId) (ns : Nat) (s : State) : Res :=
  s.mboxCmd link ld (fun _ => (s.setLd link ld { s.ld link ld with tsHost := ns, tsAt := s.time }).mbox link ld mbOk [])

/-- The opcodes of R115. -/
def mboxOpcodes : List Nat :=
  [0x0100, 0x0101, 0x0102, 0x0103, 0x0200, 0x0300, 0x0301, 0x0400, 0x0401, 0x4000, 0x4200, 0x4201, 0x4202, 0x4300, 0x4301, 0x4302, 0x4303, 0x4304, 0x4305, 0xC001]

/-- GET_SUPPORTED_LOGS (R115): the Command Effects Log (0) and the vendor log (1). -/
def execGetSupportedLogs (link : LinkId) (ld : LdId) (s : State) : Res :=
  s.mboxCmd link ld (fun _ => s.mbox link ld mbOk [0, 1])

/-- GET_LOG (R115): the CEL names the supported opcodes, each with an effect word; effects and the vendor log's content are free values. -/
def execGetLog (link : LinkId) (ld : LdId) (log off len : Nat) (s : State) : Res :=
  s.mboxCmd link ld (fun _ =>
    if 1 < log then s.mbox link ld mbInvalid [] else
    let (v, s) := s.nextFree
    let bytes (i : Nat) : Nat :=
      let op := mboxOpcodes.getD (i / 4) 0
      if log = 0 ∧ i % 4 < 2 then op / 256 ^ (i % 4) % 256 else Config.freeNat (v + i) % 256
    s.mbox link ld mbOk ((List.range (if log = 0 then min len (4 * mboxOpcodes.length - off) else len)).map (fun i => bytes (off + i))))

/-- IDENTIFY_MEMORY_DEVICE (R115): total, volatile and persistent capacity in bytes. -/
def execIdentifyMemoryDevice (link : LinkId) (ld : LdId) (s : State) : Res :=
  s.mboxCmd link ld (fun p =>
    let a := s.apparent p
    s.mbox link ld mbOk [a, if s.durable p then 0 else a, if s.durable p then a else 0])

/-- GET_HEALTH_INFO (R115): its values are free. -/
def execGetHealthInfo (link : LinkId) (ld : LdId) (s : State) : Res :=
  s.mboxCmd link ld (fun _ => let (v, s) := s.nextFree; s.mbox link ld mbOk [v])
/-- GET_ALERT_CONFIG (R115). -/
def execGetAlertConfig (link : LinkId) (ld : LdId) (s : State) : Res := s.mboxCmd link ld (fun _ => s.mbox link ld mbOk (s.ld link ld).alert)
/-- SET_ALERT_CONFIG (R115). -/
def execSetAlertConfig (link : LinkId) (ld : LdId) (cfg : List Nat) (s : State) : Res :=
  s.mboxCmd link ld (fun _ => (s.setLd link ld { s.ld link ld with alert := cfg }).mbox link ld mbOk [])

/-! Poison (R115, R214, R343). -/

/-- A span lies in one private range of the partition. -/
def State.inPrivate (s : State) (p a n : Nat) : Bool :=
  (s.rangesInto p).any (fun x => x.1 == p && x.2.attr == .priv && decide (x.2.target ≤ a ∧ a + n ≤ x.2.target + x.2.len))

/-- GET_POISON_LIST (R343): the overflow indication, then address and length of each entry of the span that lies in a private range. -/
def execGetPoisonList (link : LinkId) (ld : LdId) (dpa len : Nat) (s : State) : Res :=
  s.mboxCmd link ld (fun p =>
    let l := (s.part p).poison.filter (fun e => decide (e.addr < dpa + len ∧ dpa < e.addr + e.len) && s.inPrivate p e.addr e.len)
    s.mbox link ld mbOk ((if s.rdB .eccPoisonOvf p then 1 else 0) :: l.flatMap (fun e => [e.addr, e.len])))

/-- Write one line for the mailbox: the code of its end. -/
def State.mboxLine (s : State) (p a : Nat) (data : Line) (poison : Bool) : State × Nat :=
  let s := (s.mapAccess p (a / 65536)).touchPage p (a / 4096)
  match s.slotWrite p (a / 4096) (a / 64 % 64) data (BitVec.allOnes 64) poison (reqHost p) 3 with
  | (s, .done) => (if s.mirSync p then s.shipFrame p (a / 65536) (.line a (BitVec.allOnes 64) poison data) else s, mbOk)
  | (s, .held) => (s, mbRetry)
  | (s, .nospace) => (s.nospaceRefusal p none none a, mbInternal)

/-- INJECT_POISON (R115, R343): one line of a private range becomes poisoned, and its page is listed. -/
def execInjectPoison (link : LinkId) (ld : LdId) (dpa : Nat) (s : State) : Res :=
  s.mboxCmd link ld (fun p =>
    if dpa % 64 ≠ 0 ∨ !s.inPrivate p dpa 64 then s.mbox link ld mbAddress [] else
    match s.mboxLine p dpa 0 true with
    | (s, 0) => (s.addPoisonPage p (dpa / 4096)).mbox link ld mbOk []
    | (s, c) => s.mbox link ld c [])

/-- CLEAR_POISON (R214, R343): the line is written and no longer poisoned; an entry that the line covers whole goes. -/
def execClearPoison (link : LinkId) (ld : LdId) (dpa : Nat) (data : Line) (s : State) : Res :=
  s.mboxCmd link ld (fun p =>
    if dpa % 64 ≠ 0 ∨ !s.inPrivate p dpa 64 then s.mbox link ld mbAddress [] else
    match s.mboxLine p dpa data false with
    | (s, 0) => (s.dropPoison p (fun e => decide (dpa ≤ e.addr ∧ e.addr + e.len ≤ dpa + 64))).mbox link ld mbOk []
    | (s, c) => s.mbox link ld c [])

/-! Scan Media (R115, R347). -/

/-- GET_SCAN_MEDIA_CAPABILITIES (R115): an estimated time, a free value. -/
def execGetScanMediaCapabilities (link : LinkId) (ld : LdId) (s : State) : Res :=
  s.mboxCmd link ld (fun _ => let (v, s) := s.nextFree; s.mbox link ld mbOk [v])

/-- SCAN_MEDIA (R347): a MODE 0 pass over the frames of the range; its faulting pages are kept for the results. -/
def execScanMedia (link : LinkId) (ld : LdId) (dpa len : Nat) (s : State) : Res :=
  s.mboxCmd link ld (fun p =>
    if len = 0 ∨ s.apparent p < dpa + len then s.mbox link ld mbAddress [] else
    let a := dpa / 65536 * 65536
    let n := (dpa + len + 65535) / 65536 * 65536 - a
    let (s, x) := s.scrubSpan p a n false false
    let hits := (x.faults.filter (fun f => decide (f < dpa + len ∧ dpa < f + 4096))).map (fun f => (f, 4096))
    (s.setLd link ld { s.ld link ld with scan := some (dpa, len), scanHits := hits }).mbox link ld mbBackground [])

/-- GET_SCAN_MEDIA_RESULTS (R347): address and length of each faulting page. -/
def execGetScanMediaResults (link : LinkId) (ld : LdId) (s : State) : Res :=
  s.mboxCmd link ld (fun _ => s.mbox link ld mbOk ((s.ld link ld).scanHits.flatMap (fun e => [e.1, e.2])))

/-! Lost responses (R141 to R143). -/

/-- A link's lost responses, newest first, each with its whole time in µs. -/
def State.lostRing (s : State) (link : Nat) : List (Nat × Nat) :=
  let h := s.rd .lnkLostHead link
  let n := if bit h 8 then 256 else fld h 0 8
  (List.range n).map (fun i =>
    let e := (fld h 0 8 + 255 - i) % 256
    (Store.get 0 e (s.link link).lostAt, (s.rd .lnkLostLog link e).toNat))

/-- Merge two lists by time, newest first. That entries of one time on different links stand in link order is the model's choice (DESIGN CHOICE, log 71). -/
def mergeLost (n : Nat) (a b : List (Nat × Nat)) : List (Nat × Nat) :=
  match n, a, b with
  | 0, a, b => a ++ b
  | _, [], b => b
  | _, a, [] => a
  | n + 1, x :: t, y :: u => if y.1 ≤ x.1 then x :: mergeLost n t (y :: u) else y :: mergeLost n (x :: t) u

/-- GET_LOST_RESPONSES (R143). That the entries to skip are counted among those of the requester's partition, and that entries of one time on different links stand in link order, are the model's choices (DESIGN CHOICE, log 71). -/
def execGetLostResponses (link : LinkId) (ld : LdId) (skip : Nat) (s : State) : Res :=
  s.mboxCmd link ld (fun p =>
    if 255 < skip then s.mbox link ld mbInvalid [] else
    let mine (w : Nat) : Bool := Store.get none (16 * (w / 2 ^ 24 % 256) + w / 2 ^ 16 % 16) s.binding == some p
    let all := (List.range 32).foldl (fun (l : List (Nat × Nat)) k => let r := s.lostRing k; mergeLost (l.length + r.length) l r) []
    let go := (((all.map (·.2)).filter mine).drop skip).take 64
    s.mbox link ld mbOk (go.length :: go))

/-- CXL_MBOX_UNSUPPORTED (R115): any other opcode. -/
def execCxlMboxUnsupported (link : LinkId) (ld : LdId) (_opcode : Nat) (s : State) : Res :=
  .next (if s.linkCarries link then s.mbox link ld mbUnsupported [] else s)

end Sys2Proof.Machine
end

