-- ==== Sys2Proof/Machine/Apply.lean ====
section
/-! DEFINITION. Putting an image in force, and a partition reload (02 R45 to R50, R60 to R64, R69 to R82, R111, R149, R153 to R158, R177, R203, R232, R264, R277, R302, R323, R332, R354, R488, R523, R578, R627). -/

namespace Sys2Proof.Machine

/-! One partition's records (R61, R63, R627). -/

/-- LENS ranges of a partition in a list of records. -/
def lensIn (l : List ImgRec) (p : Nat) : List LensRec := l.filterMap (fun r => match r with | .lens x => if x.part = p then some x else none | _ => none)
/-- COMP mask of a partition in a list of records. -/
def compIn (l : List ImgRec) (p : Nat) : Option Nat := l.findSome? (fun r => match r with | .comp q m => if q = p then some m else none | _ => none)
/-- QOS record of a partition in a list of records. -/
def qosIn (l : List ImgRec) (p : Nat) : Option QosRec := l.findSome? (fun r => match r with | .qos q => if q.part = p then some q else none | _ => none)

/-- Isolation entries of a partition, built from its ranges (R153, R157, R158). -/
def State.buildIso (s : State) (p : Nat) (l : List RangeRec) : State :=
  let other := s.iso.filter (fun e => e.1 / 64 != p)
  { s with iso := l.zipIdx.foldl (fun t x =>
    Store.set none (64 * p + x.2) (some { attr := x.1.attr, owner := x.1.owner, base := x.1.base, len := x.1.length, target := x.1.target }) t) other }
/-- Binding table entries of a partition (R149), and Memory_Active of its LDs (R95). -/
def State.buildBind (s : State) (p : Nat) (l : List (Nat × Nat)) : State :=
  let was := s.binding.filter (fun e => e.2 == some p)
  let other := s.binding.filter (fun e => e.2 != some p)
  let s := was.foldl (fun (s : State) e => s.ldActive (e.1 / 16) (e.1 % 16) false) s
  let s := { s with binding := l.foldl (fun t x => Store.set none (16 * x.1 + x.2) (some p) t) other }
  l.foldl (fun (s : State) x => s.ldActive x.1 x.2 (s.memActive p)) s
/-- Registers that a partition's PART record gives (R173, R174, R260, R266). -/
def State.partRegs (s : State) (p : Nat) : State :=
  let w (n : Nat) : Word := BitVec.ofNat 64 n
  let s := s.wr .prtClusters (w (s.part p).comp) p
  match (s.part p).cfg with
  | none => (((((s.wr .prtApparent 0 p).wr .prtQuotaT0 0 p).wr .prtQuotaT1 0 p).wr .prtQuotaT2 0 p).wr .tirPDeepMissUs 0 p).wr .prtState 0 p
  | some r =>
    let s := ((((s.wr .prtApparent (w r.apparent) p).wr .prtQuotaT0 (w r.quota0) p).wr .prtQuotaT1 (w r.quota1) p).wr .prtQuotaT2 (w r.quota2) p).wr .tirPDeepMissUs (w r.deepMissUs) p
    ((s.wrB .prtState 6 (s.shwOwner == some p) p).wrB .prtState 7 r.durable p).wrF .prtState 8 4 p p
/-- A partition gets a key when it first gets tier 2 quota (R323). -/
def State.firstKey (s : State) (p : Nat) : State :=
  if (match (s.part p).cfg with | some r => decide (0 < r.quota2) | none => false) && !s.flash.keyed.contains p then
    { s.newKey p with flash := { (s.newKey p).flash with keyed := s.flash.keyed ++ [p] } }
  else s
/-- A cluster's OWNER and OWNED (R353); a cluster that moved has its memories zeroed (R354), and its cores run with their clocks or stop. In safe mode the compute plane is off (R45). -/
def State.ownClusters (s : State) (was : Nat → Option Nat) : State :=
  (List.range 32).foldl (fun (s : State) c =>
    let now := (List.range 16).find? (fun p => (s.part p).cfg.isSome && (s.part p).comp.testBit c)
    let s := if now = was c then s else s.zeroCluster c
    let s := (s.wrF .cmpClState 0 4 (now.getD 0) c).wrB .cmpClState 4 now.isSome c
    (List.range 8).foldl (fun (s : State) i =>
      let k := 8 * c + i
      let st := s.rdF .cmpCoreState 0 3 k
      if now.isNone || s.rdB .strStatus 5 then s.wrF .cmpCoreState 0 3 0 k else if st = 0 ∧ s.rdF .pwrState 0 2 = 0 then s.wrF .cmpCoreState 0 3 1 k else s) s) s
/-- The partition that owned a cluster. -/
def State.clusterOwner (s : State) (c : Nat) : Option Nat := if s.rdB .cmpClState 4 c then some (s.rdF .cmpClState 0 4 c) else none
/-- Records that were skipped raise an event record each (R62). -/
def State.tellSkipped (s : State) (l : List ImgRec) : State :=
  l.zipIdx.foldl (fun (s : State) x => match x.1 with | .skipped t => s.raise { reg := .strReject, value := x.2, args := [t] } | _ => s) s

/-! A partition reload (R76 to R81, R627). -/

/-- Step 5 of R78. -/
def State.applyReload (s : State) (p : Nat) (i : Image) : State :=
  let old := s.part p
  let l := i.records
  let cfg := (partIn l p).orElse (fun _ => old.cfg)
  let lens := if l.any (fun r => match r with | .lens _ => true | _ => false) then lensIn l p else old.lens
  let comp := (compIn l p).getD old.comp
  let qos := (qosIn l p).orElse (fun _ => old.qos)
  let wasOwner := s.clusterOwner
  let wasSync := s.syncOwner
  let wasQ := s.queuesOf p
  let frozen := ((s.framesOf p).filter (fun x => x.2.repl.isSome && s.frozenFrame p x.1)).map (·.1)
  -- what the shadow window has written to frames that may now become frozen is stored first (R154, R182)
  let s := if s.shwOwner = some p then s.shwFlush else s
  let s := s.setPart p { old with cfg := cfg, lens := lens, comp := comp, qos := qos }
  let s := match cfg with | none => s | some r => (s.buildIso p r.ranges).buildBind p r.bindings
  let s := (s.partRegs p).ownClusters wasOwner
  -- queues and objects that moved into or out of the span (R488; queues by log 41)
  let nowQ := s.queuesOf p
  let s := ((wasQ.filter (fun q => !nowQ.contains q)) ++ (nowQ.filter (fun q => !wasQ.contains q))).foldl (fun (s : State) q => s.resetQueue p q) s
  let s := s.resetObjs (fun k => wasSync k != s.syncOwner k)
  let s := frozen.foldl (fun (s : State) f => if s.frozenFrame p f then s else s.dropReplica p f) s
  -- a replica that is being made is not created for a range that is no longer frozen (R257)
  let s := (s.tier.moves.filter (fun m => m.running && m.part == p && (s.frame p m.frame).state == .replicating && !s.frozenFrame p m.frame)).foldl (fun (s : State) m => s.abortMove p m.frame) s
  let buckets := Store.set none (2 * p) none (Store.set none (2 * p + 1) none s.qos.buckets)
  let s := if (qosIn l p).isSome then ({ s with qos := { s.qos with buckets := buckets } }.clrB .qosPState 0 p).clrB .qosPState 1 p else s
  let s := (s.firstKey p).arrayUpdate
  -- a quota that falls can put the write debt across a watermark (R221)
  (((s.excess p).shipTable p).boundsUpdate).checkDebt p

/-! A full image (R48 to R50, R60, R61). -/

/-- The TIER record; the minimal image's where the image has none (R61, R82, R276). -/
def tierIn (l : List ImgRec) : TierRec :=
  (l.findSome? (fun r => match r with | .tier x => some x | _ => none)).getD ⟨16, 96, 8, 1, 10, [0x444442000, 0x888884000, 0x1111108000, 0x222210000]⟩
/-- The CODE record; the minimal image's where the image has none (R61, R82, R276). -/
def codeIn (l : List ImgRec) : CodeRec :=
  (l.findSome? (fun r => match r with | .code x => some x | _ => none)).getD ⟨16, 16, 32, 0, [0x44444400, 0x08888800, 0x11111000, 0x22222000]⟩
/-- The MIRROR record. -/
def mirrorIn (l : List ImgRec) : Option MirrorRec := l.findSome? (fun r => match r with | .mirror x => some x | _ => none)
/-- The POWER record; the minimal image's where the image has none (R61, R82). -/
def powerIn (l : List ImgRec) : PowerRec := (l.findSome? (fun r => match r with | .power x => some x | _ => none)).getD ⟨1600, 3, 0, 0, 100, 256 * 2 ^ 30⟩
/-- CLOCK setting of a core island in 10 MHz units (R60, R82). -/
def clockIn (l : List ImgRec) (k : Nat) : Nat := (l.findSome? (fun r => match r with | .clock c f _ => if c = k then some f else none | _ => none)).getD 195
/-- The CLOCK record's table of a core island: an entry per power state (R60). -/
def biasIn (l : List ImgRec) (k : Nat) : List BiasRec := (l.findSome? (fun r => match r with | .clock c _ b => if c = k then some b else none | _ => none)).getD []
/-- Supply of a core island that runs at a frequency in Daylight: the record's bias and assist, else 0.20 V of forward bias above 1.95 GHz and none elsewhere (R547). -/
def islandOf (l : List ImgRec) (k f : Nat) : IslandSt :=
  match (biasIn l k).head? with
  | some b => { bias := b.body, assist := b.assist, volt := Config.coreVolt k f }
  | none => { bias := if 195 < f then 200 else 0, volt := Config.coreVolt k f }
/-- Set a core island's frequency, in 10 MHz units; its supply follows while the compute dies are on (R30, R547), without forward bias where its thermal limit acts (R594). -/
def State.setIsland (s : State) (l : List ImgRec) (k f : Nat) (hot : Bool) : State :=
  let s := s.wrF .cmpCoreState 16 8 f k
  if s.rdF .pwrState 0 2 ≠ 0 then s else
  let x := islandOf l k f
  { s with power := { s.power with cores := Store.set {} k { x with bias := if hot then min x.bias 0 else x.bias } s.power.cores } }
/-- Body bias and SRAM assist outside the compute dies in a power state (R547). -/
def State.stateBias (s : State) (t : Nat) : State :=
  let p := { s.power with hubBias := if t = 1 then -300 else if t = 2 then -600 else 0, alwaysBias := if t = 2 then -600 else 0,
                          underdrive := if t = 2 then 100 else 0, retention := if t = 3 then 550 else 0 }
  { s with power := if t = 0 then p else { p with cores := [] } }

/-- ROUTE share of a cluster to hub 0, in sixteenths (R60, R82). -/
def routeIn (l : List ImgRec) (c : Nat) : Nat := (l.findSome? (fun r => match r with | .route k x => if k = c then some x else none | _ => none)).getD 8

/-- Write a bank-mask set. -/
def State.putMasks (s : State) (n : RegName) (m : List Nat) : State := m.zipIdx.foldl (fun (s : State) x => s.wr n (BitVec.ofNat 64 x.1) x.2) s
/-- Mask registers hold a set. -/
def State.masksAre (s : State) (n : RegName) (m : List Nat) : Bool := m.zipIdx.all (fun x => (s.rd n x.2).toNat == x.1)

/-- Thresholds, epoch, masks and strengths (R244, R277, R332). -/
def State.applyTiers (s : State) (l : List ImgRec) (cold : Bool) : State :=
  let t := tierIn l
  let c := codeIn l
  let s := s.wr .tirAgeEpoch (BitVec.ofNat 64 t.epochMs)
  let s := s.wr .tirThresh (BitVec.ofNat 64 (t.promote21 + t.promote10 * 2 ^ 8 + t.demote01 * 2 ^ 16 + t.demote12 * 2 ^ 24))
  let s := if cold then (s.putMasks .lpcMask t.masks).putMasks .hbcMask c.masks else
    let s := if s.masksAre .lpcMask t.masks then s else s.event { reg := .lpcEvent, bit := 6 }
    if s.masksAre .hbcMask c.masks then s else s.event { reg := .hbcEvent, bit := 6 }
  let s := s.wrF .eccStrength 24 8 (if c.scrubRate = 0 then 20 else c.scrubRate)
  -- a durable partition's tier 2 runs outlive a cold reset: its journal lists them (R332)
  let runs := s.flash.journals.any (fun e => match e.2 with | some j => j.frames.any (fun x => x.2.hasRun) | none => false)
  let put (s : State) (t v : Nat) (take : Bool) : State :=
    if take then s.wrF .eccStrength (8 * t) 8 v else if s.strength t = v then s else s.event { reg := .eccEvent, bit := 7, addr := t, value := v }
  put (put (put s 0 c.parity0 cold) 1 c.parity1 cold) 2 c.parity2 (cold && (!runs || s.strength 2 == 0))

/-- Role that the MIRROR record gives in this module (R47): pair-second holds the opposite. -/
def roleOf (mode role : Nat) : Nat := if mode = 2 then (if role = 1 then 2 else if role = 2 then 1 else 0) else role

/-- Mirror roles, modes and states at the apply of an image (R47, R49, R522): a partition starts CONNECTING, or OFF where it is not mirrored or the ports stay down. -/
def State.applyMirror (s : State) (l : List ImgRec) : State :=
  let mode := s.rdF .strStraps 0 2
  let some' := match mirrorIn l with | none => false | some m => m.entries.any (fun e => e.role != 0)
  let barred := some' && mode != 1 && mode != 2
  let s := { s with mir := { s.mir with barred := barred || mode == 3 } }
  let s := if barred then s.raise { reg := .strStraps, value := mode } else s
  (List.range 16).foldl (fun (s : State) p =>
    let e := ((mirrorIn l).bind (fun m => m.entries[p]?)).getD ⟨0, false, false, 100⟩
    let rec' := Store.get none p s.mir.pairs
    let role := if e.role = 0 ∨ (s.part p).cfg.isNone then 0 else match rec' with | some r => if r.generation = 0 then roleOf mode e.role else r.role | none => roleOf mode e.role
    let gen := match rec' with | some r => r.generation | none => 0
    let st := if role = 0 ∨ s.mir.barred then 0 else 1
    (s.wr .mirPState (BitVec.ofNat 64 (role + 16 * st + (if role ≠ 0 ∧ e.async then 256 else 0))) p).wr .mirPGeneration (BitVec.ofNat 64 gen) p) s

/-- The shadow window's owner (R177): the lowest partition whose SHADOW record enables it; each other one raises an event record. Index 0 is shown once the owner's memory is up (`shwOpen`). -/
def State.applyShadow (s : State) (l : List ImgRec) : State :=
  let on := (List.range 16).filter (fun p => l.any (fun r => match r with | .shadow q e => q == p && e | _ => false) && (s.part p).cfg.isSome)
  match on with
  | [] => { s.wr .shwOwner 0 with shw := {} }
  | p :: rest =>
    let s := { s.wr .shwOwner (BitVec.ofNat 64 (16 + p)) with shw := {} }
    rest.foldl (fun (s : State) q => s.raise { reg := .shwOwner, part := some q }) s

/-- Pages outside a partition's apparent capacity go (R50): true where a frame that was mapped did. -/
def State.trim (s : State) (p top : Nat) : State × Bool :=
  let out := (s.framesOf p).filter (fun x => decide (top < 65536 * (x.1 + 1)))
  if out.isEmpty then (s, false) else
  let s := out.foldl (fun (s : State) x => s.clearFrame p x.1) s
  (s.dropPoison p (fun e => decide (top < e.addr + e.len)), out.any (fun x => x.2.state != .zero))

/-- Install the image in force with the partitions' records as they stand (R45, R60 to R64, R82): tables, registers, roles. In safe mode nobody owns the shadow window (R177; DESIGN CHOICE, log 77). -/
def State.install (s : State) (i : Image) (source : Nat) (cold safe : Bool) : State :=
  let l := i.records
  let s := s.wr .strSource (BitVec.ofNat 64 source)
  let s := (s.wr .strActiveSeq (BitVec.ofNat 64 i.sequence)).putDigest .strActiveDigest i.digest
  let was := s.clusterOwner
  let s := { s with iso := [], binding := [] }
  let s := (List.range 16).foldl (fun (s : State) p => match (s.part p).cfg with | none => s | some r => (s.buildIso p r.ranges).buildBind p r.bindings) s
  -- in safe mode nobody owns the shadow window (DESIGN CHOICE, log 77)
  let s := if safe then { s.wr .shwOwner 0 with shw := {} } else s.applyShadow l
  let s := (List.range 16).foldl (fun (s : State) p => (s.partRegs p).firstKey p) s
  let s := (List.range 16).foldl (fun (s : State) p => s.wr .carPQuotaT2Eff (BitVec.ofNat 64 (s.quota2Full p * 2 ^ 30)) p) s
  let s := (s.ownClusters was).applyTiers l cold
  let s := (List.range 256).foldl (fun (s : State) k => s.setIsland l k (clockIn l k) false) s
  let s := { s with comp := { s.comp with route := (List.range 32).map (routeIn l) } }
  let pw := powerIn l
  let s := s.wrF .fwmInputW 16 16 pw.capW
  let s := s.wr .lpcPasr (BitVec.ofNat 64 ((if pw.pasrNight = 0 then 0xFF else pw.pasrNight) + 256 * (if pw.pasrEclipse = 0 then 0xFF else pw.pasrEclipse)))
  let s := s.wr .tirDirtyBudget (BitVec.ofNat 64 pw.dirtyBudget)
  let s := (List.range 32).foldl (fun (s : State) k => s.setLink k { s.link k with idePolicy := (s.portRec (k / 4)).ide }) s.rateCaps
  let s := s.wrB .qosStatus 0 s.boundsHold
  if safe then { s with mir := { s.mir with barred := true } } else s.applyMirror l

/-- The records of every partition as an image gives them. `safe`: only partition 0, bound to LD-ID 0 of every link, without its ranges in other partitions' space, whose pages are unreachable (R45); a last-good image without
a partition 0 leaves the minimal image's (DESIGN CHOICE, log 77). -/
def State.takeParts (s : State) (l : List ImgRec) (safe : Bool) : State :=
  (List.range 16).foldl (fun (s : State) p =>
    let rec0 := partIn l p
    let rec1 : Option PartRec := if !safe then rec0 else if p ≠ 0 then none else
      (rec0.orElse (fun _ => partIn (s.minimalImage).records 0)).map (fun (r : PartRec) =>
        { r with bindings := ((List.range 32).filter (fun k => linkExists l (s.rdF .strStraps 4 2) k)).map (fun k => (k, 0)), ranges := r.ranges.filter (fun x => x.owner == 0) })
    s.setPart p (match rec1 with
      | none => { s.part p with cfg := none, lens := [], qos := none, comp := 0 }
      | some r => { s.part p with cfg := some r, lens := lensIn l p, qos := qosIn l p, comp := (compIn l p).getD 0 })) s

/-- Put a full image in force (R45, R48 to R50). At a warm reset the pages outside its layout go, with one event record per partition. -/
def State.applyImage (s : State) (i : Image) (source : Nat) (cold safe : Bool) : State :=
  let s := (List.range 16).foldl (fun (s : State) p => s.wr .strPartSeq 0 p) s
  let s := ({ s with img := { s.img with inForce := some i, reloads := [] } }.takeParts i.records safe).install i source cold safe
  let s := if cold ∨ safe then s else (List.range 16).foldl (fun (s : State) p =>
    match s.trim p (s.apparent p) with
    | (s, true) => s.raise { reg := .strSource, part := some p, value := s.apparent p }
    | (s, false) => s) s
  s.tellSkipped i.records

end Sys2Proof.Machine
end

