-- ==== Sys2Proof/Machine/Reset.lean ====
section
/-! DEFINITION. Module resets, start sequences, durable flush and restore (03 R88 to R106; R42, R45 to R49, R282, R284 to R286, R320, R323, R581 to R583, R596, R598). -/

namespace Sys2Proof.Machine

/-! Writing durable data to flash (R97, R100, R582). -/

/-- Give a frame's dirty run its home in tier 2; false where no run fits or a page is uncorrectable. -/
def State.flushFrame (s : State) (p f : Nat) : State × Bool :=
  let e := s.frame p f
  if !e.hasRun || (e.home == 2 && !e.reloc) then (s, true) else
  match s.placeRun p f e [2] with
  | none => (s, false)
  | some (s, t, b) =>
    let r := s.copyPages p f e (s.homeCopy e) false
    match r.bad with
    | some _ => (s, false)
    | none => (r.s.commitMove { part := p, frame := f, cls := 3, kind := .demote, target := 2, running := true, destTier := t, destBase := b, destAllot := e.freshAllots } e r.pages, true)

/-- A frame's state as the flash map keeps it: no replica, no move (R97). -/
def FrameSt.atRest (e : FrameSt) : FrameSt :=
  { e with state := if e.state = FrameState.zero then .zero else .homed, repl := none, replBase := 0, reloc := false, mapBad := 0, pages := e.pages.map (fun (x : PageSt) => { x with replErrs := [] }) }

/-- Flush one durable partition: its dirty frames, then its map entries, then the trailer (R582). `left`: how many of these writes can still be made; none when all can. -/
def State.flushPart (s : State) (p : Nat) (left : Option Nat) : State × Option Nat :=
  let todo := ((s.framesOf p).filter (fun x => x.2.hasRun && (x.2.home != 2 || x.2.reloc))).map (·.1)
  let go := match left with | none => todo | some n => todo.take n
  let r := go.foldl (fun (r : State × List Nat) f => match r.1.flushFrame p f with | (s, true) => (s, r.2) | (s, false) => (s, r.2 ++ [f])) (s, [])
  let s := r.1
  let left := left.map (fun n => n - todo.length)
  let pagesDone := go.length = todo.length
  let live := (s.framesOf p).filter (fun x => x.2.state != .zero || x.2.pin != 0)
  let entries := if !pagesDone then [] else match left with | none => live | some n => live.take n
  let good := entries.filter (fun x => !r.2.contains x.1)
  let whole := entries.length = live.length ∧ left ≠ some live.length ∧ left ≠ some 0
  let lost := (live.filter (fun x => !good.any (fun y => y.1 == x.1))).map (·.1)
  let j : Journal := { complete := decide whole && lost.isEmpty, frames := good.foldl (fun t x => Store.set {} x.1 x.2.atRest t) [], unfinished := lost, slot := s.rdF .carPKey 0 1 p }
  ({ s with flash := { s.flash with journals := Store.set none p (some j) s.flash.journals } }, left.map (fun n => n - live.length - 1))

/-- The durable partitions in service in the order of a flush: ascending dirty volume, then number (R582). -/
def State.flushOrder (s : State) : List Nat := sortBy (fun p => s.dirty p) (s.partsOn.filter (fun p => s.durable p))

/-- Flush the durable partitions (R100, R581, R582). -/
def State.flushDurable (s : State) (left : Option Nat) : State :=
  (s.flushOrder.foldl (fun (r : State × Option Nat) p => r.1.flushPart p r.2) (s, left)).1

/-- Every durable partition's journal is complete (R101). -/
def State.journalsWhole (s : State) : Bool :=
  s.flushOrder.all (fun p => match Store.get none p s.flash.journals with | some j => j.complete | none => false)

/-! Stopping (R99 steps 1 to 3). -/

/-- Host requests already received complete (R99 step 2, R581 step 2). -/
def State.finishHost (s : State) : State :=
  let s := s.tier.heldR.foldl (fun (s : State) r => if r.fill then s.fillSlot r.owner (r.addr / 4096) else s.flashArrive r.owner (r.addr / 4096)) s
  ((s.flushSlots (fun _ => true)).releaseWrites 0).releaseWrites 1

/-- Take every host link down (R99, R581). -/
def State.linksDown (s : State) : State := (List.range 32).foldl (fun (s : State) k => s.linkDown k 0) (s.clrB .strStartState 4)

/-- Steps 1 to 3 of R99: work stops, host requests complete, links go down, the shadow window's buffers and the merge slots are committed (R182). -/
def State.stopModule (s : State) : State :=
  let s := s.wrF .strStartState 0 4 7
  let s := s.partsOn.foldl (fun (s : State) p => s.stopWork p .reset) s
  let s := s.finishHost.linksDown.commitAll
  s.partsOn.foldl (fun (s : State) p => s.setMemActive p false) s

/-! What a reset leaves (R88, R89, R141, R282, R286, R320, R332, R339, R522, R571, R583). -/

/-- Registers kept by name. -/
def State.keepRegs (s : State) (l : List RegName) : RegFile := s.regs.filter (fun e => l.any (fun n => n.ctorIdx == e.1 / (8192 * 8192)))

/-- Registers that every reset keeps: fuses, the health record, the flash array's own records, the state of pins. -/
def keptCold : List RegName :=
  [.strKeyState, .fwmSecVersion, .lpcSpare, .hbcStackState, .eccChState, .eccChRemap, .hupFlushLast, .carPKey, .carBSlotStatus, .carBSparePct, .flcCSpare, .flcCWear]
/-- Registers that a warm reset keeps beside them: the always-on domain, RWS fields, what describes the retained memories, what R49 and R69 keep in force. -/
def keptWarm : List RegName :=
  keptCold ++ [.hupStatus, .hupCtrl, .hupEvent, .hupWireFault, .hupPackMv, .hupCapMf, .hupEnergyJ, .hupTemp, .hupBudgetLimit, .hupChargeQ, .hupFlushes, .hupCellMv,
    .cylRateCtrl, .lpcMask, .hbcMask, .eccStrength, .lpcGroupState, .lpcCState, .lpcRebuildCtrl, .lpcRebuildPtr, .strPartSeq, .eccPoisonOvf, .carArrayState, .carEffCap]

/-- The module's logic is reset (R88). Warm: memories keep their content in self-refresh, so that the frame maps stay. -/
def State.afterReset (s : State) (cold : Bool) : State :=
  let regs := s.keepRegs (if cold then keptCold else keptWarm)
  let links := s.links.foldl (fun t l => if l.2.perst then Store.set {} l.1 { perst := true } t else t) []
  let bays := s.flash.bays.map (fun (b : BaySt) => { b with pressedAt := none, window := none, expiries := [] })
  let flash : FlashSt := { s.flash with bays := bays, restriping := false, short := false, waits := [], busy := [], reads := [] }
  let img : ImgSt := { s.img with staging := [], loading := false, spoiled := false, heldReset := none }
  let img : ImgSt := if cold then { img with inForce := none, reloads := [] } else img
  let fw : FwSt := { banks := s.fw.banks, active := s.fw.active, pend := s.fw.pend, fresh := s.fw.fresh, lib := s.fw.lib }
  let dram : DramSt := { stuck := s.dram.stuck, remapStore := if cold then [] else s.dram.remapStore, withheld := s.dram.withheld, saved := s.dram.saved, savedAt := s.dram.savedAt, rhAt := s.time, rebuildAt := if cold then [0, 0] else s.dram.rebuildAt, lostStripes := if cold then [] else s.dram.lostStripes }
  let keepPart (d : PartSt) : PartSt := { cfg := d.cfg, lens := d.lens, qos := d.qos, comp := d.comp, poison := d.poison }
  let s := if cold then s else s.tier.moves.foldl (fun (s : State) m => if m.running then s.abortMove m.part m.frame else s) s
  { time := s.time, free := s.free, pending := s.pending, out := s.out, regs := regs, img := img, links := links, flash := flash, dram := dram, fw := fw, start := s.start,
    parts := if cold then [] else s.parts.foldl (fun t d => Store.set {} d.1 (keepPart d.2) t) [],
    tier := let t : TierSt := { sweepAt := [s.time, s.time], epochAt := s.time }; if cold then t else { t with frames := s.tier.frames, abandoned := s.tier.abandoned },
    pool := s.pool,
    hup := if cold then {} else { s.hup with computed := false, flushAt := none, trip := false },
    mir := { pairs := s.mir.pairs } }

/-! Straps and firmware (R41 to R43, R596, R598, R599). -/

/-- One pin's reading from its eight samples; `tie` is what four against four reads (R42). -/
def pinReads (v : BitVec 8) (tie : Bool) : Bool :=
  let n := ((List.range 8).filter (fun i => v.getLsbD i)).length
  if 5 ≤ n then true else if n ≤ 3 then false else tie

/-- STR_STRAPS from the samples; an event record for each unstable pin (R42, R87). -/
def State.sampleStraps (s : State) (l : List (BitVec 8)) : State :=
  (List.range 11).foldl (fun (s : State) i =>
    let v := l.getD i 0
    let s := s.wrB .strStraps i (pinReads v (i == 10))
    if v = 0 ∨ v = BitVec.allOnes 8 then s else s.event { reg := .strStraps, bit := 16 + i, value := v.toNat }) (s.wr .strStraps 0)

/-- What a firmware bank holds: version, security version, digest. -/
def State.bank (s : State) (b : Nat) : Nat × Nat × BitVec 384 :=
  match (s.fw.banks.getD b none) with
  | some c => (c.version, c.security, c.digest)
  | none => ((Config.fwVersion b).toNat, Config.fwSecurity b, Config.fwDigest b)

/-- The firmware bank that is verified and runs: the first, or the other one where it fails; false where both fail (R93 step 3, R596, R599). -/
def State.bootBank (s : State) (first : Nat) (bad : Nat → Bool) : State × Bool :=
  let use := if !bad first then first else 1 - first
  if bad use then (s, false) else
  let s := if use = first then s else { s.setB .fwmEvent 3 with fw := { s.fw with active := use, fresh := false } }
  let (v, _, d) := s.bank use
  ((s.wr .fwmVersion (BitVec.ofNat 64 v)).putDigest .fwmDigest d, true)

/-- Verify the firmware and start the processors (R93 step 3, R596, R599); false where both banks fail. -/
def State.bootFirmware (s : State) (env : StartEnv) : State × Bool :=
  let bad (b : Nat) : Bool := if b = 0 then env.bankABad else env.bankBBad
  let first := s.fw.pend.getD s.fw.active
  let s := { s with fw := { s.fw with active := first, fresh := s.fw.fresh || s.fw.pend.isSome, pend := none, beats := List.replicate 12 (s.time / 1000000) } }
  match s.bootBank first bad with
  | (s, false) => (s, false)
  | (s, true) =>
  let s := s.wr .fwmPendVersion 0
  let (lv, lk, ld) := match s.fw.lib with | some c => (c.version, c.kernels, c.digest) | none => (Config.libVersion, Config.libKernels, Config.libDigest)
  (((s.wr .cmpLibVersion (BitVec.ofNat 64 lv)).wr .cmpLibKernels (BitVec.ofNat 64 lk.toNat)).putDigest .cmpLibDigest ld, true)

/-- The running bank's security version becomes the lowest accepted, after the first start that reaches PHASE 6 (R598). -/
def State.raiseSecurity (s : State) : State :=
  if !s.fw.fresh then s else
  let v := (s.bank s.fw.active).2.1
  let s := { s with fw := { s.fw with fresh := false } }
  if (s.rd .fwmSecVersion).toNat < v then s.wr .fwmSecVersion (BitVec.ofNat 64 v) else s

/-! Choosing the image (R48, R49). -/

/-- A candidate's bytes as a source. -/
def copyByte (b : ImgBytes) (i : Nat) : Byte := b.getD i 0

/-- The boot areas of carriers that came or went since the module last looked: an absent carrier's is out of reach, a new one brings its own (R51; log 78). -/
def State.seatBoot (s : State) (present : BitVec 4) : State :=
  (List.range 4).foldl (fun (s : State) b =>
    let was := s.rdB .carBSlotStatus 0 b
    if !present.getLsbD b then { s with img := { s.img with boot := s.img.boot.set b none } }
    else if was then s
    else { s with img := { s.img with boot := s.img.boot.set b (Config.bootArea s.free) }, free := s.free + 1 }) s

/-- Try candidates in order: (STR_SOURCE code, copy). Each that fails raises an event record (R48) and stands in STR_REJECT, as a failed load does (DEDUCED, log 76). Answers the state, how many failed, and the first valid one. -/
def State.tryImages (s : State) : List (Nat × Option ImgBytes) → State × Nat × Option (Nat × ImgBytes × Image)
  | [] => (s, 0, none)
  | (_, none) :: t => s.tryImages t
  | (c, some b) :: t =>
    match s.validate (copyByte b) false with
    | .ok i => (s, 0, some (c, b, i))
    | .bad st k =>
      match ((s.wr .strReject (BitVec.ofNat 64 (k + 65536 * st))).raise { reg := .strReject, status := st, addr := c, value := k }).tryImages t with
      | (s, n, r) => (s, n + 1, r)

/-- The last-good image, when it is valid. -/
def State.lastGoodImage (s : State) : Option Image :=
  match s.img.lastGood with
  | none => none
  | some b => match s.validate (copyByte b) false with | .ok i => some i | .bad _ _ => none

/-- STR_STATUS and STR_PEND_SEQ after a choice (R84). -/
def State.statusFlags (s : State) (safe fallback : Bool) : State :=
  let s := ((s.wrB .strStatus 4 s.img.pendingCopy.isSome).wrB .strStatus 5 safe).wrB .strStatus 6 fallback
  let s := s.wrB .strStatus 7 s.img.minimal
  s.wr .strPendSeq (match s.img.pendingCopy with | none => 0 | some b => BitVec.ofNat 64 (imgSeq (copyByte b)))

/-- Put an image in force, the minimal one where there is none (R45, R48). -/
def State.applyOr (s : State) (i : Option Image) (source : Nat) (cold safe : Bool) : State :=
  let s := (s.wrB .strStatus 5 safe).applyImage (i.getD s.minimalImage) source cold safe
  { s with img := { s.img with minimal := i.isNone } }

/-- Safe mode or manufacturing mode (with its test access) is in force from this start on (R45, R46, R49). -/
def State.specialMode (s : State) (on test : Bool) : State := { s with start := { s.start with special := on, testAccess := test } }

/-- R48. -/
def State.chooseCold (s : State) : State :=
  let mode := s.rdF .strStraps 0 2
  let strap := s.rdF .strStraps 2 2
  if mode = 3 then ((s.specialMode true true).applyOr none 5 true false).statusFlags false false
  else if s.rdB .strStraps 10 then ((s.specialMode true false).applyOr s.lastGoodImage 6 true true).statusFlags true false
  else
    let extra : List (Nat × Option ImgBytes) := if strap = 0 then (List.range 4).map (fun b => (16 * b, (s.img.boot.getD b none))) else if strap = 1 then [(1, s.img.slotA), (2, s.img.slotB)] else []
    match s.tryImages ([(3, s.img.pendingCopy)] ++ extra ++ [(4, s.img.lastGood)]) with
    | (s, fails, r) =>
      let s := { s with img := { s.img with pendingCopy := none } }.specialMode false false
      match (if strap = 3 then none else r) with
      | none => (s.applyOr none 5 true false).statusFlags false (decide (0 < fails))
      | some (c, b, i) => ({ s with img := { s.img with lastGood := some b } }.applyOr (some i) c true false).statusFlags false (decide (0 < fails))

/-- R49. `source` and `fallback` are STR_SOURCE and FALLBACK before the reset. Where safe or manufacturing mode is left without a valid last-good image, the minimal image is applied (DESIGN CHOICE, log 77). -/
def State.chooseWarm (s : State) (source : Nat) (fallback : Bool) : State :=
  if s.rdF .strStraps 0 2 = 3 then ((s.specialMode true true).applyOr none 5 false false).statusFlags false fallback
  else if s.rdB .strStraps 10 then
    let l := (s.lastGoodImage.getD s.minimalImage).records
    let s := ((s.specialMode true false).wrB .strStatus 5 true).takeParts l true
    (s.install (s.img.inForce.getD s.minimalImage) 6 false true).statusFlags true fallback
  else
    match s.tryImages [(3, s.img.pendingCopy)] with
    | (s, _, some (_, b, i)) =>
      (({ s with img := { s.img with lastGood := some b, pendingCopy := none } }.specialMode false false).applyOr (some i) 3 false false).statusFlags false fallback
    | (s, _, none) =>
      if s.start.special then
        let i := s.lastGoodImage
        ((s.specialMode false false).applyOr i (if i.isSome then 4 else 5) false false).statusFlags false fallback
      else (s.install (s.img.inForce.getD s.minimalImage) source false false).statusFlags false fallback

/-! Ports, memories, carriers (R93 to R95, R282, R284 to R286, R311, R320, R615). -/

/-- PORTS_READY (R93 step 5, R94, R615). -/
def State.openPorts (s : State) (env : StartEnv) : State :=
  let s := s.setB .strStartState 4
  let s := (List.range 8).foldl (fun (s : State) p => if env.refclkAbsent.getLsbD p then s.raise { reg := .lnkEvent, link := some (4 * p), addr := p } else s) s
  let s := (List.range 32).foldl (fun (s : State) k => s.startTraining k) s
  if !s.mir.barred && (s.rdF .strStraps 0 2 == 1 || s.rdF .strStraps 0 2 == 2) then s.wr .mirStatus 5 else s

/-- The controllers: channels 0 to 33, then 64 + stack. -/
def allCtrls : List Nat := List.range 34 ++ (List.range 8).map (64 + ·)
/-- A controller's training register. -/
def trainReg (c : Nat) : RegName × Nat := if 64 ≤ c then (.hbcSTrain, c - 64) else (.lpcCTrain, c)

/-- Byte lanes of a controller: 8 of a channel's devices, 256 of a stack's (DESIGN CHOICE, log 81). -/
def laneCount (c : Nat) : Nat := if 64 ≤ c then 256 else 8

/-- The sweep of a lane (R285); `weak` lists the sides with an eye narrower than 12 taps. -/
def sweepLane (v lane : Nat) (weak : List (Nat × Bool)) : LaneSt :=
  let r := sweepSide v lane false (weak.contains (lane, false))
  let w := sweepSide v lane true (weak.contains (lane, true))
  ⟨r.1, r.2, w.1, w.2, 0, 0⟩

/-- Put a controller's training results in force, with its register: the narrowest eyes, and the lane of the narrowest (R285, R296). -/
def State.putTraining (s : State) (c : Nat) (lanes : List LaneSt) (saved : Bool) : State :=
  let (n, i) := trainReg c
  let least (l : List Nat) : Nat := l.foldl min 255
  let r := least (lanes.map (·.readEye))
  let w := least (lanes.map (·.writeEye))
  let at_ := (lanes.findIdx? (fun x => min x.readEye x.writeEye == min r w)).getD 0
  let s := { s with dram := { s.dram with lanes := Store.set [] c lanes s.dram.lanes } }
  s.wr n (BitVec.ofNat 64 (r % 256 + 256 * (w % 256) + 65536 * at_ + (if saved then 2 ^ 24 else 0))) i

/-- A controller is swept, and its results are saved (R285, R286). A lane with a narrow eye is marginal. -/
def State.sweepCtrl (s : State) (c : Nat) (weak : List (Nat × Bool)) : State :=
  let (v, s) := s.nextFree
  let lanes := (List.range (laneCount c)).map (fun i => sweepLane v i weak)
  let s := (s.putTraining c lanes false).saveLanes c
  ((List.range (laneCount c)).filter (fun i => weak.contains (i, false) || weak.contains (i, true))).foldl (fun (s : State) i =>
    s.event { reg := if 64 ≤ c then .hbcEvent else .lpcEvent, bit := 4, addr := (trainReg c).2, value := i }) s

/-- A controller is trained: from its saved results where they hold, else by a sweep (R286). -/
def State.trainOne (s : State) (c : Nat) (reuse : Bool) (weak : List (Nat × Bool)) : State :=
  match (if reuse then Store.get none c s.dram.saved else none) with
  | some t => s.putTraining c t.lanes true
  | none => s.sweepCtrl c weak

/-- The narrow eyes of one controller among those of a start or an exit: lane, and whether the write side. -/
def weakOf (marginal : List (Nat × Nat × Bool)) (c : Nat) : List (Nat × Bool) := marginal.filterMap (fun x => if x.1 = c then some x.2 else none)

/-- Channels that a spare has replaced for good stay out of service, the spare in their place (R282). -/
def State.recallSpares (s : State) : State :=
  (List.range 2).foldl (fun (s : State) h =>
    if !s.rdB .lpcSpare (8 * h + 6) then s else
    let c := s.rdF .lpcSpare (8 * h) 6
    let sp := 17 * h + 16
    (((s.wrF .lpcCState 0 3 2 c).wrF .lpcCState 0 3 0 sp).wrF .lpcCState 4 3 (s.rdF .lpcCState 4 3 c) sp).wrF .lpcCState 8 2 (s.rdF .lpcCState 8 2 c) sp) s

/-- A channel fails training at a cold start: its hub's unused spare replaces it without a rebuild (R282); with none, its group is DEGRADED. -/
def State.coldReplace (s : State) (c : Nat) (fails : List Nat) : State :=
  let h := c / 17
  let sp := 17 * h + 16
  if s.rdF .lpcCState 0 3 c ≠ 0 ∧ c ≠ sp then s else
  if c = sp ∨ s.rdB .lpcSpare (8 * h + 6) then s.channelOut c 4
  else if fails.contains sp then (s.channelOut sp 4).channelOut c 4 else
  let s := ((s.wrF .lpcCState 0 3 4 c).wrF .lpcSpare (8 * h) 6 c).wrB .lpcSpare (8 * h + 6) true
  let s := ((s.wrF .lpcCState 0 3 0 sp).wrF .lpcCState 4 3 (s.rdF .lpcCState 4 3 c) sp).wrF .lpcCState 8 2 (s.rdF .lpcCState 8 2 c) sp
  s.event { reg := .lpcEvent, bit := 0, addr := c, value := s.rdF .lpcCState 8 2 c }

/-- Training of a start (R93 step 6, R99 step 7, R285, R286). -/
def State.trainAll (s : State) (env : StartEnv) (cold : Bool) : State :=
  let s := if cold then s.recallSpares else s
  let useSaved (s : State) (c : Nat) : Bool := !cold && (Store.get none c s.dram.saved).isSome && !env.resweep.contains c
  let s := s.wrB .strStartState 5 (allCtrls.any (fun c => useSaved s c))
  let failed (c : Nat) : Bool := if 64 ≤ c then env.hbmFail.contains (c - 64) else env.lpFail.contains c
  allCtrls.foldl (fun (s : State) c =>
    if failed c then
      let s := { s with dram := { s.dram with saved := Store.set none c none s.dram.saved } }
      if 64 ≤ c then s.stackDown (c - 64) 2 else if cold then s.coldReplace c env.lpFail else s.channelOut c 4
    else s.trainOne c (useSaved s c) (weakOf env.marginal c)) s

/-- Carriers at a start: one that was IN_SERVICE, EVACUATING or WORN rejoins, any other present one is adopted as blank (R311, R320). -/
def State.mountCarriers (s : State) (present : BitVec 4) : State :=
  let s := (List.range 4).foldl (fun (s : State) b =>
    let st := s.bayState b
    if present.getLsbD b then
      let s := ((s.wrB .carBSlotStatus 0 true b).wrB .carBSlotStatus 1 true b).setInd b 1
      if (s.bay b).rejoin && [3, 4, 5].contains st then s.trainFlash b (fun _ => false)
      else (s.setBayState b 2).adoptOne b (fun _ => false)
    else
      let s := ((s.wr .carBSlotStatus 0 b).setInd b 0).setBay b { s.bay b with rejoin := false }
      if [3, 4, 5, 7].contains st then s.membersLost b else s) s
  s.arrayUpdate

/-- The FTL's own tables have a module metadata key from the first start on (R322; DESIGN CHOICE, log 83). -/
def State.metaKey (s : State) : State :=
  if s.flash.metaKey.isSome then s else let (k, s) := s.freshKey; { s with flash := { s.flash with metaKey := some k } }

/-! Start sequences (R93, R97, R98, R101, R104). -/

/-- Set STR_RESET_CAUSE and end what the last reset handed on (R101, R104). -/
def State.setCause (s : State) (cause : Nat) : State :=
  let c := cause + (if s.start.clean then 16 else 0) + (if s.start.flushed then 32 else 0)
  { s.wr .strResetCause (BitVec.ofNat 64 c) with start := { special := s.start.special, testAccess := s.start.testAccess } }

/-- Restore a durable partition (R97, R98). `clean`: the trailer checks are skipped (R101). -/
def State.restorePart (s : State) (p : Nat) (clean : Bool) : State :=
  let j := (Store.get none p s.flash.journals).getD ⟨false, [], [], 0⟩
  let s := j.frames.foldl (fun (s : State) x => s.setFrame p x.1 x.2) s
  let s := { s with flash := { s.flash with journals := Store.set none p none s.flash.journals } }
  let s := if j.complete || clean then s else
    let lost : PageSt := { codec := 7 }
    let s := j.unfinished.foldl (fun (s : State) f => (s.setFrame p f { state := .homed, home := 2, pages := List.replicate 16 lost, stamp := s.epoch16 }).addPoison p (f * 65536) 65536) s
    s.event { reg := .strRestoreFail, bit := p, part := some p }
  (s.trim p (s.apparent p)).1.setMemActive p true

/-- Pool content that a cold reset leaves: the durable partitions' restored frames (R88, R98), and what journals still hold of partitions that are out of service (R45). -/
def State.keepRestored (s : State) : State :=
  { s with pool := s.pool.filter (fun c =>
      let p := c.1 / 2 ^ 47
      let f := c.1 % 2 ^ 47 / 65536
      let e : FrameSt := match Store.get none p s.flash.journals with | some j => Store.get { : FrameSt } f j.frames | none => s.frame p f
      e.hasRun && (e.page (c.1 % 65536 / 4096)).codec != 7) }

/-- The shadow window shows index 0 of its owner once that partition's memory is up (R178, R182). -/
def State.openWindow (s : State) : State := match s.shwOwner with | some p => if s.memActive p then s.shwOpen p else s | none => s

/-- A power-state request that came while the module started, with no transition to wait for (R102). -/
def State.pendingTarget (s : State) : Option Nat :=
  let ph := s.rdF .strStartState 0 4
  if 1 ≤ ph ∧ ph ≤ 5 ∧ s.rdB .pwrState 6 then some (s.rdF .pwrState 4 2) else none
/-- It stays the pending target of the start. -/
def State.putPending (s : State) (t : Option Nat) : State := match t with | none => s | some t => (s.wrF .pwrState 4 2 t).wrB .pwrState 6 true

/-- A pending power-state request is taken up once the module runs (R102, R549). -/
def State.takePending (s : State) : State :=
  if !s.rdB .pwrState 6 || s.rdB .pwrState 7 then s else
  let req := s.rdF .pwrState 4 2
  let s := s.wrB .pwrState 6 false
  if req = s.rdF .pwrState 0 2 then s else s.pwrRequest req

/-- The last step of a start: PHASE 6. -/
def State.running (s : State) : State := ((s.wrF .strStartState 0 4 6).raiseSecurity).takePending

/-- A cold start from its origin to PHASE 6 (R93). -/
def State.coldStart (s : State) (env : StartEnv) : State :=
  let cause := s.start.cause
  let clean := s.start.clean
  let hadKey := s.flash.keyed
  let pend := s.pendingTarget
  let s := (s.afterReset true).wrB .hupStatus 3 true
  let s := s.putPending pend
  let s := (List.range 16).foldl (fun (s : State) p => (s.wrF .carPKey 16 16 0 p).wrB .carPKey 2 false p) s
  let s := (s.sampleStraps env.samples).wrF .strStartState 0 4 1
  match s.bootFirmware env with
  | (s, false) => s
  | (s, true) =>
    let s := (((s.wrF .strStartState 0 4 2).seatBoot env.bayPresent).chooseCold).setCause cause
    let s := s.openPorts env
    let s := (s.wrF .strStartState 0 4 3).trainAll env true
    let s := ((s.wrF .strStartState 0 4 4).mountCarriers env.bayPresent).metaKey
    let plain := s.partsOn.filter (fun p => !s.durable p)
    let s := plain.foldl (fun (s : State) p => (if hadKey.contains p then s.newKey p else s).setMemActive p true) s
    let s := s.wrF .strStartState 0 4 5
    let s := (s.partsOn.filter (fun p => s.durable p)).foldl (fun (s : State) p => s.restorePart p clean) s
    s.keepRestored.openWindow.running

/-- The module, its logic reset with memories in self-refresh, starts warm (R99 steps 5 to 7). -/
def State.warmStart (s : State) (env : StartEnv) (cause : Nat) : State :=
  let source := (s.rd .strSource).toNat
  let fallback := s.rdB .strStatus 6
  let s := (s.afterReset false).sampleStraps env.samples
  match (s.wrF .strStartState 0 4 1).bootFirmware env with
  | (s, false) => s
  | (s, true) =>
    let s := ((s.wrF .strStartState 0 4 2).chooseWarm source fallback).setCause cause
    let s := (s.openPorts env).trainAll env false
    let s := s.mountCarriers env.bayPresent
    (s.partsOn.foldl (fun (s : State) p => s.setMemActive p true) s).openWindow.running

/-- The surroundings of a start that a command without its own description runs: the pins are sampled anew (R42, R49), so that what they and the parts show is a free value; the carriers are those that stand in the bays (log 42). -/
def State.calmEnv (s : State) : StartEnv × State :=
  ({ Config.startEnv s.free with bayPresent := BitVec.ofNat 4 ((List.range 4).foldl (fun a b => a + (if s.rdB .carBSlotStatus 0 b then 2 ^ b else 0)) 0) }, { s with free := s.free + 1 })

/-! The commands. -/

/-- Start of a cold reset: the logic is held in reset (R88, R90). -/
def State.coldReset (s : State) (cause : Nat) : State :=
  let s := s.afterReset true
  { s with start := { s.start with cause := cause, held := true, coldAfter := false, coldEnv := none } }

/-- The cold reset that a flush or shutdown was to be followed by (R102, R584). -/
def State.coldFollows (s : State) : State :=
  match s.start.coldEnv with
  | some env => (s.coldReset 1).coldStart env
  | none => s.coldReset 1

/-- MOD_RST_ASSERT (R90, R102): durable partitions in service are flushed first. -/
def execModRstAssert (ns : Nat) (s : State) : Res :=
  .next (if ns ≤ 1000 then s
    else if s.handover || s.rdF .strStartState 0 4 == 7 then { s with start := { s.start with coldAfter := true, coldEnv := none } }
    else if s.rdF .strStartState 0 4 = 6 ∧ !s.flushOrder.isEmpty then
      let s := s.stopModule.flushDurable none
      { s with start := { s.start with clean := s.journalsWhole, flushed := true } }.coldReset 1
    else s.coldReset (if s.rdF .strStartState 0 4 = 8 ∧ s.start.cause = 4 then 4 else 1))

/-- MOD_RST_DEASSERT (R93): the cold start of a module that is held in reset, off, or has never started. -/
def execModRstDeassert (env : StartEnv) (s : State) : Res :=
  .next (if s.start.coldAfter then { s with start := { s.start with coldEnv := some env } }
    else if s.start.held || [0, 8].contains (s.rdF .strStartState 0 4) then s.coldStart env else s)

/-- A warm reset (R99). -/
def State.warmReset (s : State) (env : StartEnv) (cause : Nat) : State := s.stopModule.warmStart env cause

/-- STR_RESET_CTRL.WARM written (R99, R102, R106). -/
def State.warmCmd (s : State) (env : StartEnv) : State :=
  if s.rdF .strStartState 0 4 ≠ 6 ∨ s.handover then s
  else if s.img.loading then (if s.img.heldReset.isSome then s else { s.setB .strResetCtrl 0 with img := { s.img with heldReset := some (some env) } })
  else s.warmReset env 2
/-- A warm reset that no command describes the surroundings of. -/
def State.warmAnew (s : State) (cause : Nat) : State := let (env, s) := s.calmEnv; s.warmReset env cause
/-- A cold start that no command describes the surroundings of. -/
def State.coldAnew (s : State) : State := let (env, s) := s.calmEnv; s.coldStart env
/-- STR_RESET_CTRL.WARM written. -/
def State.warmWrite (s : State) : State := let (env, s) := s.calmEnv; s.warmCmd env
/-- WARM_RESET (R99). -/
def execWarmReset (env : StartEnv) (s : State) : Res := .next (s.warmCmd env)

/-- STR_RESET_CTRL.SHUTDOWN written (R100, R102, R106). A warm reset that is under way becomes a shutdown. -/
def State.shutdownCmd (s : State) : State :=
  if s.rdF .strStartState 0 4 = 7 ∧ s.rdB .strResetCtrl 0 ∧ !s.handover then (s.clrB .strResetCtrl 0).setB .strResetCtrl 1
  else if s.rdF .strStartState 0 4 ≠ 6 ∨ s.handover then s
  else if s.img.loading then { s.setB .strResetCtrl 1 with img := { s.img with heldReset := some none } }
  else s.stopModule.setB .strResetCtrl 1
/-- SHUTDOWN (R100). -/
def execShutdown (s : State) : Res := .next s.shutdownCmd

/-- SHUTDOWN_COMPLETE (R100, R101): the durable flush has ended; memories and carriers go down. -/
def execShutdownComplete (s : State) : Res :=
  .next (if s.rdF .strStartState 0 4 ≠ 7 ∨ s.handover then s else
    let s := s.flushDurable none
    let s := { s with start := { s.start with cause := 0, clean := s.journalsWhole, flushed := true } }
    if s.start.coldAfter then s.coldFollows else
    let s := (List.range 4).foldl (fun (s : State) b => ((s.wrB .carBSlotStatus 1 false b).setInd b 0).channelsDown b) s
    (s.wrF .strStartState 0 4 8).clrB .strResetCtrl 1)

/-! Loading an image in service (R71 to R74, R78, R84 to R86). -/

/-- STAGING_WRITE (R71): bytes stored at an offset of the staging window; discarded while a load runs. -/
def State.stageWrite (s : State) (off size val : Nat) : State :=
  if s.img.loading then s else
  { s with img := { s.img with staging := (List.range size).foldl (fun t i =>
      if off + i < 2 ^ 19 then Store.set none (off + i) (some (BitVec.ofNat 8 (val / 256 ^ i))) t else t) s.img.staging } }
/-- STAGING_WRITE (R71): 4 bytes, aligned (R10); no 64-bit register stands in the staging window. -/
def execStagingWrite (off size val : Nat) (s : State) : Res :=
  .next (if size = 4 ∧ off % 4 = 0 ∧ off + size ≤ 2 ^ 19 then s.stageWrite off size val else s.send (.unsupported .mgmt (0x80000 + off)))

/-- STR_LOAD_CTRL.START written 1 (R71, R72). -/
def State.loadStart (s : State) : State :=
  if s.img.loading then s.setB .strStatus 3 else
  { (s.setB .strStatus 0).setB .strLoadCtrl 0 with img := { s.img with loading := true, spoiled := false } }
/-- IMAGE_LOAD_START (R71). -/
def execImageLoadStart (s : State) : Res := .next s.loadStart

/-- STR_LOAD_CTRL.CLEAR_PENDING written 1 (R73, R85). -/
def State.clearPend (s : State) : State :=
  if s.img.loading then s.setB .strStatus 3 else
  let s := { s with img := { s.img with pendingCopy := none } }
  (s.clrB .strStatus 4).wr .strPendSeq 0
/-- CLEAR_PENDING (R73). -/
def execClearPending (s : State) : Res := .next s.clearPend

/-- STR_KEY_REVOKE written (R58, R83): permanent in STR_KEY_STATE; the W1S bits are clear again when the revocation, one step, is done (R15; DEDUCED, log 90). -/
def State.revoke (s : State) (m : Nat) : State := s.wrF .strKeyState 8 4 (s.rdF .strKeyState 8 4 ||| m % 16)
/-- KEY_REVOKE (R58). -/
def execKeyRevoke (mask : BitVec 4) (s : State) : Res := .next (s.revoke mask.toNat)

/-- A load ends (R72, R74, R78 step 6, R102): BUSY and START clear, DONE sets; a held reset runs, then a pending power-state request is taken up. -/
def State.loadEnd (s : State) : State :=
  let held := s.img.heldReset
  let s := { ((s.clrB .strStatus 0).clrB .strLoadCtrl 0).setB .strStatus 1 with img := { s.img with loading := false, spoiled := false, heldReset := none } }
  match held with
  | some (some env) => (s.clrB .strResetCtrl 0).warmCmd env
  | some none => s.shutdownCmd
  | none => s.takePending

/-- A load is refused (R66, R67, R69, R86). -/
def State.loadRefused (s : State) (st k : Nat) : State :=
  let s := s.wr .strReject (BitVec.ofNat 64 (k + 65536 * st))
  (s.event { reg := .strStatus, bit := 2, status := st, value := k }).loadEnd

/-- IMAGE_LOAD_COMPLETE (R65, R73, R75, R78): validation ends. It waits for a power transition to end (R564) and for the processors that verify and sequence it (R591). -/
def execImageLoadComplete (s : State) : Res :=
  .next (if !s.img.loading || s.rdB .pwrState 7 || s.fpDown 0 then s else
    let g (i : Nat) : Byte := s.stageByte i
    match s.validate g true with
    | .bad st k => s.loadRefused st k
    | .ok i =>
      if i.kind = 0 then
        let s := { s with img := { s.img with pendingCopy := some (srcBytes g 0 (imgTotal g + 128)) } }
        (((s.setB .strStatus 4).wr .strPendSeq (BitVec.ofNat 64 i.sequence)).tellSkipped i.records).loadEnd
      else
        let p := i.target
        if s.fpDown 5 || s.fpDown 9 then s
        else if s.img.spoiled || !(s.rdB .prtState 2 p || s.quarantined p) then s.loadRefused stBusy 0xFFFD
        else
          let s := (s.applyReload p i).wr .strPartSeq (BitVec.ofNat 64 i.sequence) p
          let s := { s with img := { s.img with reloads := if s.img.reloads.contains p then s.img.reloads else s.img.reloads ++ [p] } }
          ((s.raise { reg := .strStatus, bit := 1, part := some p, value := i.sequence }).tellSkipped i.records).loadEnd)

end Sys2Proof.Machine
end

