-- ==== Sys2Proof/Machine/Qos.lean ====
section
/-! DEFINITION. Regulation over time: measurement windows, background rate, aging, urgency pins (15 R496 to R520). -/

namespace Sys2Proof.Machine

/-- A class missed a guarantee (R516): kind 0 latency, 1 bandwidth. Interrupt and record go by the rate of R626, with the class as key. -/
def State.qosMiss (s : State) (p c kind value top : Nat) : State :=
  let v := min value (2 ^ 32 - 1)
  let s := (s.incErr .qosPMisses p).wr .qosPMissLast (BitVec.ofNat 64 (c + 4 * kind + 16 * (top % 64) + 2 ^ 32 * v)) p
  let s := (s.setB .qosPEvent kind p).setB .qosEvent 4
  let s := { s with qos := { s.qos with missAt := Store.set none p (some s.time) s.qos.missAt } }
  s.raiseGathered gkMiss (4 * p + c) { reg := .qosPEvent, bit := kind, part := some p, value := v, args := [c, kind, top] } (some (p, (s.qosRec p).missVec))

/-- One class's measured window (R514, R515): the largest latency shows in QOS_P_LAT_MAX, and each guarantee that was missed is reported. -/
def State.qosWindow (s : State) (p c : Nat) (x : QosSample) : State :=
  let lat := min x.latNs (2 ^ 20 - 1)
  let s := if (s.rd .qosPLatMax p c).toNat < lat then s.wr .qosPLatMax (BitVec.ofNat 64 lat) p c else s
  let k := s.classRec p c
  if !k.guaranteed then s else
  let s := if k.latNs ≠ 0 ∧ k.latNs < x.latNs then s.qosMiss p c 0 x.latNs x.top else s
  if k.floor ≠ 0 ∧ x.waited ∧ x.gbps < k.floor then s.qosMiss p c 1 x.gbps x.top else s

/-- The end of a partition's measurement window: the next multiple of 100 µs of module time that no window of it has ended at (R514). -/
def State.windowEnd (s : State) (p : Nat) : State :=
  let s := s.reach (max ((s.time + 99999) / 100000 * 100000) (Store.get 0 p s.qos.windowAt + 100000))
  { s with qos := { s.qos with windowAt := Store.set 0 p (s.time / 100000 * 100000) s.qos.windowAt } }

/-- QOS_WINDOW_END (R514 to R516): one sample per class of the partition, in class order. -/
def execQosWindowEnd (p : PartId) (samples : List QosSample) (s : State) : Res :=
  .next ((samples.take (s.qosRec p).classes.length).zipIdx.foldl (fun (s : State) x => s.qosWindow p x.2 x.1) (s.windowEnd p))

/-- Allowed background rate in GB/s for an occupancy in percent (R512); a linear value that is no whole number is taken down (log 50). -/
def bgRate (reserve busy : Nat) : Nat :=
  if busy ≤ 25 then 96 else if 75 ≤ busy then reserve else 96 - ((96 - reserve) * (busy - 25) + 49) / 50

/-- BG_RATE_SAMPLE (R512): the highest occupancy among each hub's controllers, in percent, once per 1 µs. -/
def execBgRateSample (busy0 busy1 : Nat) (s : State) : Res :=
  let r := s.rdF .qosMigReserve 0 7
  let s := s.reach (s.qos.bgAt + 1000)
  .next (({ s with qos := { s.qos with bgAt := s.time } } : State).wr .qosBgRate (BitVec.ofNat 64 (bgRate r busy0 + 65536 * bgRate r busy1)))

/-- REQUEST_AGE_EXPIRY (R499, R500): a request that has waited QOS_AGE_US takes level 4 where its own is lower. -/
def execRequestAgeExpiry (link : LinkId) (tag : Nat) (s : State) : Res :=
  let age := s.rdF .qosAgeUs 0 8 * 1000
  let hitR (r : HeldRead) : Bool := r.link == link.val && r.tag == tag
  let hitW (r : HeldWrite) : Bool := r.link == link.val && r.tag == tag
  match ((s.tier.heldR.filter hitR).map (fun (r : HeldRead) => r.at_) ++ (s.lens.heldW.filter hitW).map (fun (r : HeldWrite) => r.at_)).head? with
  | none => .next s
  | some t =>
    let heldR := mapIf hitR (fun (r : HeldRead) => { r with level := max r.level 4 }) s.tier.heldR
    let heldW := mapIf hitW (fun (r : HeldWrite) => { r with level := max r.level 4 }) s.lens.heldW
    let s := s.reach (t + age)
    .next { s with tier := { s.tier with heldR := heldR }, lens := { s.lens with heldW := heldW } }

/-- Note when a pin was asserted. -/
def State.pinSince (s : State) (n : Nat) (t : Option Nat) : State := { s with qos := { s.qos with pinAt := s.qos.pinAt.set n t } }

/-- URG_PIN_CHANGE (R511): the pin's filtered level, asserted or not. A pin that deasserts is no longer stuck. -/
def execUrgPinChange (pin : Fin 4) (asserted : Bool) (s : State) : Res :=
  .next (if asserted then (if s.rdB .qosUrgPins pin then s else (s.setB .qosUrgPins pin).pinSince pin (some s.time))
    else ((s.clrB .qosUrgPins pin).clrB .qosUrgPins (4 + pin)).pinSince pin none)

/-- URG_PIN_STUCK (R511): a pin has been held asserted for longer than 10 ms. -/
def execUrgPinStuck (pin : Fin 4) (s : State) : Res :=
  .next (if !s.rdB .qosUrgPins pin || s.rdB .qosUrgPins (4 + pin) then s else
    let s := s.reach ((s.qos.pinAt.getD pin none).getD s.time + 10000000)
    (s.setB .qosUrgPins (4 + pin)).event { reg := .qosEvent, bit := pin, value := pin })

end Sys2Proof.Machine
end

