-- ==== Sys2Proof/Machine/Mirror.lean ====
section
/-! DEFINITION. Mirrored pairs: the Reflect link, epochs, partner loss, promotion, switchover, rebuild (16 R521 to R543). -/

namespace Sys2Proof.Machine

/-! Settings and registers (R522, R523, R542, R543). -/

/-- A partition's entry of the MIRROR record in force (R523). -/
def State.mirEntry (s : State) (p : Nat) : MirrorEntry := ((mirrorIn s.records).bind (fun m => m.entries[p]?)).getD ⟨0, false, false, 100⟩
/-- T in ns (R523, R535). -/
def State.mirT (s : State) : Nat := match mirrorIn s.records with | none => 1000000 | some m => (if m.timeoutUs = 0 then 1000 else m.timeoutUs) * 1000
/-- EPOCH_US in ns (R523). -/
def State.epochNs (s : State) (p : Nat) : Nat := (if (s.mirEntry p).epochUs = 0 then 100 else (s.mirEntry p).epochUs) * 1000
/-- Asynchronous mode. -/
def State.mirAsync (s : State) (p : Nat) : Bool := s.rdB .mirPState 8 p
/-- A mirror link is in service (R543). -/
def State.reflectUp (s : State) (m : Nat) : Bool := s.rdF .mirStatus (2 * m) 2 == 3
/-- Some mirror link is in service. -/
def State.anyReflect (s : State) : Bool := s.reflectUp 0 || s.reflectUp 1
/-- Enter a state (R543). -/
def State.setMirState (s : State) (p v : Nat) : State := s.wrF .mirPState 4 4 v p
/-- The secondary holds a complete copy. -/
def State.hasCopy (s : State) (p : Nat) : Bool := s.rdB .mirPState 9 p
/-- Role and generation, in force and in the health record (R522). -/
def State.setPair (s : State) (p role gen : Nat) : State :=
  let s := (s.wrF .mirPState 0 2 role p).wr .mirPGeneration (BitVec.ofNat 64 gen) p
  { s with mir := { s.mir with pairs := Store.set none p (some { role := role, generation := gen % 2 ^ 64, partner := s.rd .mirPartnerId }) s.mir.pairs } }
/-- Pair generation. -/
def State.mirGen (s : State) (p : Nat) : Nat := (s.rd .mirPGeneration p).toNat
/-- The epoch registers, each the lower of the two sub-streams (R542). -/
def State.epochRegs (s : State) (p : Nat) : State :=
  let m := s.mirPart p
  let low (l : List Nat) : Word := BitVec.ofNat 64 (min (l.getD 0 0) (l.getD 1 0))
  ((s.wr .mirPEpochSent (low m.sent) p).wr .mirPEpochAcked (low m.acked) p).wr .mirPEpochApplied (low m.applied) p
/-- A command of MIR_P_CTRL is refused: its bit clears, and its status is in the event record (R543). -/
def State.mirRefuse (s : State) (p b st : Nat) : State := (s.wrB .mirPCtrl b false p).raise { reg := .mirPCtrl, bit := b, status := st, part := some p }
/-- The partition enters CONFLICT (R525, R526, R529). -/
def State.mirConflict (s : State) (p : Nat) : State := ((s.setMirState p 9).setB .mirPEvent 2 p).raise { reg := .mirPEvent, bit := 2, part := some p }
/-- The partition serves again after a fence, unless quarantine keeps it out. -/
def State.serveAgain (s : State) (p : Nat) : State := if s.memActive p || s.quarantined p || (s.part p).cfg.isNone then s else s.setMemActive p true

/-! Acknowledgements (R489, R534). -/

/-- What an acknowledgement of hub h's epoch releases; the hub's load goes with a completion (R133). A descriptor goes on when nothing of it is awaited any more. -/
def State.releaseAwait (s : State) (h : Nat) (a : Await) : State :=
  match a with
  | .hostWrite l d t rp => s.hostCmp l d t 1 (s.devLoad rp h)
  | .store _ _ _ _ _ => s
  | .sync (.core c) st v => if (s.core c).inSync then s.syncDone (.core c) st v else s
  | .sync (.desc q n) st v => s.syncDone (.desc q n) st v
  | .desc q n =>
    if s.mir.parts.any (fun e => e.2.awaiting.any (fun x => x.2.2 == Await.desc q n)) then s else
    match s.queueOwner q, s.desc q n with
    | some p, some d => if d.stage = 3 then s.setDesc q { d with stage := 0 } else if d.stage = 2 then s.descGone p q d else if d.stage = 1 then s.descFinish p q d else s
    | _, _ => s

/-- Release what waits in a partition's epochs that meet a test (hub, epoch), oldest first. -/
def State.releaseAwaits (s : State) (p : Nat) (f : Nat → Nat → Bool) : State :=
  let m := s.mirPart p
  let go := m.awaiting.filter (fun x => f x.1 x.2.1)
  let s := s.setMirPart p { m with awaiting := m.awaiting.filter (fun x => !f x.1 x.2.1) }
  go.foldl (fun (s : State) x => s.releaseAwait x.1 x.2.2) s

/-- Requests that a switchover held are released (R538). -/
def State.releaseHeld (s : State) (p : Nat) : State :=
  let m := s.mirPart p
  m.heldReq.foldl (fun (s : State) i => s.runHeld i) (s.setMirPart p { m with heldReq := [], switching := none, switchEpoch := none })

/-- State SOLO (R535, R539): nothing ships, and what waited completes unmirrored. -/
def State.enterSolo (s : State) (p : Nat) : State :=
  let m := s.mirPart p
  let s := s.setMirPart p { m with openRecs := [[], []], unacked := [], rebuildPtr := none, snapEpoch := none }
  ((s.setMirState p 4).serveAgain p).releaseAwaits p (fun _ _ => true)

/-! The primary's stream (R528, R531, R533, R534, R540). -/

/-- Close the epoch of one sub-stream and send it (R531). -/
def State.closeEpoch (s : State) (p h : Nat) : State :=
  let m := s.mirPart p
  let n := m.sent.getD h 0 + 1
  let back := m.unacked ++ [(h, n, s.mirState p == 2, m.openRecs.getD h [])]
  let s := s.setMirPart p { m with openRecs := m.openRecs.set h [], sent := m.sent.set h n, closedAt := m.closedAt.set h s.time, unacked := back }
  (s.send (.reflect p h n (s.mirGen p) (s.mirAsync p) (s.mirState p == 2) (m.openRecs.getD h []))).epochRegs p
/-- Close both sub-streams' epochs. -/
def State.closeBoth (s : State) (p : Nat) : State := (s.closeEpoch p 0).closeEpoch p 1

/-- What a rebuild sends of a frame (R540). -/
def State.frameRecs (s : State) (p f : Nat) : List MirRec :=
  let e := s.frame p f
  let lost := (List.range 16).filter (fun k => (e.page k).codec == 7)
  let add := ((s.part p).poison.filter (fun x => x.addr / 65536 == f)).map (fun x => (x.addr, x.len))
  let maps := if e.pin ≠ 0 ∨ !lost.isEmpty ∨ !add.isEmpty then [MirRec.map f e.pin lost add [] false] else []
  let pages := (List.range 16).filterMap (fun k =>
    let g := e.page k
    let a := (16 * f + k) * 4096
    if e.state = .zero ∨ g.codec = 7 then none
    else if g.codec = 1 then some (MirRec.zero a 0)
    else if g.codec = 6 then some (MirRec.zero a e.pattern)
    else some (MirRec.page a g.codec g.param g.len g.gen g.poison (s.poolPage p (16 * f + k))))
  maps ++ pages

/-- The rebuild pointer passes the next `n` frames (R540). -/
def State.rebuildMove (s : State) (p n : Nat) : State :=
  match (s.mirPart p).rebuildPtr with
  | none => s
  | some ptr =>
    let l := (((s.framesOf p).filter (fun x => decide (ptr ≤ x.1) && (x.2.state != .zero || x.2.pin != 0))).map (·.1)).take n
    let s := l.foldl (fun (s : State) f => (s.frameRecs p f).foldl (fun (s : State) r => s.shipRec p (hubOf f) r) s) s
    s.setMirPart p { s.mirPart p with rebuildPtr := some (l.foldl (fun a f => max a (f + 1)) ptr) }

/-- A primary starts the rebuild of its partner (R540): TABLE, then sync objects, then frames as epochs close. -/
def State.startRebuild (s : State) (p : Nat) : State :=
  let s := s.releaseAwaits p (fun _ _ => true)
  let s := (s.setMirPart p { rebuildPtr := some 0, closedAt := [s.time, s.time] }).setMirState p 2
  let s := ((s.serveAgain p).epochRegs p).shipTable p
  let objs := s.sync.keys.filter (fun k => s.syncOwner k == some p)
  (objs.foldl (fun (s : State) k => s.shipObj k) s).setPair p 1 (s.mirGen p)

/-- An epoch can close: the partition is a primary that ships, and a link is in service. -/
def State.mayClose (s : State) (p : Nat) : Bool := s.mirRole p == 1 && (s.mirState p == 2 || s.mirState p == 3) && s.anyReflect

/-- EPOCH_CLOSE (R533, R534, R540). In REBUILDING the pointer first passes frames; how many one epoch takes is a free value. -/
def execEpochClose (p : PartId) (h : HubId) (cause : EpochCause) (s : State) : Res :=
  .next (if !s.mayClose p then s else
    let m := s.mirPart p
    if s.mirState p = 2 then
      let (v, s) := s.nextFree
      let s := s.rebuildMove p (v % ((s.framesOf p).length + 1))
      if s.mirAsync p then s.closeBoth p else s.closeEpoch p h
    else if s.mirAsync p then
      match cause with
      | .period => (s.reach (m.closedAt.getD h 0 + s.epochNs p)).closeBoth p
      | .size | .snapshot => s.closeBoth p
      | .age | .count => s
    else
      match cause with
      | .age => if !(m.openRecs.getD h []).isEmpty || m.awaiting.any (fun x => x.1 == h.val && x.2.1 == s.openEpoch p h) then (s.reach (m.openAt.getD h 0 + 250)).closeEpoch p h else s
      | .count => if 256 ≤ (m.openRecs.getD h []).length then s.closeEpoch p h else s
      | .snapshot => s.closeEpoch p h
      | .period | .size => s)

/-- Lines of the open slots that have not been committed ship when a rebuild ends in synchronous mode, so that the copies are equal (R534, R540). -/
def State.shipSlots (s : State) (p : Nat) : State :=
  (s.lens.slots.filter (fun (x : SlotSt) => x.part == p && !x.corr)).foldl (fun (s : State) x =>
    (List.range 64).foldl (fun (s : State) l =>
      let be : BitVec 64 := x.written.extractLsb' (64 * l) 64
      if be = 0 then s else s.shipRec p x.hub (.line (x.page * 4096 + 64 * l) be (x.poison.getLsbD l) (pageLine x.data l))) s) s

/-- MIRROR_REBUILD_DONE (R540): the pointer passes the last frame, and the next epoch boundary brings the configured mode. -/
def execMirrorRebuildDone (p : PartId) (s : State) : Res :=
  .next (if s.mirRole p ≠ 1 ∨ s.mirState p ≠ 2 ∨ !s.anyReflect then s else
    let s := s.rebuildMove p (s.framesOf p).length
    let s := if s.mirAsync p then s else s.shipSlots p
    let s := s.closeBoth p
    ((s.setMirPart p { s.mirPart p with rebuildPtr := none }).setMirState p 3).setB .mirEvent 3)

/-! The secondary's side (R529, R532). -/

/-- The copy is discarded, and a rebuild is awaited or begins (R540, R541). -/
def State.beginCopy (s : State) (p : Nat) : State :=
  let s := (s.setMirState p 2).wrB .mirPState 9 false p
  let slots := (s.lens.slots.filter (fun (x : SlotSt) => x.part == p)).map (fun (x : SlotSt) => x.page / 16)
  let s := ((s.framesOf p).map (·.1) ++ slots).eraseDups.foldl (fun (s : State) f => s.clearFrame p f) s
  let s := (s.dropPoison p (fun _ => true)).resetObjs (fun k => s.syncOwner k == some p)
  (s.setMirPart p {}).epochRegs p

/-- A TABLE record (R529): the shipped records with this module's own bindings; CONFLICT where they fail validation. -/
def State.applyTable (s : State) (p : Nat) (part : PartRec) (lens : List LensRec) (comp : Nat) (qos : Option QosRec) (queues : List QueueShip) : State :=
  match (s.part p).cfg with
  | none => s.mirConflict p
  | some old =>
    let r : PartRec := { part with id := p, bindings := old.bindings }
    let d := s.part p
    let s := s.setMirPart p { s.mirPart p with queues := queues }
    if d.cfg = some r ∧ d.lens = lens ∧ d.comp = comp ∧ d.qos = qos then s else
    let recs : List ImgRec := [.part r] ++ lens.map .lens ++ [.comp p comp] ++ (match qos with | some q => [.qos q] | none => [])
    match s.crossReload p recs with
    | some _ => s.mirConflict p
    | none => s.applyReload p { kind := 1, target := p, sequence := 0, minFw := 0, records := recs, digest := 0 }

/-- Apply one record of sub-stream h (R528, R529); none where there is no room for it now. -/
def State.applyRec (s : State) (p h : Nat) : MirRec → Option State
  | .line addr be poison data =>
    let go (s : State) : State × WriteRes := s.slotWrite p (addr / 4096) (addr / 64 % 64) data be poison reqMirror 4
    match go s with
    | (s, .done) => some s
    | _ => match go (s.flushSlots (fun x => x.part == p)) with | (s, .done) => some s | _ => none
  | .page addr c par len gen po d =>
    let page := addr / 4096
    match (s.freeSlot p page).commitContent p page reqMirror (8 * h) d po (some (c, par, len, gen)) with
    | (s, true) => some (if po = 0 then s.cleanPoison p page else s)
    | _ => none
  | .zero addr v =>
    let page := addr / 4096
    match (s.freeSlot p page).commitContent p page reqMirror (8 * h) (patternPage v) 0 (some (1, 0, 0, 0)) with
    | (s, true) => some (s.cleanPoison p page)
    | _ => none
  | .map f pin lost add del clear =>
    if clear then
      let mine (g : Nat) : Bool := hubOf g == h && !s.grantedFrame p g
      let slots := (s.lens.slots.filter (fun (x : SlotSt) => x.part == p)).map (fun (x : SlotSt) => x.page / 16)
      let s := (((s.framesOf p).map (·.1) ++ slots).eraseDups.filter mine).foldl (fun (s : State) g => s.clearFrame p g) s
      some (s.dropPoison p (fun e => mine (e.addr / 65536)))
    else
      let e := s.frame p f
      let s := s.setFrame p f { e with pin := pin, pages := e.pages.mapIdx (fun k g => if lost.contains k then { codec := 7, allot := g.allot } else g) }
      let s := add.foldl (fun (s : State) x => s.addPoison p x.1 x.2) s
      some (del.foldl (fun (s : State) x => s.dropPoison p (fun e => e.addr == x.1 && e.len == x.2)) s)
  | .sync k v t l o sh => some (s.setObj k { s.obj k with value := BitVec.ofNat 64 v, target := t, lock := l, owner := o, share := sh })
  | .table part lens comp qos queues => some (s.applyTable p part lens comp qos queues)

/-- Apply one epoch; none where a record has no room now. -/
def State.applyEpoch (s : State) (p : Nat) (e : Epoch) : Option State :=
  match e.records.foldl (fun (o : Option State) r => o.bind (fun s => s.applyRec p e.hub r)) (some s) with
  | none => none
  | some s =>
    let m := s.mirPart p
    let left := m.recv.filter (fun x => !(x.hub == e.hub && x.number == e.number))
    let s := (s.setMirPart p { m with applied := m.applied.set e.hub e.number, closedAt := m.closedAt.set e.hub e.closedAt, recv := left }).epochRegs p
    some (if s.mirState p = 2 ∧ !e.rebuild then ((s.setMirState p 3).wrB .mirPState 9 true p).setB .mirEvent 3 else s)

/-- The received epoch that a sub-stream applies next. -/
def State.nextEpoch (s : State) (p h : Nat) : Option Epoch :=
  let m := s.mirPart p
  m.recv.find? (fun x => x.hub.val == h && x.number == m.applied.getD h 0 + 1)

/-- Apply the complete epochs in number order (R532): asynchronous epochs in pairs, synchronous ones each alone. `n` bounds the repetition. -/
def State.applyReady (s : State) (p : Nat) : Nat → State
  | 0 => s
  | n + 1 =>
    if s.mirState p = 9 then s else
    let one (s : State) (h : Nat) : Option State := match s.nextEpoch p h with | some e => if e.async then none else s.applyEpoch p e | none => none
    match s.nextEpoch p 0, s.nextEpoch p 1 with
    | some a, some b =>
      if a.async ∧ b.async then
        match (s.applyEpoch p a).bind (fun s => s.applyEpoch p b) with
        | some s => s.applyReady p n
        | none => s
      else match (one s 0).orElse (fun _ => one s 1) with
        | some s => s.applyReady p n
        | none => s
    | _, _ => match (one s 0).orElse (fun _ => one s 1) with
      | some s => s.applyReady p n
      | none => s

/-- A valid flit has arrived on the links in service. -/
def State.flitSeen (s : State) : State :=
  let now (m : Nat) (a b : Nat) : Nat := if s.reflectUp m then b else a
  let l := s.mir.lastFlit
  let r := s.mir.replays
  { s with mir := { s.mir with lastFlit := [now 0 (l.getD 0 0) s.time, now 1 (l.getD 1 0) s.time], replays := [now 0 (r.getD 0 0) 0, now 1 (r.getD 1 0) 0] } }

/-- EPOCH_RECEIVED (R532). The first epoch of a rebuild restarts the numbering, and the copy with it. -/
def execEpochReceived (e : Epoch) (s : State) : Res :=
  .next (
    let p := e.part.val
    let st := s.mirState p
    if s.mirRole p ≠ 2 ∨ st = 0 ∨ st = 7 ∨ !s.anyReflect then s else
    let s := s.flitSeen
    if !e.complete then s
    else if !e.crcOk then
      if st ≠ 2 ∧ st ≠ 3 then s else
      let s := (s.setB .mirPEvent 3 p).raise { reg := .mirPEvent, bit := 3, part := some p, value := e.number }
      let m := s.mirPart p
      if m.retried.contains (e.hub.val, e.number) then (s.beginCopy p).send (.reflectCtl e.hub 3 [p, e.hub, e.number])
      else (s.setMirPart p { m with retried := m.retried ++ [(e.hub.val, e.number)] }).send (.reflectCtl e.hub 2 [p, e.hub, e.number])
    else
      let restart := e.rebuild && e.number == 1 && (st != 2 || decide (1 ≤ (s.mirPart p).applied.getD e.hub 0))
      if !restart ∧ st ≠ 2 ∧ st ≠ 3 then s else
      let s := if restart then s.beginCopy p else s
      let m := s.mirPart p
      let old := decide (e.number ≤ m.applied.getD e.hub 0) || m.recv.any (fun x => x.hub == e.hub && x.number == e.number)
      let s := if old then s else s.setMirPart p { m with recv := m.recv ++ [e] }
      let s := s.send (.epochAck p e.hub e.number 0)
      s.applyReady p ((s.mirPart p).recv.length))

/-! Queues from the shipped state (R536, R538). -/

/-- A queue's registers as the partner shipped them. -/
def State.restoreQueue (s : State) (x : QueueShip) : State :=
  let s := (((s.wr .qdRingBase x.ringBase x.queue).wr .qdCtrl x.ctrl x.queue).wr .qdHead x.head x.queue).wr .qdTail x.tail x.queue
  (((s.wr .qdSeed x.seed x.queue).wr .qdLaunchNo x.launchNo x.queue).wrB .qdStatus 0 (x.ctrl.getLsbD 0) x.queue).setQueue x.queue {}

/-- Descriptors that the partner had fetched and not completed complete with RESET (R536 step 4); their interrupts go to the partition's first LD (log 52). -/
def State.resetFetched (s : State) (p : Nat) (x : QueueShip) : State :=
  let (l, d) := (s.ldsOf p).head?.getD (0, 0)
  (x.fetched.filter (fun f => !f.2)).foldl (fun (s : State) f =>
    match s.getBytes (reqComp p) p (s.slotAddr x.queue f.1) 64 with
    | (s, .ok raw) =>
      let y := s.queue x.queue
      let s := s.setQueue x.queue { y with descs := y.descs ++ [{ n := f.1, raw := raw, link := l, ld := d, started := true }] }
      (match s.desc x.queue f.1 with
      | some e => let s := s.endDesc x.queue e stReset 0
                  (match s.desc x.queue f.1 with | some e => s.descComplete p x.queue e | none => s)
      | none => s)
    | (s, _) => s) s

/-! Promotion (R536). -/

/-- R536, R537, from step 1 to step 5. -/
def State.promote (s : State) (p : Nat) : State :=
  let s := s.setMirState p 7
  let s := s.applyReady p ((s.mirPart p).recv.length)
  let m := s.mirPart p
  let s := (s.incErr .mirPDiscarded p ((m.recv.map (·.number)).eraseDups.length)).setMirPart p { m with recv := [] }
  let newest := max (m.closedAt.getD 0 0) (m.closedAt.getD 1 0)
  let window := min ((s.mir.lostAt.getD s.time - newest) / 1000) (2 ^ 32 - 1)
  let s := (s.setPair p 1 (s.mirGen p + 1)).releaseLocks p
  let s := m.queues.foldl (fun (s : State) x => s.restoreQueue x) s
  let s := m.queues.foldl (fun (s : State) x => s.resetFetched p x) s
  let s := ((s.setMirState p 4).wrB .mirPState 9 false p).serveAgain p
  let s := s.wr .mirPLossWindow (BitVec.ofNat 64 window) p
  s.event { reg := .mirPEvent, bit := 1, part := some p, value := s.mirGen p } p

/-- A write of 1 to PROMOTE (R535, R541, R543). -/
def State.promoteCmd (s : State) (p : Nat) : State :=
  if s.mirState p ≠ 6 ∨ !s.hasCopy p then s.mirRefuse p 0 stDenied else (s.promote p).wrB .mirPCtrl 0 false p
/-- PROMOTE (R536); it waits while a mirror processor is down (R591). -/
def execPromote (p : PartId) (s : State) : Res :=
  .next (if s.fpDown 10 || s.fpDown 11 then (s.wrB .mirPCtrl 0 true p).fpWait (.promote p) else s.promoteCmd p)

/-! Partner loss (R527, R535). -/

/-- What the loss of both links means for one partition, at the declaration (R535, R541). -/
def State.lossAt (s : State) (p : Nat) : State :=
  let st := s.mirState p
  if st ≠ 2 ∧ st ≠ 3 then s else
  if s.mirRole p = 1 then
    let s := if (s.mirPart p).switching.isSome then (s.mirRefuse p 2 stLinkLost).releaseHeld p else s
    if s.mirAsync p ∧ !(s.mirEntry p).takeover then s.enterSolo p else s
  else if st = 2 then ((s.beginCopy p).setMirState p 6)
  else
    let s := s.applyReady p ((s.mirPart p).recv.length)
    if s.mirState p = 9 then s else
    let m := s.mirPart p
    -- a complete epoch that has no room yet stays; an asynchronous one is complete with its counterpart
    let whole (x : Epoch) : Bool := !x.async || m.recv.any (fun y => y.hub != x.hub && y.number == x.number)
    let (v, s) := s.nextFree
    -- epochs that had arrived in part; how many is a free value
    let s := (s.incErr .mirPDiscarded p (((m.recv.filter (fun x => !whole x)).map (·.number)).eraseDups.length + v % 3)).setMirPart p { m with recv := m.recv.filter whole }
    s.setMirState p 6

/-- Both links are lost (R535). -/
def State.partnerLost (s : State) : State :=
  let s := ({ s with mir := { s.mir with lostAt := some s.time } }.setB .mirStatus 10).setB .mirEvent 2
  (List.range 16).foldl (fun (s : State) p => s.lossAt p) s

/-- A mirror link declares itself lost (R527): it retrains, and its unacknowledged flits are replayed on the other link; how many is a free value. -/
def State.loseReflect (s : State) (m : Nat) : State :=
  if !s.reflectUp m then s else
  let s := (s.wrF .mirStatus (2 * m) 2 1).wrF .mirStatus (4 + 3 * m) 3 0
  let s := (s.setB .mirEvent 1).incErr .mirLinkLosses
  let s := { s with mir := { s.mir with replays := s.mir.replays.set m 0 } }
  if s.reflectUp (1 - m) then let (v, s) := s.nextFree; s.incEvt .mirReplays 0 v else s.partnerLost

/-- REFLECT_FLIT_CRC_FAIL (R527): a replay; a flit that needs a fifth one loses the link. -/
def execReflectFlitCrcFail (m : Fin 2) (s : State) : Res :=
  .next (if !s.reflectUp m then s else
    let n := s.mir.replays.getD m 0 + 1
    if 5 ≤ n then s.loseReflect m
    else ({ s with mir := { s.mir with replays := s.mir.replays.set m n } }.incEvt .mirReplays).send (.reflectCtl m 1 []))

/-- REFLECT_KEEPALIVE (R527): an idle sender's keepalive. -/
def execReflectKeepalive (m : Fin 2) (s : State) : Res :=
  .next (if s.reflectUp m then
    let s := s.reach (s.mir.keptAt.getD m 0 + 1000)
    ({ s with mir := { s.mir with keptAt := s.mir.keptAt.set m s.time } } : State).send (.reflectCtl m 0 [])
  else s)

/-- REFLECT_LINK_TIMEOUT (R527): no valid flit for 8 µs. -/
def execReflectLinkTimeout (m : Fin 2) (s : State) : Res :=
  .next (if s.reflectUp m then (s.reach (s.mir.lastFlit.getD m 0 + 8000)).loseReflect m else s)

/-- MIRROR_LINK_PHY_LEAVES_L0 (R527). -/
def execMirrorLinkPhyLeavesL0 (m : Fin 2) (s : State) : Res := .next (s.loseReflect m)

/-- A primary fences (R535): held writes' completions are not sent, and each is logged with KIND 4. -/
def State.fence (s : State) (p : Nat) : State :=
  let m := s.mirPart p
  let isHost (a : Await) : Bool := match a with | .hostWrite _ _ _ _ => true | _ => false
  let s := s.setMirPart p { m with awaiting := m.awaiting.filter (fun x => !isHost x.2.2), openRecs := [[], []], unacked := [], rebuildPtr := none, snapEpoch := none }
  let s := m.awaiting.foldl (fun (s : State) x => match x.2.2 with | .hostWrite l d t _ => s.lostLog l d t 4 false | _ => s) s
  ((s.setMemActive p false).setMirState p 5).setB .mirPEvent 0 p

/-- The partition is a primary that lost its partner while it shipped, under automatic takeover. -/
def State.mayFence (s : State) (p : Nat) : Bool :=
  s.mir.lostAt.isSome && s.mirRole p == 1 && (s.mirState p == 2 || s.mirState p == 3) && (s.mirEntry p).takeover

/-- PARTNER_FENCE_TIMEOUT (R535): T/2 after the declaration. -/
def execPartnerFenceTimeout (p : PartId) (s : State) : Res :=
  .next (if s.mayFence p then (s.reach (s.mir.lostAt.getD 0 + s.mirT / 2)).fence p else s)

/-- What happens at T (R535). -/
def State.lossEnd (s : State) (p : Nat) : State :=
  if s.mayFence p then (s.reach (s.mir.lostAt.getD 0 + s.mirT)).fence p
  else if s.mirRole p = 1 ∧ (s.mirState p = 2 ∨ s.mirState p = 3) then (s.reach (s.mir.lostAt.getD 0 + s.mirT)).enterSolo p
  else if s.mirRole p = 2 ∧ s.mirState p = 6 ∧ (s.mirEntry p).takeover ∧ s.hasCopy p then (s.reach (s.mir.lostAt.getD 0 + s.mirT)).promote p
  else s
/-- PARTNER_TIMEOUT (R535); a takeover waits while a mirror processor is down (R591). -/
def execPartnerTimeout (p : PartId) (s : State) : Res :=
  .next (if s.mir.lostAt.isNone then s
    else if (s.fpDown 10 || s.fpDown 11) && s.mirRole p == 2 then s.fpWait (.partnerTimeout p) else s.lossEnd p)

/-- A write of 1 to UNFENCE (R535). -/
def State.unfence (s : State) (p : Nat) : State := if s.mirState p ≠ 5 then s.mirRefuse p 1 stDenied else (s.enterSolo p).wrB .mirPCtrl 1 false p
/-- UNFENCE (R535). -/
def execUnfence (p : PartId) (s : State) : Res := .next (s.unfence p)

/-! Hello exchange (R525, R526). -/

/-- The partition becomes, or stays, a secondary whose copy is rebuilt (R526). -/
def State.becomeSecond (s : State) (p gen : Nat) : State :=
  let s := if s.mirRole p = 1 then ((s.stopWork p .reset).releaseAwaits p (fun _ _ => true)).releaseHeld p else s
  ((s.setPair p 2 gen).setMemActive p false).beginCopy p

/-- A mirrored partition's outcome of a hello exchange. `other`: the other mirror link stayed up. -/
def State.helloPart (s : State) (p : Nat) (agree : Bool) (x : HelloPart) (other : Bool) : State :=
  let st := s.mirState p
  if s.mirRole p = 0 ∨ st = 0 ∨ st = 7 then s
  else if !agree ∨ !x.digestsAgree then (if st = 9 then s else (s.releaseAwaits p (fun _ _ => true)).mirConflict p)
  else if other ∧ st ≠ 9 ∧ st ≠ 1 then s
  else if st = 9 ∧ x.role + s.mirRole p ≠ 3 then s
  else if s.mirGen p < x.generation then s.becomeSecond p x.generation
  else if x.generation < s.mirGen p then (if s.mirRole p = 1 then s.startRebuild p else s.becomeSecond p (s.mirGen p))
  else if x.role + s.mirRole p ≠ 3 then (s.releaseAwaits p (fun _ _ => true)).mirConflict p
  else if (s.mirPart p).detached ∨ st = 8 then s
  else if s.mirRole p = 1 then s.startRebuild p else s.becomeSecond p (s.mirGen p)

/-- The partner's HELLO keeps the link down: port, straps or firmware version (R525). -/
def State.helloBad (s : State) (m : Nat) (x : Hello) : Bool :=
  x.port != m || x.pairFirst == x.pairSecond || x.pairFirst != (s.rdF .strStraps 0 2 == 2) || x.fwMajor != s.rdF .fwmVersion 56 8

/-- The rate of a mirror link: what both ends allow, at most 64 GT/s with STRAP_SPEED 0 (R41, R525). -/
def State.mirRate (s : State) (rate : Nat) : Nat := if s.rdB .strStraps 9 then rate else min rate 64

/-- MIRROR_HELLO (R525, R526): both HELLOs of a trained mirror link. -/
def execMirrorHello (m : Fin 2) (hello : Hello) (s : State) : Res :=
  .next (if s.mir.barred || !s.portsReady || s.reflectUp m then s
    else if s.helloBad m hello then (s.wrF .mirStatus (2 * m) 2 0).setB .mirEvent 0
    else
      let other := s.reflectUp (1 - m.val)
      let s := (s.wrF .mirStatus (2 * m) 2 3).wrF .mirStatus (4 + 3 * m) 3 (rateCode (s.mirRate hello.rate))
      let s := (s.clrB .mirStatus 10).wr .mirPartnerId (BitVec.ofNat 64 hello.identity.toNat)
      let s := { s with mir := { s.mir with lostAt := none, lastFlit := s.mir.lastFlit.set m s.time, replays := s.mir.replays.set m 0 } }
      let s := s.send (.reflectCtl m 4 [])
      let s := if hello.mirrorDigestAgrees && hello.parts.all (fun x => x.digestsAgree) then s else s.setB .mirEvent 0
      hello.parts.zipIdx.foldl (fun (s : State) x => if x.2 < 16 then s.helloPart x.2 hello.mirrorDigestAgrees x.1 other else s) s)

/-! Commands of MIR_P_CTRL (R526, R537 to R539). -/

/-- A write of 1 to DETACH on the primary (R539). -/
def State.detachCmd (s : State) (p : Nat) : State :=
  if s.mirRole p ≠ 1 ∨ (s.mirState p ≠ 2 ∧ s.mirState p ≠ 3) then s.mirRefuse p 3 stDenied else
  let s := s.enterSolo p
  (s.setMirPart p { s.mirPart p with detached := true }).wrB .mirPCtrl 3 false p
/-- DETACH (R539). On the secondary it is the primary's message, which leaves the copy as of the last applied epoch. -/
def execDetach (p : PartId) (s : State) : Res :=
  .next (if s.mirRole p = 2 ∧ (s.mirState p = 2 ∨ s.mirState p = 3) then (s.setMirPart p { s.mirPart p with recv := [] }).setMirState p 8 else s.detachCmd p)

/-- A write of 1 to ATTACH on the primary (R539). -/
def State.attachCmd (s : State) (p : Nat) : State :=
  if s.mirRole p ≠ 1 ∨ s.mirState p ≠ 4 ∨ !s.anyReflect then s.mirRefuse p 4 stDenied else (s.startRebuild p).wrB .mirPCtrl 4 false p
/-- ATTACH (R539). -/
def execAttach (p : PartId) (s : State) : Res := .next (s.attachCmd p)

/-- A write of 1 to DEMOTE (R526): this side ends CONFLICT as the secondary. -/
def State.demoteCmd (s : State) (p : Nat) : State :=
  if s.mirState p ≠ 9 then s.mirRefuse p 5 stDenied else (s.becomeSecond p (s.mirGen p)).wrB .mirPCtrl 5 false p
/-- DEMOTE (R526). -/
def execDemote (p : PartId) (s : State) : Res := .next (s.demoteCmd p)

/-- A write of 1 to SNAPSHOT on the primary (R537): both epochs close at once. -/
def State.snapshotCmd (s : State) (p : Nat) : State :=
  if !s.mayClose p then s.mirRefuse p 6 stDenied else
  let s := (s.closeBoth p).wrB .mirPCtrl 6 true p
  let m := s.mirPart p
  s.setMirPart p { m with snapEpoch := some (m.sent.getD 0 0, m.sent.getD 1 0) }
/-- SNAPSHOT (R537). -/
def execSnapshot (p : PartId) (s : State) : Res := .next (s.snapshotCmd p)

/-- A write of 1 to SWITCH on a MIRRORED primary (R538 step 1). -/
def State.switchCmd (s : State) (p : Nat) : State :=
  if s.mirRole p ≠ 1 ∨ s.mirState p ≠ 3 ∨ (s.mirPart p).switching.isSome ∨ !s.anyReflect then (if (s.mirPart p).switching.isSome then s else s.mirRefuse p 2 stDenied) else
  (s.wrB .mirPCtrl 2 true p).setMirPart p { s.mirPart p with switching := some s.time }
/-- SWITCH (R538). -/
def execSwitch (p : PartId) (s : State) : Res := .next (s.switchCmd p)

/-- No descriptor is fetched and incomplete, and no kernel runs. -/
def State.switchIdle (s : State) (p : Nat) : Bool := (s.queuesOf p).all (fun q => (s.queue q).descs.isEmpty) && s.comp.kernels.all (fun k => k.part != p)

/-- Steps 4 and 5 of R538 on the old primary. -/
def State.giveRole (s : State) (p : Nat) : State :=
  let m := s.mirPart p
  let queues := match s.tableRec p with | some (.table _ _ _ _ q) => q | _ => []
  let s := s.setMirPart p { m with openRecs := [[], []], unacked := [], applied := m.sent, recv := [], queues := queues }
  let s := ((s.setPair p 2 (s.mirGen p + 1)).wrB .mirPState 9 true p).setMemActive p false
  let s := (s.wrB .mirPCtrl 2 false p).raise { reg := .mirPState, part := some p, value := s.mirGen p }
  (s.releaseHeld p).epochRegs p

/-- Step 4 of R538 on the old secondary, which becomes primary. -/
def State.takeRole (s : State) (p : Nat) : State :=
  let m := s.mirPart p
  let s := s.setMirPart p { m with sent := m.applied, acked := m.applied, recv := [], openRecs := [[], []] }
  let s := m.queues.foldl (fun (s : State) x => s.restoreQueue x) s
  let s := ((s.setPair p 1 (s.mirGen p + 1)).wrB .mirPState 9 false p).serveAgain p
  (s.epochRegs p).event { reg := .mirPEvent, bit := 1, part := some p, value := s.mirGen p } p

/-- SWITCH_DRAIN_END (R538): the drain has ended and the last epoch goes out, or it has run out of time and the switch is refused. On the secondary it is the exchange itself. -/
def execSwitchDrainEnd (p : PartId) (s : State) : Res :=
  .next (
    let m := s.mirPart p
    if s.mirRole p = 2 then (if s.mirState p = 3 ∧ m.recv.isEmpty ∧ s.anyReflect then s.takeRole p else s) else
    match m.switching with
    | none => s
    | some t =>
      if m.switchEpoch.isSome then s
      else if s.switchIdle p then
        let s := s.closeBoth p
        let m := s.mirPart p
        s.setMirPart p { m with switchEpoch := some (m.sent.getD 0 0, m.sent.getD 1 0) }
      else ((s.reach (t + 1000 * s.powerRec.drainUs)).mirRefuse p 2 stDrain).releaseHeld p)

/-- An epoch that the partner wants again goes out again (R532). -/
def State.resendEpoch (s : State) (p h number : Nat) : State :=
  match (s.mirPart p).unacked.find? (fun x => x.1 == h && x.2.1 == number) with
  | some x => s.send (.reflect p h number (s.mirGen p) (s.mirAsync p) x.2.2.1 x.2.2.2)
  | none => s

/-- EPOCH_ACK (R532, R534, R537, R538): the epochs up to `number` of a sub-stream are at the partner; or that epoch is wanted again; or it failed twice, which ends mirroring and starts the rebuild. -/
def execEpochAck (p : PartId) (h : HubId) (number : Nat) (answer : AckKind) (s : State) : Res :=
  .next (
    let m := s.mirPart p
    if s.mirRole p ≠ 1 ∨ (s.mirState p ≠ 2 ∧ s.mirState p ≠ 3) ∨ !s.anyReflect ∨ m.sent.getD h 0 < number then s else
    let s := s.flitSeen
    match answer with
    | .again => s.resendEpoch p h number
    | .failed => (s.enterSolo p).startRebuild p
    | .ok =>
      let left := m.unacked.filter (fun x => !(x.1 == h.val && decide (x.2.1 ≤ number)))
      let s := (s.setMirPart p { m with acked := m.acked.set h (max (m.acked.getD h 0) number), unacked := left }).epochRegs p
      let s := s.releaseAwaits p (fun k n => k == h.val && decide (n ≤ number))
      let m := s.mirPart p
      let have' (e : Option (Nat × Nat)) : Bool := match e with | some (a, b) => decide (a ≤ m.acked.getD 0 0) && decide (b ≤ m.acked.getD 1 0) | none => false
      let s := if have' m.snapEpoch then (s.setMirPart p { m with snapEpoch := none }).wrB .mirPCtrl 6 false p else s
      if have' m.switchEpoch then s.giveRole p else s)

end Sys2Proof.Machine
end

