-- ==== Sys2Proof/Machine/Power.lean ====
section
/-! DEFINITION. Power states: requests, drains, transitions, wake, saved state (17 R544 to R567). -/

namespace Sys2Proof.Machine

/-! Requests (R548 to R551). -/

/-- A write of a state to PWR_REQ.TARGET (R549, R559). In Eclipse nothing that could carry it is powered. -/
def State.powerReq (s : State) (target : Nat) : State :=
  if s.rdF .pwrState 0 2 = 3 ∧ !s.rdB .pwrState 7 then s else
  let s := s.wrF .pwrReq 0 2 target
  if !s.rdB .pwrState 7 ∧ target < s.rdF .pwrState 0 2 then (s.wr .pwrWakeCause 8).pwrRequest target else s.pwrRequest target
/-- POWER_REQUEST (R549). -/
def execPowerRequest (target : Fin 4) (s : State) : Res := .next (s.powerReq target)
/-- POWER_CANCEL (R548). -/
def execPowerCancel (s : State) : Res := .next (s.wrB .pwrState 6 false)

/-! Drains (R552, R553). -/

/-- Nothing that the drain waits for remains (R552). -/
def State.drained (s : State) : Bool :=
  s.comp.kernels.all (fun k => !k.running) &&
    (decide (s.rdF .pwrState 2 2 < 2) ||
      (s.queues.all (fun q => q.2.descs.all (fun d => !d.started)) && s.links.all (fun l => l.2.ioTags.isEmpty) && s.tier.heldR.isEmpty && s.lens.heldW.isEmpty
        && s.tier.moves.all (fun m => !m.running)))

/-- The drain of an entry has ended, and the entry commits; for Night and Eclipse the host and mirror links go down (R552, R555 to R557 step 1). -/
def State.commitEntry (s : State) : State :=
  let us := min ((s.time - s.power.drainAt) / 1000) (2 ^ 24 - 1)
  let s := (s.wr .pwrDrainLast (BitVec.ofNat 64 us)).wrF .pwrState 8 4 1
  if s.rdF .pwrState 2 2 < 2 then s else (s.linksDown.wrF .mirStatus 0 4 0).wrF .mirStatus 4 6 0

/-- DRAIN_END (R552). -/
def execDrainEnd (s : State) : Res := .next (if !s.entryDraining || !s.drained then s else s.commitEntry)

/-- DRAIN_TIMEOUT_EXPIRY (R553): moves that could not commit in time abort (R257); where nothing but them was left, the drain has ended (DEDUCED, log 82). -/
def execDrainTimeoutExpiry (s : State) : Res :=
  .next (if !s.entryDraining || s.drained then s else
    let req := s.rdF .pwrState 2 2
    let s := s.reach (s.power.drainAt + 1000 * s.powerRec.drainUs)
    let s := if req < 2 then s else (s.tier.moves.filter (·.running)).foldl (fun (s : State) m => s.abortMove m.part m.frame) s
    if s.drained then s.commitEntry else
    ((s.pwrResult stDrain req).event { reg := .pwrEvent, bit := 0, status := stDrain, value := req }).pwrEnd)

/-! What a lower state turns off, and what an exit turns on (R355, R354, R555 to R558, R561, R562). -/

/-- Core STATE of every core: off, or idle where its cluster is owned (R353, R383); in safe mode they stay off (R45). -/
def State.coresPower (s : State) (on : Bool) : State :=
  (List.range 256).foldl (fun (s : State) k => s.wrF .cmpCoreState 0 3 (if on && s.rdB .cmpClState 4 (k / 8) && !s.rdB .strStatus 5 then 1 else 0) k) s
/-- Compute dies on: clocks start at the CLOCK frequencies, and every owned cluster's memories are zeroed (R555 steps 4 and 5). -/
def State.computeOn (s : State) : State :=
  let l := s.records
  let s := { s with fw := { s.fw with powerFreq := [], hotCores := [] } }
  let s := (List.range 256).foldl (fun (s : State) k => s.setIsland l k (clockIn l k) false) s
  ((List.range 32).foldl (fun (s : State) c => if s.rdB .cmpClState 4 c then s.zeroCluster c else s) s).coresPower true

/-- Firmware processors in a power state: in Night all but FP0 and FP1 are powered down, in Eclipse all (R556, R557); a halted one stays so (R592). -/
def State.fpPower (s : State) (state : Nat) : State :=
  (List.range 12).foldl (fun (s : State) n =>
    let down := state = 3 ∨ (state = 2 ∧ 2 ≤ n)
    if s.rdF .fwmPState 0 2 n = 2 then s else (s.wrF .fwmPState 0 2 (if down then 3 else 0) n).wrB .fwmPCtrl 0 false n) s

/-- Hub registers that no list of R561 saves, that no image or always-on block gives again, and that therefore take their reset values. -/
def unsavedRegs : List RegName :=
  [.lnsUFlipMask, .hbcSFlipMask, .lpcCFlipMask, .flcCFlipMask, .eccFlipLast, .tirMapAddr, .tirMapStat, .tirMapData, .tirMapCtrl, .tirSweepLast, .hbcRhLast, .lpcRhLast,
    .cmpPReflectLast, .prtLiveness, .prtUnmatchedHpa, .prtFeatHost, .prtFeatAgreed, .prtFeatCtrl, .qosPMissLast, .qosBgRate, .qosPState, .lnsPFlushCtrl, .mirPLossWindow]
/-- Hub registers that the lists of R561 save, event bits apart. -/
def savedRegs : List RegName :=
  [.lnkCtrl, .cylRateCtrl, .lnkErrCorr, .lnkErrUncorr, .lnkRecovery, .lnkLostCount, .lnkLostHead, .lnkLostLog, .cylRateCount, .prtQuiesceCtrl, .prtLivenessTimeout, .prtUnboundCount,
    .prtUnmatched, .prtFrozenWrites, .lnsMergeAge, .lnsPressure, .lnsPWatermark, .lnsPagesEncoded, .lnsRelocations, .lnsRefRecodes, .lnsUInBytes, .lnsUOutBytes, .lnsUDecodeErr,
    .lnsPNospace, .lnsPSlotStalls, .lnsPCommits, .lnsPFormatFallback, .tirEpochNow, .tirPDeepMiss, .tirPHeld, .tirPPromotions, .tirPDemotions, .tirPDeclined, .tirPHoldMax, .tirPMigFaults,
    .hbcRhThresh, .hbcRhDelay, .hbcRhEvents, .hbcSThrottle, .lpcRhThresh, .lpcRhDelay, .lpcRhEvents, .lpcCRecon, .lpcCThrottle, .eccCtrl, .eccCorrPages, .eccCorrSymbols, .eccUncorr,
    .eccWbDropped, .eccPoisonOvf, .eccChHard, .eccChCorr, .carBSlotCtrl, .carBErases, .flcCTimeouts, .cmpPReflect, .cmpKernels, .cmpClDecoded, .cmpPKernels, .cmpPSpillPages,
    .cmpPGlareBlocks, .cmpPFailed, .cmpPReflectEvents, .qosMigReserve, .qosAgeUs, .qosPMisses, .qosPLowered, .qosPLatMax, .mirReplays, .mirLinkLosses, .mirPDiscarded, .pwrCtrl, .pwrEntries,
    .lnkEvent, .lnsEvent, .lnsPEvent, .tirEvent, .tirPEvent, .hbcEvent, .lpcEvent, .carEvent, .carBEvent, .eccEvent, .cmpEvent, .cmpPNarEvent, .queEvent, .synEvent, .qosEvent, .qosPEvent,
    .mirEvent, .mirPEvent, .pwrEvent, .strRestoreFail]
/-- Registers by name return to their reset values. -/
def State.forgetRegs (s : State) (l : List RegName) : State := { s with regs := s.regs.filter (fun e => !l.any (fun n => n.ctorIdx == e.1 / (8192 * 8192))) }

/-- Hub logic has been without power: registers that nothing saved, counters of the memory controllers and of regulation. -/
def State.hubsBack (s : State) : State :=
  let s := s.forgetRegs unsavedRegs
  let dram : DramSt := { s.dram with rh := [], rhAt := s.time, expiries := [], throttle := [] }
  let parts := Store.mapVals {} (fun _ (d : PartSt) => { d with negotiated := false, liveTick := s.time / 1000000 }) s.parts
  -- the aging epoch and the sweeps begin afresh: neither advances without power (R558)
  { s with dram := dram, parts := parts, tier := { s.tier with sweepAt := [s.time, s.time], epochAt := s.time }, qos := { pinAt := s.qos.pinAt } }

/-- The saved state fails its CRC at an exit (R562). -/
def State.stateLost (s : State) : State :=
  let s := s.partsOn.foldl (fun (s : State) p => (s.queuesOf p).foldl (fun (s : State) q => s.resetQueue p q) s) s
  let s := s.resetObjs (fun _ => true)
  let s := (List.range 16).foldl (fun (s : State) p => (s.wrB .prtState 1 false p).wrB .prtState 2 false p) (s.forgetRegs savedRegs)
  s.event { reg := .pwrEvent, bit := 2 }

/-- The state that an entry leads to takes effect (R555 to R557, R561, R562). -/
def State.enterState (s : State) (t : Nat) : State :=
  let s := if 2 ≤ t then s.commitAll else s
  let s := s.coresPower false
  let s := if t = 3 then
      let s := (List.range 4).foldl (fun (s : State) b => if s.rdB .carBSlotStatus 1 b then (s.wrB .carBSlotStatus 1 false b).channelsDown b else s) s
      { s with sync := Store.mapVals {} (fun _ (o : SyncObj) => { o with waits := [] }) s.sync, tier := { s.tier with mapCache := [] }, flash := { s.flash with busy := [], reads := [] } }
    else s
  (((s.fpPower t).wrF .pwrState 0 2 t).stateBias t).incEvt .pwrEntries

/-- An exit: power, saved state, memories, links, compute dies (R558). `resweep`: controllers whose saved training cannot be used (R545), 72 + bay for a carrier's, with the narrow eyes of those sweeps; `badBanks`: the firmware banks that fail verification at an exit from Eclipse, the module staying at PHASE 1 where both do (R93, R596); `replay` applies the writes held for blocks without power (R560). -/
def State.leaveState (s : State) (t : Nat) (bad : Bool) (resweep : List Nat) (marginal : List (Nat × Nat × Bool)) (badBanks : BitVec 2) (replay : State → State) : State :=
  let cur := s.rdF .pwrState 0 2
  let (s, up) := if cur = 3 then s.bootBank s.fw.active (fun b => badBanks.getLsbD b) else (s, true)
  if !up then s.wrF .strStartState 0 4 1 else
  let s := if cur < 2 then s else
    let s := s.hubsBack
    let s := if bad then s.stateLost else s
    let s := s.fpPower t
    let s := { s with fw := { s.fw with beats := List.replicate 12 (s.time / 1000000), mbox := if cur = 3 then [] else s.fw.mbox } }
    let s := allCtrls.foldl (fun (s : State) c =>
      if resweep.contains c then s.trainOne c false (weakOf marginal c)
      else if (Store.get none c s.dram.saved).isSome then s.trainOne c true [] else s) s
    let s := if resweep.isEmpty then s else s.setB .pwrEvent 3
    if cur = 3 then (List.range 4).foldl (fun (s : State) b =>
      if s.rdB .carBSlotStatus 0 b ∧ [3, 4, 5, 7].contains (s.bayState b) then
        (s.wrB .carBSlotStatus 1 true b).trainFlash b (fun _ => false)
      else s) s
    else s
  let s := (s.wrF .pwrState 0 2 t).stateBias t
  let s := if t = 0 then s.computeOn else s
  if cur < 2 ∨ 2 ≤ t then s else
    -- step 3: writes held for unpowered blocks; step 6: ports
    let s := (replay s).setB .strStartState 4
    let s := if !s.mir.barred && (s.rdF .strStraps 0 2 == 1 || s.rdF .strStraps 0 2 == 2) then s.wrF .mirStatus 0 4 5 else s
    (List.range 32).foldl (fun (s : State) k => s.startTraining k) s

/-! Wake (R559, R560). -/

/-- WAKE_TARGET (R567). -/
def State.wakeTarget (s : State) : Nat := s.rdF .pwrCtrl 0 2

/-- WAKE_INBAND (R554, R559): electrical-idle exit or receiver detection by a link partner, in Night or during an entry that takes the links down. -/
def execWakeInband (link : LinkId) (s : State) : Res :=
  .next (if !s.rdB .pwrCtrl 2 then s
    else if s.rdB .pwrState 7 then (if 2 ≤ s.rdF .pwrState 2 2 then s.wakeBy s.wakeTarget 1 link else s)
    else if s.rdF .pwrState 0 2 = 2 then s.wakeBy s.wakeTarget 1 link else s)

/-- The module's side-band addresses (R44, R560). -/
def State.sbAddress (s : State) (a : BitVec 7) : Bool := a.toNat == 0x58 + s.rdF .strStraps 6 3 || s.power.i3c == some a

/-- WAKE_SIDEBAND_MATCH (R554, R560): seven address bits after a START, in Eclipse or during its entry. -/
def execWakeSidebandMatch (addr : BitVec 7) (s : State) : Res :=
  .next (if !s.sbAddress addr then s
    else if s.rdB .pwrState 7 then (if s.rdF .pwrState 2 2 = 3 then s.wakeBy s.wakeTarget 0 0 else s)
    else if s.rdF .pwrState 0 2 = 3 then s.wakeBy s.wakeTarget 0 0 else s)

end Sys2Proof.Machine
end

