-- ==== Sys2Proof/Machine/HoldUp.lean ====
section
/-! DEFINITION. The hold-up energy store: its monitor, the energy limit on the dirty budget, hand-over and flush (18 R568 to R586, R595, R618). -/

namespace Sys2Proof.Machine

/-! The string as it is read (R568, R569, R574, R575). Voltages in mV; d_i = V_i − V_pack / 12 is used as 12 V_i − V_pack. -/

/-- Sum of a list. -/
def sumOf (l : List Nat) : Nat := l.foldl (· + ·) 0

/-- A sense wire is known broken (R575). -/
def State.wireBroken (s : State) (k : Nat) : Bool := s.rdB .hupWireFault k
/-- Number of broken wires. -/
def State.brokenWires (s : State) : Nat := ((List.range 13).filter (fun k => s.wireBroken k)).length

/-- Cell readings with those of broken end wires replaced (R575). -/
def State.cellReads (s : State) (cells : List Nat) (vp : Nat) : List Nat :=
  let l := (List.range 12).map (fun i => cells.getD i 0)
  let put (l : List Nat) (i : Nat) : List Nat := l.set i (vp - sumOf (l.set i 0))
  let l := if s.wireBroken 0 then put l 0 else l
  if s.wireBroken 12 then put l 11 else l

/-- Twelve times a cell's departure from the mean. -/
def cellDev (v : List Nat) (vp i : Nat) : Int := 12 * (v.getD i 0 : Int) - vp

/-- The pattern of a broken internal wire 1 to 11 in one sample (R574). -/
def wirePattern (v : List Nat) (vp k : Nat) : Bool :=
  let a := cellDev v vp (k - 1)
  let b := cellDev v vp k
  decide (1200 ≤ a.natAbs ∧ 1200 ≤ b.natAbs ∧ (a < 0 ∧ 0 < b ∨ 0 < a ∧ b < 0) ∧ (a + b).natAbs ≤ 240 ∧ ((sumOf v : Int) - vp).natAbs ≤ 50)

/-- The pattern of a broken end wire, seen at cell 0 or 11 (R574). -/
def endPattern (v : List Nat) (vp i : Nat) : Bool :=
  (List.range 12).all (fun j => decide (1200 ≤ (cellDev v vp j).natAbs) == (j == i)) && decide ((12 * ((sumOf v : Int) - vp) - cellDev v vp i).natAbs ≤ 240)

/-- A sample shows wire k broken. -/
def showsWire (v : List Nat) (vp k : Nat) : Bool := if k = 0 then endPattern v vp 0 else if k = 12 then endPattern v vp 11 else wirePattern v vp k

/-- The cells merged with cell i by broken internal wires (R575): first and last. -/
def State.cellGroup (s : State) (i : Nat) : Nat × Nat :=
  let down := (List.range 12).foldl (fun a _ => if 0 < a ∧ s.wireBroken a then a - 1 else a) i
  let up := (List.range 12).foldl (fun a _ => if a < 11 ∧ s.wireBroken (a + 1) then a + 1 else a) i
  (down, up)

/-- Sum of a group's readings and its cell count. -/
def State.groupSum (s : State) (v : List Nat) (i : Nat) : Nat × Nat :=
  let g := s.cellGroup i
  (sumOf ((v.drop g.1).take (g.2 + 1 - g.1)), g.2 + 1 - g.1)

/-- The pattern of R574 explains a single cell's reading in this sample. -/
def State.cellExplained (s : State) (v : List Nat) (vp i : Nat) : Bool :=
  (!s.wireBroken i && showsWire v vp i) || (!s.wireBroken (i + 1) && showsWire v vp (i + 1))

/-! Charge, state and capacitance (R570 to R573). -/

/-- V_FULL by the hottest cell (R568). -/
def State.vFull (s : State) : Nat := if 50 < s.rdF .hupTemp 0 8 then 30000 else 31200
/-- The charge target: V_FULL less 100 mV for each broken wire (R570). -/
def State.chargeTarget (s : State) : Nat := s.vFull - 100 * s.brokenWires

/-- STATE (R586). -/
def State.storeState (s : State) : State :=
  let vp := (s.rd .hupPackMv).toNat
  s.wrF .hupStatus 0 3 (if s.hup.flushAt.isSome then 3 else if s.hup.failed then 4 else if vp < 15600 then 0 else if s.chargeTarget ≤ vp then 2 else 1)

/-- C_rated in mF (R568). -/
def capRated : Nat := 29170
/-- C_meas in mF: C_rated until the first test after cold reset (R571), which HUP_CAP_MF shows as 350 F / 12 (R585) and which no test can yield. -/
def State.cMeas (s : State) : Nat := if s.rdF .hupCapMf 0 16 = 29167 then capRated else s.rdF .hupCapMf 0 16
/-- e_v of R572 in units of 10^-11 J: 47 × C_meas (mF) × (V_pack² − V_MIN²) (mV²). -/
def State.energy (s : State) : Nat := 47 * s.cMeas * ((s.rdF .hupPackMv 0 16) ^ 2 - 15600 ^ 2)

/-- A capacitance test starts (R571). -/
def State.testStart (s : State) : State := { s.setB .hupStatus 5 with hup := { s.hup with testAt := some s.time } }

/-! The energy limit (R577, R578). -/

/-- L of R577 in bytes. -/
def State.energyLimit (s : State) : Nat :=
  let w := s.rdF .carArrayState 8 8 * 10 ^ 9
  let m := (List.range 16).foldl (fun a p => if s.durable p then a + s.apparent p else a) 0 / 1024
  let den := 3500 * 10 ^ 11
  if s.hup.failed then 0 else (w * (8 * s.energy - den) - m * den) / (den * 2 ^ 30) * 2 ^ 30

/-- The effective budget takes a value (R264, R578). -/
def State.setBudget (s : State) (v : Nat) : State :=
  let was := s.dirtyBudget
  let s := { s.wr .tirDirtyBudget (BitVec.ofNat 64 v) with hup := { s.hup with riseAt := none } }
  (if v < was then s.event { reg := .tirEvent, bit := 2, value := v } else s).checkBudget

/-- HUP_BUDGET_LIMIT takes L, and the effective budget follows it (R578). -/
def State.limitTo (s : State) (l : Nat) : State :=
  let s := s.wr .hupBudgetLimit (BitVec.ofNat 64 l)
  let eff := s.dirtyBudget
  let want := min s.powerRec.dirtyBudget l
  if !s.hup.computed then { s with hup := { s.hup with computed := true } }.setBudget want
  else if want < eff then s.setBudget want
  else if eff < want ∧ eff + 2 ^ 30 ≤ l then
    match s.hup.riseAt with
    | none => { s with hup := { s.hup with riseAt := some s.time } }
    | some t => if t + 10 ^ 9 ≤ s.time then s.setBudget want else s
  else { s with hup := { s.hup with riseAt := none } }

/-- The store becomes FAILED; L is 0 from then on (R575 to R577). -/
def State.storeFail (s : State) : State := if s.hup.failed then s else ({ s with hup := { s.hup with failed := true } }).storeState.limitTo 0

/-- BUDGET_LIMIT_UPDATE (R577): 100 ms after the last one. -/
def execBudgetLimitUpdate (s : State) : Res :=
  .next (
    let s := match s.hup.limitAt with | none => s | some t => s.reach (t + 10 ^ 8)
    { s with hup := { s.hup with limitAt := some s.time } }.limitTo s.energyLimit)

/-! One sample of the monitor (R569 to R576). -/

/-- Broken wires that a sample completes (R574, R575). -/
def State.wireCheck (s : State) (v : List Nat) (vp : Nat) : State :=
  let runs := (List.range 13).map (fun k => if !s.wireBroken k && showsWire v vp k then s.hup.wireRun.getD k 0 + 1 else 0)
  let s := { s with hup := { s.hup with wireRun := runs } }
  let new := (List.range 13).filter (fun k => if k = 0 ∨ k = 12 then 1 ≤ runs.getD k 0 else 10 ≤ runs.getD k 0)
  let s := new.foldl (fun (s : State) k => (s.setB .hupWireFault k).event { reg := .hupEvent, bit := 0, value := k }) s
  let s := s.wrF .hupStatus 8 4 s.brokenWires
  if 3 ≤ s.brokenWires then s.storeFail else s

/-- Cell faults that a sample shows or completes (R576). -/
def State.cellCheck (s : State) (v : List Nat) (temps : List Nat) (vp : Nat) : State :=
  let off (i : Nat) : Bool := match s.groupSum v i with | (t, n) => decide (1800 * n ≤ (12 * (t : Int) - n * vp).natAbs)
  let hi (i : Nat) : Bool := match s.groupSum v i with | (t, n) => decide (2750 * n < t)
  let runs := (List.range 12).map (fun i => if off i && !s.cellExplained v vp i then s.hup.cellRun.getD i 0 + 1 else 0)
  let s := { s with hup := { s.hup with cellRun := runs } }
  match (List.range 12).find? (fun i => decide (100 ≤ runs.getD i 0) || (hi i && !s.cellExplained v vp i) || decide (70 < temps.getD i 0)) with
  | none => s
  | some i => if s.hup.failed then s else (s.event { reg := .hupEvent, bit := 1, value := i, addr := v.getD i 0 }).storeFail

/-- The charge count of R573 after a sample. -/
def State.chargeCount (s : State) (chargeMc : Int) : State :=
  let vp := s.rdF .hupPackMv 0 16
  let c := s.cMeas
  let q := ((s.rd .hupChargeQ).toNat + chargeMc).toNat
  let s := s.wr .hupChargeQ (BitVec.ofNat 64 q)
  let run := if 500 * c < (1000 * (q : Int) - vp * c).natAbs then s.hup.staleRun + 1 else 0
  let s := { s with hup := { s.hup with staleRun := run } }
  if run < 100 || s.rdB .hupStatus 4 then s else (s.setB .hupStatus 4).event { reg := .hupEvent, bit := 2, value := q }

/-- A full charge (R571, R573). -/
def State.fullCharge (s : State) : State :=
  let s := if !s.rdB .hupStatus 4 then s else
    let s := (s.wr .hupChargeQ (BitVec.ofNat 64 (s.cMeas * s.vFull / 1000))).clrB .hupStatus 4
    { s with hup := { s.hup with staleRun := 0 } }
  let day := match s.hup.testedAt with | none => true | some t => decide (t + 86400 * 10 ^ 9 ≤ s.time)
  if day && !s.rdB .hupStatus 5 && s.rdF .hupStatus 0 3 == 2 then s.testStart else s

/-- The readings of a sample: hottest sensor, pack voltage, the checks of wires and cells, the cell registers (R569, R574 to R576). -/
def State.takeReadings (s : State) (x : StoreSample) (vp : Nat) : State :=
  let hot := ((List.range 12).foldl (fun (a : Nat × Nat) i => if a.1 < x.temps.getD i 0 then (x.temps.getD i 0, i) else a) (x.temps.getD 0 0, 0))
  let s := (s.wr .hupTemp (BitVec.ofNat 64 (min hot.1 255 + 256 * hot.2))).wr .hupPackMv (BitVec.ofNat 64 vp)
  let s := s.wireCheck (s.cellReads x.cells vp) vp
  let v := s.cellReads x.cells vp
  let s := s.cellCheck v x.temps vp
  (List.range 12).foldl (fun (s : State) i =>
    let sus := (1 ≤ i ∧ s.wireBroken i) ∨ (i ≤ 10 ∧ s.wireBroken (i + 1))
    s.wr .hupCellMv (BitVec.ofNat 64 (min (v.getD i 0) 65535 + (if sus then 2 ^ 31 else 0))) i) s

/-- The string reaches or leaves its target (R571, R573). -/
def State.fullEdge (s : State) (full : Bool) : State :=
  let edge := full && !s.hup.full
  let s := { s with hup := { s.hup with full := full } }
  if edge && !s.hup.flushAt.isSome && !s.hup.failed then s.fullCharge else s

/-- STORE_MONITOR_SAMPLE (R569): 10 ms after the last one. -/
def execStoreMonitorSample (x : StoreSample) (s : State) : Res :=
  .next (
    let s := match s.hup.sampleAt with | none => s | some t => s.reach (t + 10 ^ 7)
    let s := { s with hup := { s.hup with sampleAt := some s.time } }
    let vp := min x.packMv 65535
    let s := s.takeReadings x vp
    let s := s.wr .hupEnergyJ (BitVec.ofNat 64 (min (s.energy / 10 ^ 11) 65535))
    let s := (s.chargeCount x.chargeMc).storeState
    s.fullEdge (decide (s.chargeTarget ≤ vp)))

/-- HUP_CTRL.CAP_TEST written 1 (R571). Refused unless the store is READY. -/
def State.capTest (s : State) : State :=
  if s.rdB .hupStatus 5 then s else if s.rdF .hupStatus 0 3 = 2 then (s.setB .hupCtrl 0).testStart else s.clrB .hupCtrl 0
/-- CAP_TEST (R571). -/
def execCapTest (s : State) : Res := .next s.capTest

/-- CAP_TEST_DONE (R571): 4.0 C over the fall of V_pack in mV. -/
def execCapTestDone (dropMv : Nat) (s : State) : Res :=
  .next (if !s.rdB .hupStatus 5 then s else
    let s := { s with hup := { s.hup with testedAt := s.hup.testAt } }.reach (s.hup.testAt.getD s.time + 2 * 10 ^ 9)
    let mF := if dropMv = 0 then 65535 else min (4000000 / dropMv) 65535
    let s := ((s.clrB .hupStatus 5).clrB .hupCtrl 0).wr .hupCapMf (BitVec.ofNat 64 mF)
    if 5 * mF < 4 * capRated then s.event { reg := .hupEvent, bit := 5, value := mF } else s)

/-! The input (R580, R618). -/

/-- INPUT_BELOW_48V (R618): input power is no longer good. -/
def execInputBelow48v (s : State) : Res := .next (s.clrB .hupStatus 3)
/-- INPUT_BELOW_40V (R580): the 50 µs filter starts. -/
def execInputBelow40v (s : State) : Res := .next { s.clrB .hupStatus 3 with hup := { s.hup with lowAt := some (s.hup.lowAt.getD s.time) } }
/-- INPUT_GLITCH (R580): the input recovers before the filter ends. -/
def execInputGlitch (s : State) : Res :=
  .next (match s.hup.lowAt with
    | none => s
    | some t => if t + 50000 ≤ s.time then s else { s.setB .hupEvent 6 with hup := { s.hup with lowAt := none } })

/-- INPUT_POWER_GOOD (R580): above 48 V for 20 ms. A module that lost its supply starts cold, unless MOD_RST_N holds it (R583, R618). -/
def execInputPowerGood (s : State) : Res :=
  .next (
    let off := s.hup.lowAt.isSome && s.rdF .strStartState 0 4 == 8 && !s.start.held
    let s := { s.setB .hupStatus 3 with hup := { s.hup with lowAt := none } }
    if off then s.coldAnew else s)

/-! Hand-over and flush (R564, R581 to R584, R595). -/

/-- A power transition stops where it stands (R564). -/
def State.pwrStop (s : State) : State :=
  let s := if s.rdF .pwrState 0 2 = 0 ∧ !s.rdB .pwrState 7 then s else s.wr .pwrWakeCause 16
  ((s.wrB .pwrState 7 false).wrF .pwrState 8 4 0).wrF .pwrState 2 2 (s.rdF .pwrState 0 2)

/-- Steps 1 to 4 of R581. The compute dies are gated into retention, so that their cores show STATE 0 and keep what they hold (R563; DEDUCED, log 58). `trip`: the module powers off at the end (R595). A flush already under way counts as the hold-up flush (R102). -/
def State.handOver (s : State) (trip : Bool) : State :=
  if s.handover then { s with hup := { s.hup with trip := s.hup.trip || trip } }
  else if s.rdF .strStartState 0 4 = 0 ∨ s.rdF .strStartState 0 4 = 8 then s else
  let s := { s with hup := { s.hup with flushAt := some s.time, trip := trip } }
  let s := (((s.clrB .hupStatus 5).clrB .hupCtrl 0).setB .hupEvent 3).incEvt .hupFlushes
  let s := s.storeState.pwrStop
  let s := (s.comp.kernels.filter (fun k => k.running)).foldl (fun (s : State) k => s.endKernel k .reset true) s
  let s := (s.coresPower false).finishHost.linksDown
  let s := (List.range 16).foldl (fun (s : State) p => if s.mirRole p = 1 ∧ s.mirState p = 3 ∧ s.anyReflect then s.closeBoth p else s) s
  ((s.wrF .mirStatus 0 4 0).wrF .mirStatus 4 6 0).commitAll

/-- INPUT_POWER_LOST (R580, R581): below 40 V for 50 µs. -/
def execInputPowerLost (s : State) : Res :=
  .next (
    let t := s.hup.lowAt.getD s.time
    let s := { s.clrB .hupStatus 3 with hup := { s.hup with lowAt := some t } }
    (s.reach (t + 50000)).handOver false)

/-- THERMAL_TRIP (R595): as if input power were lost, and the module then powers off. -/
def execThermalTrip (s : State) : Res := .next (s.handOver true)

/-- What the end of a flush leaves: its duration in the health record, CLEAN and FLUSHED for the next start (R581, R583). -/
def State.handoverEnd (s : State) (clean : Bool) : State :=
  let ms := min ((s.time - s.hup.flushAt.getD s.time) / 1000000) (2 ^ 24 - 1)
  let s := s.wr .hupFlushLast (BitVec.ofNat 64 ms)
  let s := { s with hup := { s.hup with flushAt := none }, start := { s.start with clean := clean, flushed := true } }
  s.storeState

/-- Power-off at the end of a flush: the next start is a cold reset with cause 4 (R583). -/
def State.powerOff (s : State) : State :=
  let s := { s with start := { s.start with cause := 4, coldAfter := false, coldEnv := none }, hup := { s.hup with trip := false } }
  s.wrF .strStartState 0 4 8

/-- HOLDUP_FLUSH_DONE (R581 steps 5 to 8, R583, R584). -/
def execHoldupFlushDone (s : State) : Res :=
  .next (if !s.handover then s else
    let s := s.flushDurable none
    let s := s.handoverEnd s.journalsWhole
    if s.hup.trip || !s.rdB .hupStatus 3 then s.powerOff
    else if s.start.coldAfter then s.coldFollows
    else s.warmAnew 3)

/-- FLUSH_VLOW_STOP (R582): V_pack has fallen to V_LOW. How many writes had been made is a free value; the module powers off. -/
def execFlushVlowStop (s : State) : Res :=
  .next (if !s.handover then s else
    let (v, s) := s.nextFree
    ((s.flushDurable (some v)).setB .hupEvent 4).handoverEnd false |>.powerOff)

end Sys2Proof.Machine
end

