-- ==== Sys2Proof/Machine/Firmware.lean ====
section
/-! DEFINITION. Firmware processors, control loops, firmware update, attestation, the management mailbox, feature negotiation (19 R587 to R611). -/

namespace Sys2Proof.Machine

/-! Feature negotiation (R607 to R609). -/

/-- Features that firmware of major version 1 offers, each at version 1 (R609). -/
def fwFeatures : List Nat := [1, 2, 3, 4, 5]

/-- NEGOTIATE (R607, R608): the intersection of the host and firmware tables, in the host table's order; FORMAT where an ID repeats. -/
def State.negotiate (s : State) (p : Nat) : State :=
  let host := ((List.range 64).map (fun j => ((s.rdF .prtFeatHost 0 16 p j), s.rdF .prtFeatHost 16 8 p j))).filter (fun x => x.1 != 0)
  let done (s : State) (st : Nat) : State := s.wr .prtFeatCtrl (BitVec.ofNat 64 (256 * st)) p
  if (host.map (·.1)).eraseDups.length ≠ host.length then done s stFormat else
  let agreed := (host.filter (fun x => fwFeatures.contains x.1)).map (fun x => x.1 + 65536 * min x.2 1)
  let s := (List.range 64).foldl (fun (s : State) j => s.wr .prtFeatAgreed (BitVec.ofNat 64 (agreed.getD j 0)) p j) s
  done (s.setPart p { s.part p with negotiated := true }) stDone

/-- The processors behind FE registers do not run (R17, R587). -/
def State.feDown (s : State) : Bool := s.fpDown 5 || s.fpDown 9
/-- A write to an FE register takes effect (R16, R607). -/
def State.feApply (s : State) (r : RegId) (v : Nat) : State :=
  match r.name with
  | .prtFeatHost => { s with regs := s.regs.write r (BitVec.ofNat 64 (v % 2 ^ 24)) }
  | .prtFeatCtrl => if v % 2 = 1 then s.negotiate r.i else s
  | _ => s
/-- A write to an FE register: held while its processor restarts, the latest per register; reads go on returning what firmware last published (R17). -/
def State.feWrite (s : State) (r : RegId) (v : Nat) : State :=
  if !s.feDown then s.feApply r v else
  { s with acc := { s.acc with fe := s.acc.fe.filter (fun x => x.1 != r) ++ [(r, v)] } }
/-- NEGOTIATE (R608). -/
def execNegotiate (p : PartId) (s : State) : Res := .next (s.feWrite ⟨.prtFeatCtrl, p, 0⟩ 1)

/-! Control loops (R31, R591, R593, R594). -/

/-- FREQ of every core island: the stricter of the CLOCK, power and thermal settings, or 0.80 GHz while hardware clamps (R591, R593, R594). -/
def State.setFreqs (s : State) : State :=
  let l := s.records
  (List.range 256).foldl (fun (s : State) k =>
    let c := clockIn l k
    let f := min (min c ((Store.get none k s.fw.powerFreq).getD c)) ((Store.get none k s.fw.hotCores).getD c)
    s.setIsland l k (if s.fw.clamp then min c 80 else f) (Store.get none k s.fw.hotCores).isSome) s

/-- Core islands that a power-and-thermal processor serves: compute dies 0 and 1 by FP2, 2 and 3 by FP6 (log 54). -/
def hubCores (h : Nat) : List Nat := (List.range 128).map (· + 128 * h)

/-- Power-loop setting of a core island (R593). -/
def State.powerOf (s : State) (k : Nat) : Nat := (Store.get none k s.fw.powerFreq).getD (clockIn s.records k)

/-- The power half of one period for a hub's islands and links (R593). `low`: every core island stands at 0.80 GHz. -/
def State.powerLoop (s : State) (h inputW : Nat) (low : Bool) : State :=
  let cap := s.rdF .fwmInputW 16 16
  let l := s.records
  let links := (List.range 16).map (· + 16 * h)
  let put (s : State) (k : Nat) (f : Nat) : State :=
    { s with fw := { s.fw with powerFreq := Store.set none k (if clockIn l k ≤ f then none else some f) s.fw.powerFreq } }
  let count (s : State) (n : Nat) : State := { s with fw := { s.fw with below := s.fw.below.set h n } }
  if cap < inputW then
    let s := count s 0
    if !low then ((hubCores h).foldl (fun (s : State) k => put s k (max 80 (s.powerOf k - 5))) s).setB .fwmEvent 5
    else (links.foldl (fun (s : State) k => (s.setLink k { s.link k with fwCap := max 2 ((s.link k).fwCap / 2) }).capWidth k) s).setB .fwmEvent 5
  else if 95 * cap ≤ 100 * inputW then count s 0
  else
    let n := s.fw.below.getD h 0 + 1
    let s := count s n
    if n < 10 then s
    else if links.any (fun k => (s.link k).fwCap < 16) then
      links.foldl (fun (s : State) k => (s.setLink k { s.link k with fwCap := min 16 (2 * (s.link k).fwCap) }).capWidth k) s
    else (hubCores h).foldl (fun (s : State) k => put s k (s.powerOf k + 1)) s

/-- A throttle in percent after one period (R594): halved down to 25 at or above the limit, released below the release point. -/
def throttle (limit release temp : Nat) (was : Option Nat) : Option Nat :=
  if limit ≤ temp then some (max 25 (was.getD 100 / 2)) else if temp < release then none else was

/-- The thermal half of one period for a hub (R594). -/
def State.thermLoop (s : State) (h : Nat) (x : LoopSample) : State :=
  let s := (x.coreTemps.filter (fun c => decide (c.1 / 128 = h ∧ c.1 < 256))).foldl (fun (s : State) c =>
    let was := Store.get none c.1 s.fw.hotCores
    let clock := clockIn s.records c.1
    let now := if 100 ≤ c.2 then some (max 80 (was.getD (min clock (s.powerOf c.1)) - 5)) else if c.2 < 97 then none else was
    let s := { s with fw := { s.fw with hotCores := Store.set none c.1 now s.fw.hotCores } }
    if 100 ≤ c.2 then s.setB .fwmEvent 4 else s) s
  let s := (x.stackTemps.filter (fun c => decide (c.1 / 4 = h ∧ c.1 < 8))).foldl (fun (s : State) c =>
    let s := { s with fw := { s.fw with hotStacks := Store.set none c.1 (throttle 95 92 c.2 (Store.get none c.1 s.fw.hotStacks)) s.fw.hotStacks } }
    if 95 ≤ c.2 then s.setB .fwmEvent 4 else s) s
  if s.handover then s else
  (x.carrierTemps.filter (fun c => decide (c.1 / 2 = h ∧ c.1 < 4))).foldl (fun (s : State) c =>
    let s := { s with fw := { s.fw with hotBays := Store.set none c.1 (throttle 70 67 c.2 (Store.get none c.1 s.fw.hotBays)) s.fw.hotBays } }
    if 70 ≤ c.2 then s.setB .fwmEvent 4 else s) s

/-- The largest temperature of a list. -/
def hottest (l : List (Nat × Nat)) : Nat := min 255 ((l.map (·.2)).foldl max 0)

/-- Processors run at all: the start has passed PHASE 1, and the module is not off (R93, R105). -/
def State.fwRuns (s : State) : Bool := decide (2 ≤ s.rdF .strStartState 0 4 ∧ s.rdF .strStartState 0 4 ≤ 7)

/-- A period of the power loops ends, at least 1 ms after the last one (R31, R38, R593). -/
def State.loopPeriod (s : State) : State :=
  let s := match s.fw.loopAt with | none => s | some t => s.reach (t + 1000000)
  { s with fw := { s.fw with loopAt := some s.time } }

/-- POWER_LOOP_PERIOD (R31, R38, R593, R594): 1 ms of both loops; a loop whose processor is down leaves its hub's settings. -/
def execPowerLoopPeriod (x : LoopSample) (s : State) : Res :=
  .next (
    let hubs := [0, 1].filter (fun h => !s.fpDown (2 + 4 * h))
    if !s.fwRuns || hubs.isEmpty then s else
    let s := s.loopPeriod.wrF .fwmInputW 0 16 (min x.inputW 65535)
    let s := s.wr .fwmTherm (BitVec.ofNat 64 (hottest x.coreTemps + 256 * hottest x.stackTemps + 65536 * hottest x.carrierTemps))
    let low := (List.range 256).all (fun k => decide (s.powerOf k ≤ 80))
    let s := hubs.foldl (fun (s : State) h => (s.powerLoop h x.inputW low).thermLoop h x) s
    s.setFreqs)

/-- CORE_ISLAND_HW_CLAMP (R591): while a power-and-thermal processor is down, input power has exceeded the cap by 5% for 2 ms. -/
def execCoreIslandHwClamp (s : State) : Res :=
  .next (if !(s.fpBusy 2 || s.fpBusy 6) then s else { s with fw := { s.fw with clamp := true } }.setFreqs)

/-! Heartbeats and restarts (R588 to R592). -/

/-- A restart of a processor (R590, R592); `cause` is HALT of R611. `cmd`: a write of 1 to RESTART. -/
def State.fpRestart (s : State) (n cause : Nat) (cmd : Bool) : State :=
  let st := s.rdF .fwmPState 0 2 n
  if !s.fwRuns ∨ st = 1 ∨ st = 3 ∨ (st = 2 ∧ !cmd) then s else
  let old := s.fw.restarts.getD n []
  let s := s.wrF .fwmPState 8 8 cause n
  let first := (old.drop (old.length - 3)).head?
  let stays := st != 2 && decide (3 ≤ old.length) && (match first with | some t => decide (s.time ≤ t + 60 * 10 ^ 9) | none => false)
  let s := { s with fw := { s.fw with restarts := s.fw.restarts.set n (old ++ [s.time]) } }
  if stays then ((s.wrF .fwmPState 0 2 2 n).wrB .fwmPCtrl 0 false n).event { reg := .fwmEvent, bit := 2, status := cause, value := n }
  else
    let s := s.wrF .fwmPState 0 2 1 n
    if cmd then s.wrB .fwmPCtrl 0 true n else s

/-- FWM_P_CTRL.RESTART written 1, or RESTART (R590, R592). -/
def execRestart (fp : Fin 12) (s : State) : Res := .next (s.fpRestart fp stDone true)
/-- FIRMWARE_FETCH_FAULT (R342, R590). -/
def execFirmwareFetchFault (fp : Fin 12) (s : State) : Res := .next (s.fpRestart fp stFetch false)

/-- FP_HEARTBEAT_MISS (R588): none came up to and in the tick of expiry. -/
def execFpHeartbeatMiss (fp : Fin 12) (s : State) : Res :=
  .next (if !s.fwRuns ∨ s.rdF .fwmPState 0 2 fp ≠ 0 then s else
    (s.reach ((s.fw.beats.getD fp 0 + 11) * 1000000)).fpRestart fp stTimeout false)

/-- FW_REGION_FAULT (R589): the access is not performed; the component restarts alone. R88 names such a violation among the triggers of a processor's restart; R589 and R590 say otherwise and are followed (DEDUCED, log 74). -/
def execFwRegionFault (fp : Fin 12) (component addr : Nat) (s : State) : Res :=
  .next (if !s.fwRuns ∨ s.rdF .fwmPState 0 2 fp ≠ 0 then s else
    s.event { reg := .fwmEvent, bit := 0, addr := addr, value := fp, args := [component] })

/-- Work that waited for a processor (R591). -/
def State.runWaiting (s : State) (i : Instr) : State :=
  match i with
  | .quarantine p => s.quarantineReq p
  | .promote p => if s.fpDown 10 || s.fpDown 11 then s.fpWait i else s.promoteCmd p
  | .partnerTimeout p => if s.fpDown 10 || s.fpDown 11 then s.fpWait i else s.lossEnd p
  | _ => s

/-- Held writes to FE registers take effect in arrival order (R17). -/
def State.feRelease (s : State) : State :=
  let held := s.acc.fe
  let s := { s with acc := { s.acc with fe := [] } }
  held.foldl (fun (s : State) x => s.feApply x.1 x.2) s
/-- The hardware clamp of the core islands ends (R591). -/
def State.liftClamp (s : State) : State :=
  if s.fw.clamp then { s with fw := { s.fw with clamp := false } }.setFreqs else s
/-- Work that has waited runs, oldest first (R591). -/
def State.runWork (s : State) : State :=
  let waiting := s.fw.waiting
  let s := { s with fw := { s.fw with waiting := [] } }
  waiting.foldl (fun (s : State) i => s.runWaiting i) s

/-- Step 4 of R590: the processor runs again; held FE writes and what waited for it take effect. -/
def State.fpResume (s : State) (n : Nat) : State :=
  let s := ((s.wrF .fwmPState 0 2 0 n).incErr .fwmPRestarts n).wrB .fwmPCtrl 0 false n
  let s := s.event { reg := .fwmEvent, bit := 1, status := s.rdF .fwmPState 8 8 n, value := n }
  let s := if s.feDown then s else s.feRelease
  let s := if s.fpBusy 2 || s.fpBusy 6 then s else s.liftClamp
  let s := s.runWork
  if (n = 2 ∨ n = 6) ∧ !s.fpBusy 2 ∧ !s.fpBusy 6 ∧ !s.startupOrLoad then s.takePending else s

/-! Firmware update (R595 to R598, R604). Replies carry the command number of DSP0267. -/

/-- The update agent's messages are answered: FP1 runs, or PHASE 1 serves the recovery endpoint (R591, R596). -/
def State.pldmUp (s : State) : Bool := decide (s.rdF .strStartState 0 4 = 1) || (s.fwRuns && !s.fpDown 1)
/-- The management mailbox is answered over MCTP (R591, R602). -/
def State.mboxUp (s : State) : Bool := s.fwRuns && !s.fpDown 1

/-- A PLDM command: lost while nothing serves it; one that changes the update is refused during a hold-up flush (R604). -/
def State.pldm (s : State) (cmd : Nat) (changes : Bool) (f : State → State × Nat × List Nat) : State :=
  if !s.pldmUp then s
  else if changes && s.handover then s.send (.pldm cmd 0x87 [])
  else match f s with | (s, code, pl) => s.send (.pldm cmd code pl)

/-- Replace the update state. -/
def State.setPldm (s : State) (n : Nat) (cur : Option Component) : State := { s with fw := { s.fw with pldm := n, cur := cur, pulled := 0 } }

/-- QUERY_DEVICE_IDENTIFIERS (R597): the PCI vendor ID of R602. -/
def execQueryDeviceIdentifiers (s : State) : Res := .next (s.pldm 0x01 false (fun s => (s, stDone, [0x1D3C])))
/-- GET_FIRMWARE_PARAMETERS (R597): active and pending versions of both components. -/
def execGetFirmwareParameters (s : State) : Res :=
  .next (s.pldm 0x02 false (fun s => (s, stDone, [(s.rd .fwmVersion).toNat, (s.rd .fwmPendVersion).toNat, (s.rd .cmpLibVersion).toNat,
    match s.comp.pendLib with | none => 0 | some c => c.version])))
/-- REQUEST_UPDATE (R597): a package of one or two components (R595). -/
def execRequestUpdate (n : Nat) (s : State) : Res :=
  .next (s.pldm 0x10 true (fun s => if s.fw.pldm ≠ 0 then (s, 0x85, []) else if n = 0 ∨ 2 < n then (s, stRange, [])
    else ({ s with fw := { s.fw with pldm := 1, table := [], cur := none, done := [] } }, stDone, [])))
/-- PASS_COMPONENT_TABLE (R597). -/
def execPassComponentTable (comps : List Component) (s : State) : Res :=
  .next (s.pldm 0x13 true (fun s => if s.fw.pldm ≠ 1 then (s, 0x85, []) else ({ s with fw := { s.fw with pldm := 2, table := comps } }, stDone, [])))

/-- Why a component is refused (R596, R597); 0 when it is accepted. The recovery endpoint takes component 1 only, and there no version runs. -/
def State.componentCheck (s : State) (c : Component) : Nat :=
  let recovery := s.rdF .strStartState 0 4 == 1
  if !(c.id == 1 || (c.id == 2 && !recovery)) then stRange
  else if !s.fw.table.any (fun (t : Component) => t.id == c.id) then 0x85
  else if c.id = 1 ∧ !recovery ∧ c.version / 2 ^ 56 % 256 ≠ s.rdF .fwmVersion 56 8 then 0x84
  else if c.id = 1 ∧ c.security < s.rdF .fwmSecVersion 0 16 then 0x84
  else if !c.signatureOk then 0x83
  else 0
/-- UPDATE_COMPONENT (R597). -/
def execUpdateComponent (c : Component) (s : State) : Res :=
  .next (s.pldm 0x14 true (fun s => if s.fw.pldm ≠ 2 then (s, 0x85, []) else
    match s.componentCheck c with | 0 => (s.setPldm 3 (some c), stDone, []) | st => (s, st, [])))
/-- REQUEST_FIRMWARE_DATA (R597): the module pulls the next bytes, at most 4 KiB. -/
def execRequestFirmwareData (len : Nat) (s : State) : Res :=
  .next (if !s.pldmUp || s.handover then s else
    match s.fw.pldm, s.fw.cur with
    | 3, some c => { s with fw := { s.fw with pulled := s.fw.pulled + min len 4096 } }.send (.fwPull c.id s.fw.pulled (min len 4096))
    | _, _ => s.send (.pldm 0x15 0x85 []))
/-- TRANSFER_COMPLETE (R597). -/
def execTransferComplete (ok : Bool) (s : State) : Res :=
  .next (s.pldm 0x16 true (fun s => if s.fw.pldm ≠ 3 then (s, 0x85, []) else if ok then ({ s with fw := { s.fw with pldm := 4 } }, stDone, []) else (s.setPldm 2 none, stDone, [])))
/-- VERIFY_COMPLETE (R597). -/
def execVerifyComplete (ok : Bool) (s : State) : Res :=
  .next (s.pldm 0x17 true (fun s => if s.fw.pldm ≠ 4 then (s, 0x85, []) else if ok then ({ s with fw := { s.fw with pldm := 5 } }, stDone, []) else (s.setPldm 2 none, 0x83, [])))
/-- The inactive bank takes a component (R596). -/
def State.applyBank (s : State) (c : Component) : State :=
  let b := 1 - s.fw.active
  let s := { s with fw := { s.fw with banks := s.fw.banks.set b (some c) } }
  if s.fw.pend = some b then s.wr .fwmPendVersion (BitVec.ofNat 64 c.version) else s
/-- A component waits for activation. -/
def State.noteDone (s : State) (c : Component) : State := { s with fw := { s.fw with done := s.fw.done.filter (fun (x : Component) => x.id != c.id) ++ [c] } }
/-- APPLY_COMPLETE (R597): component 1 stands in the inactive bank. -/
def execApplyComplete (ok : Bool) (s : State) : Res :=
  .next (s.pldm 0x18 true (fun s => match s.fw.pldm, s.fw.cur with
    | 5, some c =>
      if !ok then (s.setPldm 2 none, stDone, []) else
      (((if c.id ≠ 1 then s else s.applyBank c).noteDone c).setPldm 2 none, stDone, [])
    | _, _ => (s, 0x85, [])))
/-- Activation of one component (R598). -/
def State.fwActivate (s : State) (selfContained : Bool) (c : Component) : State :=
  if c.id = 1 then { s.wr .fwmPendVersion (BitVec.ofNat 64 c.version) with fw := { s.fw with pend := some (1 - s.fw.active) } }
  else { s with fw := { s.fw with lib := some c }, comp := { s.comp with pendLib := if selfContained then some c else s.comp.pendLib } }
/-- ACTIVATE_FIRMWARE (R598). -/
def execActivateFirmware (selfContained : Bool) (s : State) : Res :=
  .next (s.pldm 0x1A true (fun s => if s.fw.pldm ≠ 2 ∨ s.fw.done.isEmpty then (s, 0x85, []) else
    let s' := s.fw.done.foldl (fun (s : State) c => s.fwActivate selfContained c) s
    ({ s' with fw := { s'.fw with pldm := 0, table := [], cur := none, done := [] } }, stDone, [])))
/-- GET_STATUS (R597). -/
def execGetStatus (s : State) : Res := .next (s.pldm 0x1B false (fun s => (s, stDone, [s.fw.pldm])))
/-- CANCEL_UPDATE_COMPONENT (R597). -/
def execCancelUpdateComponent (s : State) : Res :=
  .next (s.pldm 0x1C true (fun s => if s.fw.pldm < 3 then (s, 0x85, []) else (s.setPldm 2 none, stDone, [])))
/-- CANCEL_UPDATE (R597). -/
def execCancelUpdate (s : State) : Res :=
  .next (s.pldm 0x1D true (fun s => if s.fw.pldm = 0 then (s, 0x85, []) else
    ({ s with fw := { s.fw with pldm := 0, table := [], cur := none, done := [], pulled := 0 } }, stDone, [])))

/-! Attestation (R600). -/

/-- Bytes of twelve digest registers. -/
def State.digestBytes (s : State) (n : RegName) : List Nat := (List.range 12).flatMap (fun k => (List.range 4).map (fun j => s.rdF n (8 * j) 8 k))
/-- A measurement block (R600). -/
def State.measurement (s : State) (i : Nat) : List Nat :=
  if i = 1 then (List.range 48).map (fun j => (Config.bootDigest.extractLsb' (8 * (47 - j)) 8).toNat)
  else if i = 2 then s.digestBytes .fwmDigest
  else if i = 3 then s.digestBytes .cmpLibDigest
  else if i = 4 then s.digestBytes .strActiveDigest
  else [(s.rd .strStraps).toNat, (s.rd .fwmSecVersion).toNat, (s.rd .strKeyState).toNat]
/-- SPDM_REQUEST (R600): GET_MEASUREMENTS is code 0xE0, its operand 0 for their number, an index, or 0xFF for all; other answers are free values. -/
def execSpdmRequest (code : Nat) (payload : List Nat) (s : State) : Res :=
  .next (if !s.fwRuns || s.fpDown 0 then s else
    if code = 0xE0 then
      let op := payload.headD 0
      s.send (.spdm 0x60 (if op = 0 then [5] else if op = 0xFF then [1, 2, 3, 4, 5].flatMap s.measurement else if op ≤ 5 then s.measurement op else []))
    else
      let (v, s) := s.nextFree
      s.send (.spdm (code % 128) (Config.spdmAnswer code payload v)))

/-! The management mailbox (R602 to R604). -/

/-- A mailbox command's outcome: status and reply payload. -/
abbrev Mbox := State → State × Nat × List Nat
/-- A mailbox request over MCTP: lost while FP1 is down (R591); a change to keys or processors is refused during a hold-up flush (R604). -/
def State.mgmtMbox (s : State) (opcode : Nat) (changes : Bool) (f : Mbox) : State :=
  if !s.mboxUp then s
  else if changes && s.handover then s.send (.mgmt opcode 0x87 [])
  else match f s with | (s, st, pl) => s.send (.mgmt opcode st pl)

/-- Get Identity: versions, digest, module identity. -/
def State.mboxIdentity (s : State) : State × Nat × List Nat :=
  (s, stDone, [(s.rd .fwmVersion).toNat, (s.rd .fwmSecVersion).toNat] ++ (List.range 12).map (fun k => (s.rd .fwmDigest k).toNat) ++ [Config.moduleId.toNat])
/-- GET_IDENTITY (R603). -/
def execGetIdentity (s : State) : Res := .next (s.mgmtMbox 1 false State.mboxIdentity)

/-- Write Owner Key (R58): slots 1 to 3, each once. -/
def State.mboxOwnerKey (slot : Nat) (key : BitVec 768) (s : State) : State × Nat × List Nat :=
  if slot = 0 ∨ 3 < slot then (s, stRange, [])
  else if (s.img.keys.getD slot none).isSome then (s, 0x82, [])
  else ({ s with img := { s.img with keys := s.img.keys.set slot (some key) } }.wrB .strKeyState slot true, stDone, [])
/-- WRITE_OWNER_KEY (R58, R603). -/
def execWriteOwnerKey (slot : Nat) (key : BitVec 768) (s : State) : Res := .next (s.mgmtMbox 2 true (State.mboxOwnerKey slot key))

/-- Restart Processor (R590, R604). -/
def State.mboxRestart (n : Nat) (s : State) : State × Nat × List Nat :=
  if 12 ≤ n then (s, stRange, [])
  else if s.rdF .fwmPState 0 2 n = 2 then (s, 0x86, [])
  else (s.fpRestart n stDone true, stDone, [])
/-- RESTART_PROCESSOR (R603). -/
def execRestartProcessor (n : Nat) (s : State) : Res := .next (s.mgmtMbox 3 true (State.mboxRestart n))

/-- Get Events: up to 32 records, oldest first, after those skipped. -/
def State.takeEvents (s : State) (skip : Nat) : State × List EvRec :=
  let l := (s.ev.log.drop skip).take 32
  ({ s with ev := { s.ev with seen := l.foldl (fun a r => max a r.handle) s.ev.seen } }, l)
/-- GET_EVENTS (R603). -/
def execGetEvents (skip : Nat) (s : State) : Res :=
  .next (if !s.mboxUp then s else match s.takeEvents skip with | (s, l) => s.send (.events none none l))

/-- Clear Events: from the oldest up to and including the handle. -/
def State.mboxClear (last : Nat) (s : State) : State × Nat × List Nat :=
  match s.ev.log.findIdx? (fun r => r.handle == last) with
  | none => (s, 0x89, [])
  | some i => ({ s with ev := { s.ev with log := s.ev.log.drop (i + 1) } }, stDone, [])
/-- CLEAR_EVENTS (R603). -/
def execClearEvents (last : Nat) (s : State) : Res := .next (s.mgmtMbox 5 false (State.mboxClear last))

/-- MBOX_UNKNOWN_OPCODE (R604). -/
def execMboxUnknownOpcode (opcode : Nat) (s : State) : Res :=
  .next (s.mgmtMbox opcode false (fun s => (s, 0x80, [])))

/-! Pins and indicators that follow from State (R613, R618, R623). -/

/-- SB_ALERT_N is low: the management event log holds an unread record (R613). -/
def State.alertLow (s : State) : Bool := s.ev.log.any (fun r => decide (s.ev.seen < r.handle))
/-- MOD_PWRGD is released high (R613, R618). -/
def State.pwrgd (s : State) : Bool := s.rdB .hupStatus 3 && !s.handover && s.rdF .strStartState 0 4 != 8
/-- What the status indicator shows: colour and blinking in quarter Hz, 0 steady (R623); none is off. -/
inductive Lamp where
  | off | amber (quarterHz : Nat) | green (quarterHz : Nat)
  deriving DecidableEq, Repr
/-- The module status indicator (R623). -/
def State.lamp (s : State) : Lamp :=
  let ph := s.rdF .strStartState 0 4
  if s.rdF .hupStatus 0 3 = 3 then .amber 16
  else if s.rdF .hupStatus 0 3 = 4 || (List.range 12).any (fun n => s.rdF .fwmPState 0 2 n == 2) || (List.range 8).any (fun k => s.rdF .hbcStackState (4 * k) 2 k == 2)
      || (List.range 4).any (fun g => s.rdF .lpcGroupState (4 * g) 2 == 3) || s.rdF .carArrayState 0 2 == 3 then .amber 0
  else if ph ≤ 5 ∨ ph = 7 then .green 4
  else if ph = 8 then .off
  else if s.rdF .pwrState 0 2 ≠ 0 then .green 1
  else .green 0

end Sys2Proof.Machine
end

