-- ==== Sys2Proof/Machine/RegRead.lean ====
section
/-! DEFINITION. What a register reads as, and reads through the register views (00 R8 to R17; R119, R172 to R176, R186, R491 to R495, R560). -/

namespace Sys2Proof.Machine

/-! Registers whose value follows from the rest of State. -/

/-- PRT_STATE (R174). -/
def State.prtStateWord (s : State) (p : Nat) : Word :=
  let w := s.rd .prtState p
  let w := setFld (setFld w 6 1 (if s.shwOwner = some p then 1 else 0)) 7 1 (if s.durable p then 1 else 0)
  setFld w 8 4 (if s.img.inForce.isSome then p else 0)

/-- Byte k of PRT_BIND n describes pair 4n + k (R175). -/
def State.bindWord (s : State) (n : Nat) : Word :=
  BitVec.ofNat 64 ((List.range 4).foldl (fun a k => a + (match Store.get none (4 * n + k) s.binding with | none => 0 | some p => (128 + p % 16) * 256 ^ k)) 0)

/-- A word of isolation entry 64 × p + r (R157). -/
def State.isoWord (s : State) (e w : Nat) : Word :=
  match Store.get none e s.iso with
  | none => 0
  | some x =>
    let attr := match x.attr with | .priv => 0 | .shared => 1 | .frozen => 2 | .window => 3
    let page (a bits : Nat) : Nat := a / 65536 % 2 ^ bits * 65536
    BitVec.ofNat 64 (
      if w = 0 then e / 64 % 16 + attr * 2 ^ 4 + 2 ^ 6 + x.owner % 16 * 2 ^ 8 + e % 16 * 2 ^ 12 + page x.base 36
      else if w = 1 then page (x.base + x.len) 36
      else if w = 2 then page x.target 31
      else x.matches48 % 2 ^ 48 + (if x.wrapped then 2 ^ 48 else 0))

/-- QD_STATUS (R492). -/
def State.qdStatusWord (s : State) (q : Nat) : Word :=
  let l := (s.queue q).descs
  let held := match s.queueOwner q with | none => false | some p => s.rdB .prtQuiesceCtrl 0 p || s.quarantined p
  let w := setFld (s.rd .qdStatus q) 1 1 (if l.isEmpty then 1 else 0)
  setFld (setFld w 5 1 (if held then 1 else 0)) 8 4 (l.filter (fun (d : DescSt) => d.started)).length

/-- SO_LOCK (R493). -/
def State.lockWord (s : State) (k : Nat) : Word :=
  let o := s.obj k
  BitVec.ofNat 64 (o.lock % 4 + (if o.waits.any (fun (w : SyncWait) => w.kind == .lock) then 4 else 0) + (if o.lock = 1 then o.owner % 65536 * 65536 else 0))

/-- A 48-bit event counter kept as a number (R18). -/
def cntWord (n : Nat) : Word := BitVec.ofNat 64 (n % 2 ^ 48 + (if 2 ^ 48 ≤ n then 2 ^ 48 else 0))

/-- Cost of a side over the last 10 µs in GB/s (R519). -/
def State.sideBw (s : State) (p side : Nat) : Nat :=
  min 65535 (((List.range 4).foldl (fun a c => a + recentSum s.time (Store.get [] (recentKey p side c) s.qos.recent)) 0) / 10000)

/-- QOS_P_STATE (R520). -/
def State.qosStateWord (s : State) (p : Nat) : Word :=
  let full (h : Nat) : Nat := if 0 < s.dirShare p ∧ s.dirShare p ≤ s.dirUsed p h then 1 else 0
  let beyond (side : Nat) : Nat := if s.overBudget p side then 1 else 0
  let w := setFld (setFld (setFld (setFld (s.rd .qosPState p) 0 1 (beyond 0)) 1 1 (beyond 1)) 2 1 (full 0)) 3 1 (full 1)
  setFld w 4 4 ((List.range 4).foldl (fun a c => if c < (s.qosRec p).classes.length ∧ s.belowFloor p c then a + 2 ^ c else a) 0)

/-- Stored bytes that a rebuild has still to send (R540, R542). -/
def State.rebuildLeft (s : State) (p : Nat) : Nat :=
  match (s.mirPart p).rebuildPtr with
  | none => 0
  | some f => (s.framesOf p).foldl (fun a e => if f ≤ e.1 then a + 64 * s.runLen e.2 else a) 0

/-- The value of a register (R9, R11, R14). -/
def State.regWord (s : State) (r : RegId) : Word :=
  match r.name with
  | .prtState => s.prtStateWord r.i
  | .prtBind => s.bindWord r.i
  | .prtIso => s.isoWord r.i r.j
  | .qdStatus => s.qdStatusWord r.i
  | .queQOwner => match s.queueOwner r.i with | none => 0 | some p => BitVec.ofNat 64 (16 + p)
  | .soValue => (s.obj r.i).value
  | .soLock => s.lockWord r.i
  | .soTarget => BitVec.ofNat 64 (s.obj r.i).target
  | .soWaits => BitVec.ofNat 64 (min 65535 (s.obj r.i).waits.length)
  | .synOShare => BitVec.ofNat 64 (s.obj r.i).share
  | .lnsSlotsFree => BitVec.ofNat 64 (s.slotsFree 0 + 65536 * s.slotsFree 1)
  | .lnsPOccT0 => BitVec.ofNat 64 (s.occ r.i 0)
  | .lnsPOccT1 => BitVec.ofNat 64 (s.occ r.i 1)
  | .lnsPOccT2 => BitVec.ofNat 64 (s.occ r.i 2)
  | .lnsPMapped => BitVec.ofNat 64 (s.mapped r.i)
  | .lnsPDebt => BitVec.ofNat 64 (s.debt r.i)
  | .lnsPReserved => BitVec.ofNat 64 (s.reserved r.i)
  | .lnsPSlots => BitVec.ofNat 64 (s.slotsAll r.i 0 + 65536 * s.slotsAll r.i 1)
  | .tirDirtyTotal => BitVec.ofNat 64 s.dirtyTotal
  | .tirMigActive => BitVec.ofNat 64 (s.migActive 0 + 65536 * s.migActive 1)
  | .tirMapHits => cntWord s.tier.mapHits
  | .tirMapMisses => cntWord s.tier.mapMisses
  | .tirPReplT0 => BitVec.ofNat 64 (s.replOcc r.i 0)
  | .tirPReplT1 => BitVec.ofNat 64 (s.replOcc r.i 1)
  | .tirPPinnedT0 => BitVec.ofNat 64 (s.pinned r.i).1
  | .tirPPinnedT1 => BitVec.ofNat 64 (s.pinned r.i).2
  | .tirPDirty => BitVec.ofNat 64 (s.dirty r.i)
  | .lpcExclNight => BitVec.ofNat 64 (s.exclBytes (s.rdF .lpcPasr 0 8))
  | .lpcExclEclipse => BitVec.ofNat 64 (s.exclBytes (s.rdF .lpcPasr 8 8))
  | .eccWbPending => BitVec.ofNat 64 ((s.lens.wb.filter (fun x => x.1 == 0)).length + 65536 * (s.lens.wb.filter (fun x => x.1 == 1)).length)
  | .qosPState => s.qosStateWord r.i
  | .qosPHostBw => BitVec.ofNat 64 (s.sideBw r.i 0)
  | .qosPCompBw => BitVec.ofNat 64 (s.sideBw r.i 1)
  | .carRestripeLeft => BitVec.ofNat 64 s.exposedAll
  | .carBLive => BitVec.ofNat 64 (16384 * s.liveOn r.i)
  | .carPKey => setFld (s.rd .carPKey r.i) 2 1 (if s.oldInUse r.i then 1 else 0)
  | .mirPRebuildLeft => BitVec.ofNat 64 (s.rebuildLeft r.i)
  | .pwrState => setFld (s.rd .pwrState) 12 1 (if s.retention then 1 else 0)
  | _ => s.regs.read r

/-- Bits that no rule and no command of the table determines: temperatures, wear, whether a button is held now (log 56). -/
def measuredBits : RegName → Nat
  | .lpcCTemp => 0x3FF
  | .hbcSTemp => 0x3FF
  | .flcCWear => 0xFFFFFFFF
  | .carBSlotStatus => 0x4
  | _ => 0

/-- Replayed flits of a link (R144): an error counter (R18); how many were replayed since its last read is a free number (log 56). -/
def State.countReplays (s : State) (link : Nat) : State :=
  let (v, s) := s.nextFree
  s.incErr .lnkErrCorr link v

/-- Read a register's value; measured bits take a free value. -/
def State.regRead (s : State) (r : RegId) : State × Word :=
  let s := if r.name = .lnkErrCorr then s.countReplays r.i else s
  let m := measuredBits r.name
  if m = 0 then (s, s.regWord r) else
  let (v, s) := s.nextFree
  (s, (s.regWord r &&& ~~~(BitVec.ofNat 64 m)) ||| (BitVec.ofNat 64 v &&& BitVec.ofNat 64 m))

/-! Views (R8, R119, R172). -/

/-- Where an access falls: a register and the byte offset inside it; bytes of a memory window; the MSI-X table and the PBA of an LD; a standard register whose content is another specification's;
a fixed value; the PCI Express Device Control register of an LD; a register that reads 0 and ignores writes, by width; nothing assigned in a block; outside every block; a link that answers with Configuration Retry Status;
a view that does not answer at all. -/
inductive Target where
  | reg (r : RegId) (byte : Nat)
  | staging (off : Nat)
  | mbox (off : Nat)
  | window (off : Nat)
  | msixTable (link ld off : Nat)
  | msixPba (link ld off : Nat)
  | foreign
  | devCtrl (link ld : Nat)
  | fixed (v : Nat)
  | blank (width : Nat)
  | hole
  | outside
  | retry
  | silent
  deriving DecidableEq, Repr

/-- The management view (R8). In Eclipse nothing that carries an access is powered. -/
def State.mgmtTarget (s : State) (off : Nat) : Target :=
  if s.rdF .pwrState 0 2 = 3 then .silent
  else if 2 ^ 24 ≤ off then .outside
  else if 0x80000 ≤ off ∧ off < 0x100000 then .staging (off - 0x80000)
  else if 0xE02000 ≤ off ∧ off < 0xE02000 + 4112 then .mbox (off - 0xE02000)
  else match lookupMgmt off with | some (r, b) => .reg r b | none => .hole

/-- An offset in the first 16 MiB of BAR0 (R112, R172): the MSI-X table of 2,048 vectors and the PBA, at places that the spec does not give (free, log 65), and CXL 3.1's component registers. -/
def stdTarget (link ld off : Nat) : Target :=
  let t := Config.msixTableAt % 2 ^ 20 * 8
  let b := 2 ^ 23 + Config.msixPbaAt % 2 ^ 20 * 8
  if t ≤ off ∧ off < t + 32768 then .msixTable link ld (off - t)
  else if b ≤ off ∧ off < b + 256 then .msixPba link ld (off - b)
  else .foreign

/-- BAR0 of an LD (R117, R172, R186, R460, R493). -/
def State.ldTarget (s : State) (link ld off : Nat) : Target :=
  if s.linkState link = 7 then .outside
  else if !s.linkCarries link then .silent
  else if 0x4000000 ≤ off then .outside
  else match s.bound link ld with
    | none => .hole
    | some p =>
      if 0x3F00000 ≤ off then .window (off - 0x3F00000)
      else if off < 0x1000000 then stdTarget link ld off else
      match lookupIn mapRows19 off, (s.part p).cfg with
      | some (r, b), some c =>
        match r.name with
        | .soValue | .soLock | .soTarget | .soWaits => if r.i < c.syncCount then .reg { r with i := c.syncBase + r.i } b else .blank r.name.row.width
        | .shwIndexLo | .shwIndexHi | .shwStat | .shwSelected => if s.shwOwner = some p then .reg r b else .blank 32
        | .qdTail | .qdHead | .qdStatus | .qdCtrl | .qdRingBase | .qdSeed | .qdLaunchNo | .qdGlare | .qdSpill | .qdDone | .qdFailed =>
          if r.i < c.queueCount then .reg { r with i := c.queueBase + r.i } b else .blank r.name.row.width
        | _ => .reg { r with i := p } b
      | _, _ => .hole

/-- A link that cannot carry a configuration access yet: while it trains the module returns Configuration Retry Status (R94); a link that is down or disabled carries nothing. -/
def State.cfgClosed (s : State) (link : Nat) : Option Target :=
  if s.linkState link = 1 then some .retry else if s.linkGone link then some .silent else none

/-- The rate-mode DVSEC of a link (R119); its next-capability pointer reads 0 (DESIGN CHOICE, log 73). -/
def State.cfgTarget (s : State) (link off : Nat) : Target :=
  if let some t := s.cfgClosed link then t
  else if off = 0 then .fixed 0x00010023 else if off = 4 then .fixed 0x02001D3C else if off = 8 then .fixed 0x0B64
  else if 0x20 ≤ off then .outside
  else match lookupIn mapRows20 off with | some (r, b) => .reg { r with i := link } b | none => .hole

/-- PCI Express Device Control as it reads: Max_Payload_Size 512 bytes and Max_Read_Request_Size (R112). -/
def State.devCtrlWord (s : State) (link ld : Nat) : Nat := 2 * 2 ^ 5 + Nat.log2 ((s.ld link ld).mrrs / 128) * 2 ^ 12

/-- The PCI Express capability of an LD (offsets 0x000 on) and its CXL DVSEC (0x100 on) as PCIe 7.0 and CXL 3.1 lay them out (PRESUMED, log 65): what R95 and R112 advertise there, and MRRS (R475). -/
def State.capTarget (s : State) (link ld off : Nat) : Target :=
  if let some t := s.cfgClosed link then t
  else if off = 4 then .fixed (2 + 2 ^ 28)
  else if off = 8 then .devCtrl link ld
  else if off = 0x24 then .fixed (0xF + 2 ^ 16 + 2 ^ 17)
  else if off = 0x11C then .fixed (1 + (if (s.ld link ld).memActive then 2 else 0) + 2 * 2 ^ 13)
  else if off < 0x200 then .foreign
  else .outside

/-- Where a requester's access falls. -/
def State.target (s : State) (req : Req) (off : Nat) : Target :=
  match req with
  | .mgmt => s.mgmtTarget off
  | .ld link ld => s.ldTarget link ld off
  | .cfg link _ => s.cfgTarget link off
  | .std link ld => s.capTarget link ld off

/-- A requester's code (R12). -/
def reqCode (req : Req) : Nat :=
  match req with
  | .mgmt => 0
  | .ld link ld => 1 + 16 * link.val + ld.val
  | .cfg link ld => 1024 + 32 * link.val + (match ld with | none => 16 | some d => d.val)
  | .std link ld => 2048 + 16 * link.val + ld.val
/-- Key of what a requester has latched or held for a register (R12, R13). -/
def accKey (req : Req) (r : RegId) : Nat := reqCode req * 2 ^ 40 + r.key

/-- An access of a size the views take (R10): naturally aligned, 4 bytes, or 8 bytes. -/
def sizeOk (off size : Nat) : Bool := decide ((size = 4 ∨ size = 8) ∧ off % size = 0)

/-- RC fields of a register in a requester's view: read-only copies clear nothing (R15, R186, R494). -/
def clearMask (req : Req) (r : RegId) : Nat :=
  match req, r.name with
  | .mgmt, .shwStat => 0
  | .mgmt, .qdStatus => 0
  | _, n => n.row.rc

/-- Clear a register's RC fields that lie in `bits` (R15). -/
def State.readClears (s : State) (req : Req) (r : RegId) (bits : Nat) : State :=
  let m := clearMask req r &&& bits
  if m = 0 then s else { s with regs := s.regs.write r (s.regs.read r &&& ~~~(BitVec.ofNat 64 m)) }

/-- Read a register through a view (R10 to R15); none is Unsupported Request. -/
def State.regAccess (s : State) (req : Req) (r : RegId) (byte size : Nat) : State × Option Nat :=
  let k := accKey req r
  if r.name.row.width = 32 then
    if size ≠ 4 ∨ byte ≠ 0 then (s, none) else
    let (s, v) := s.regRead r
    (s.readClears req r (2 ^ 32 - 1), some (v.toNat % 2 ^ 32))
  else if size = 8 then
    let (s, v) := s.regRead r
    let s := { s with acc := { s.acc with lo := Store.set none k none s.acc.lo } }
    (s.readClears req r (2 ^ 64 - 1), some v.toNat)
  else if byte = 0 then
    let (s, v) := s.regRead r
    let s := { s with acc := { s.acc with latch := Store.set 0 k (BitVec.ofNat 32 (v.toNat / 2 ^ 32)) s.acc.latch } }
    (s.readClears req r (2 ^ 32 - 1), some (v.toNat % 2 ^ 32))
  else (s, some (Store.get 0 k s.acc.latch).toNat)

/-- An aligned access of 4 bytes: what R10 takes where no 64-bit register stands, as in the staging window and the mailbox data area. -/
def wordOk (off size : Nat) : Bool := decide (size = 4 ∧ off % 4 = 0)

/-- A byte of an LD's PBA: bit v % 8 of byte v / 8 tells that vector v is held (R134). -/
def State.pbaByte (s : State) (link ld i : Nat) : Byte :=
  BitVec.ofNat 8 ((s.ld link ld).pba.foldl (fun a v => if v / 8 = i then a + 2 ^ (v % 8) else a) 0)

/-- Where a target is silent: no completion. Otherwise a value, Unsupported Request, or Configuration Retry Status. -/
inductive Answer where
  | value (v : Nat)
  | unsupported
  | retry
  | silent
  deriving DecidableEq, Repr

/-- A read through a view (R10 to R17). -/
def State.readAccess (s : State) (req : Req) (off size : Nat) : State × Answer :=
  match s.target req off with
  | .silent => (s, .silent)
  | .retry => (s, .retry)
  | .outside => (s, .unsupported)
  | .window _ => (s, .unsupported)
  | .msixTable k d o => if sizeOk o size then (s, .value ((s.ld k d).msixTable.readN o size)) else (s, .unsupported)
  | .msixPba k d o => if sizeOk o size then (s, .value (ofBytes ((List.range size).map (fun i => s.pbaByte k d (o + i))))) else (s, .unsupported)
  | .foreign => if sizeOk off size then (let (v, s) := s.nextFree; (s, .value (v % 256 ^ size))) else (s, .unsupported)
  | .devCtrl k d => if size = 4 ∧ off % 4 = 0 then (s, .value (s.devCtrlWord k d)) else (s, .unsupported)
  | .fixed v => if size = 4 ∧ off % 4 = 0 then (s, .value v) else (s, .unsupported)
  | .blank w => if sizeOk off size ∧ (size = 4 ∨ w = 64) then (s, .value 0) else (s, .unsupported)
  | .hole => if size = 4 ∧ off % 4 = 0 then (s, .value 0) else (s, .unsupported)
  | .staging o => if wordOk o size then (s, .value (ofBytes ((List.range size).map (fun i => s.stageByte (o + i))))) else (s, .unsupported)
  | .mbox o => if wordOk o size ∧ o + size ≤ 4112 then (s, .value (s.fw.mbox.readN o size)) else (s, .unsupported)
  | .reg r b =>
    if !sizeOk off size then (s, .unsupported)
    else match s.regAccess req r b size with
      | (s, some v) => (s, .value v)
      | (s, none) => (s, .unsupported)

/-- Send what an access answers. -/
def State.answer (s : State) (req : Req) (off : Nat) : Answer → State
  | .value v => s.send (.regValue req off v)
  | .unsupported => s.send (.unsupported req off)
  | .retry => s.send (.cfgRetry req off)
  | .silent => s

/-- A read of the shadow window goes by its own rules (R180); every other read by R10 to R17. -/
def State.readFor (s : State) (req : Req) (off size : Nat) : State :=
  match s.readAccess req off size with
  | (s, a) => s.answer req off a

/-- READ_LO_LATCH (R12): a 4-byte read. -/
def execReadLoLatch (req : Req) (off : Nat) (s : State) : Res := .next (s.readFor req off 4)
/-- READ_CLEAR (R15): a read; RC fields clear. -/
def execReadClear (req : Req) (off size : Nat) (s : State) : Res := .next (s.readFor req off size)

end Sys2Proof.Machine
end

