-- ==== Sys2Proof/Machine/RegWrite.lean ====
section
/-! DEFINITION. Writes through the register views and what each starts, the mailbox registers, FE accesses, work held for restarts and for Night
(00 R8 to R17; R560, R590, R602, R603, R610). -/

namespace Sys2Proof.Machine

/-! Updates of a register. `v` is the value written, `act` the bits that are written: a half that is not written keeps its RW fields, and none of its W1C or W1S fields is acted on (R13). -/

/-- A number with the bits of `act` taken from `v`. -/
def blend (old v act : Nat) : Nat := (v &&& act) ||| (old &&& (act ^^^ (2 ^ 64 - 1)))

/-- A field of what is written, of bits that all lie in `act`; where they do not, nothing is written there. -/
def wrote (v act : Nat) (b : Nat) : Bool := act.testBit b && v.testBit b

/-- A value brought to the nearer limit. -/
def nearer (lo hi v : Nat) : Nat := min hi (max lo v)

/-- RW and RWS fields stored, W1C bits cleared, as the field table gives them (R15). -/
def State.plainWrite (s : State) (r : RegId) (v act : Nat) : State :=
  let old := (s.regs.read r).toNat
  let row := r.name.row
  let rw := (row.rw ||| row.rws) &&& act
  let cleared := old &&& ((v &&& row.w1c &&& act) ^^^ (2 ^ 64 - 1))
  { s with regs := s.regs.write r (BitVec.ofNat 64 (blend cleared v rw)) }

/-- The field of `len` bits at `lo` after a write, before it is stored. -/
def State.newField (s : State) (r : RegId) (v act lo len : Nat) : Nat := blend (s.regs.read r).toNat v act / 2 ^ lo % 2 ^ len

/-- LNK_CTRL (R124, R126, R146). -/
def State.writeLnkCtrl (s : State) (k v act : Nat) : State :=
  let r : RegId := ⟨.lnkCtrl, k, 0⟩
  let was := s.rdB .lnkCtrl 9 k
  let s := (s.plainWrite r v act).wrB .lnkCtrl 9 was k
  let on := s.newField r v act 9 1 == 1
  let s := if on && !was then s.disableLink k else if was && !on then s.enableLink k else s
  let s := s.capWidth k
  if wrote v act 8 then s.retrain k else s

/-- CYL_RATE_CTRL (R120 to R124): writable in LD 0 of a single-logical link, and through the fabric manager API on a multi-logical one. -/
def State.writeRateCtrl (s : State) (req : Req) (k v act : Nat) : State :=
  let may := match req with
    | .cfg _ none => (s.link k).mld
    | .cfg _ (some d) => !(s.link k).mld && d.val == 0
    | _ => false
  if !may then s else
  let s := (s.plainWrite ⟨.cylRateCtrl, k, 0⟩ v act).armUpdate k
  if wrote v act 1 then s.rateRetry k else s

/-- PRT_QUIESCE_CTRL (R162 to R165, R176). -/
def State.writeQuiesce (s : State) (p v act : Nat) : State :=
  let on := s.newField ⟨.prtQuiesceCtrl, p, 0⟩ v act 0 1 == 1
  let was := s.rdB .prtQuiesceCtrl 0 p
  let s := if on && !was then s.quiesceOn p else if was && !on then s.quiesceOff p else s
  if wrote v act 1 then s.quiesceAbort p else s

/-- PRT_QUAR_CTRL (R168, R170, R171, R176): RELEASE does what LIFT does and more, and both act on a quarantine that held before the write. -/
def State.writeQuar (s : State) (p : PartId) (v act : Nat) : State :=
  let was := s.rdB .prtState 4 p
  let s := if wrote v act 0 then s.quarantineReq p else s
  if !was then s else if wrote v act 2 then s.release p else if wrote v act 1 then s.lift p else s

/-- A flip-mask register (R348). Cluster decoders have none. -/
def State.writeFlip (s : State) (r : RegId) (v act : Nat) : State :=
  if r.name = .lnsUFlipMask ∧ 16 ≤ r.i then s else
  let s := s.plainWrite r v act
  let s := if wrote v act 63 && s.rdB .eccCtrl 0 then s.wrB r.name 63 true r.i else s
  if wrote v act 62 then s.wrB r.name 63 false r.i else s

/-- CAR_B_SLOT_CTRL (R316, R318, R326); its W1S bits stay set while their action runs (R15; DEDUCED, log 90). -/
def State.writeSlotCtrl (s : State) (b v act : Nat) : State :=
  let s := s.plainWrite ⟨.carBSlotCtrl, b, 0⟩ v act
  let s := if s.rdF .carBSlotCtrl 0 2 b = 3 then s.wrF .carBSlotCtrl 0 2 0 b else s
  let s := if wrote v act 2 then s.powerOnCmd b else s
  let s := if wrote v act 3 then s.removeCmd b else s
  if wrote v act 4 then s.slotAbort b else s

/-- MIR_P_CTRL (R526, R535 to R539, R543). -/
def State.writeMirCtrl (s : State) (p : PartId) (v act : Nat) : State :=
  let s := if !wrote v act 0 then s else if s.fpDown 10 || s.fpDown 11 then (s.wrB .mirPCtrl 0 true p).fpWait (.promote p) else s.promoteCmd p
  let s := if wrote v act 1 then s.unfence p else s
  let s := if wrote v act 2 then s.switchCmd p else s
  let s := if wrote v act 3 then s.detachCmd p else s
  let s := if wrote v act 4 then s.attachCmd p else s
  let s := if wrote v act 5 then s.demoteCmd p else s
  if wrote v act 6 then s.snapshotCmd p else s

/-- A field stored as the nearer limit (R224, R294, R519). -/
def State.writeLimits (s : State) (r : RegId) (v act len lo hi : Nat) : State :=
  { s with regs := s.regs.write r (BitVec.ofNat 64 (nearer lo hi (s.newField r v act 0 len))) }

/-- CMP_P_REFLECT (R417). -/
def State.writeReflect (s : State) (r : RegId) (v act : Nat) : State :=
  let l := s.newField r v act 0 5
  let t := s.newField r v act 8 5
  { s with regs := s.regs.write r (BitVec.ofNat 64 ((if l = 0 then 0 else nearer 4 16 l) + 256 * nearer 1 24 t)) }

/-- What a completed update of a register does (R15). `req` is who writes. STR_LOAD_CTRL with START and CLEAR_PENDING both 1 starts the load first, so that the second is ignored (R85; DESIGN CHOICE, log 60). -/
def State.regWrite (s : State) (req : Req) (r : RegId) (v act : Nat) : State :=
  let p : PartId := Fin.ofNat 16 r.i
  match r.name with
  | .strLoadCtrl => let s := if wrote v act 0 then s.loadStart else s; if wrote v act 1 then s.clearPend else s
  | .strKeyRevoke => s.revoke ((v &&& act) % 16)
  | .strResetCtrl => if wrote v act 1 then s.shutdownCmd else if wrote v act 0 then s.warmWrite else s
  | .lnkCtrl => s.writeLnkCtrl r.i v act
  | .lnkEvent => let s := s.plainWrite r v act; if wrote v act 1 then s.clrB .cylRateStatus 8 r.i else s
  | .cylRateCtrl => s.writeRateCtrl req r.i v act
  | .cylRateStatus => let s := s.plainWrite r v act; if wrote v act 8 then s.clrB .lnkEvent 1 r.i else s
  | .prtQuiesceCtrl => s.writeQuiesce r.i v act
  | .prtQuarCtrl => s.writeQuar p v act
  | .prtLivenessTimeout => s.livenessTimeout r.i (s.newField r v act 0 14)
  | .prtLiveness => s.liveness r.i v
  | .prtFeatHost => s.feWrite r v
  | .prtFeatCtrl => s.feWrite r v
  | .shwIndexLo => s.shwWriteLo v
  | .shwIndexHi => s.shwWriteHi ((s.shwOwner).getD 0) v
  | .qdTail => match req, s.queueOwner r.i with
    | .ld link ld, some o => s.doorbell o r.i link ld v
    | _, _ => s
  | .qdCtrl => match s.queueOwner r.i with | some o => s.writeQdCtrl o r.i v | none => s
  | .qdRingBase => match s.queueOwner r.i with | some o => s.writeRingBase o r.i (s.newField r v act 0 64) | none => s
  | .qdSeed => match s.queueOwner r.i with | some o => s.writeSeed o r.i (BitVec.ofNat 64 (s.newField r v act 0 64)) | none => s
  | .soTarget => (s.setObj r.i { s.obj r.i with target := v % 2 ^ 32 }).shipObj r.i
  | .synOShare => s.writeShare r.i v
  | .lnsMergeAge => s.writeLimits r v act 10 5 1000
  | .lnsPressure => (s.writeLimits r v act 13 64 2048).boundsUpdate
  | .lnsPWatermark => s.writeWatermark r.i v
  | .lnsPFlushCtrl => if wrote v act 0 then s.partFlush r.i else s
  | .lnsUFlipMask => s.writeFlip r v act
  | .lpcCFlipMask => s.writeFlip r v act
  | .hbcSFlipMask => s.writeFlip r v act
  | .flcCFlipMask => s.writeFlip r v act
  | .tirMapCtrl => if wrote v act 0 then s.readMap else s
  | .hbcRhThresh => s.writeLimits r v act 16 512 65535
  | .lpcRhThresh => s.writeLimits r v act 16 512 65535
  | .hbcRhDelay => s.writeLimits r v act 10 50 1000
  | .lpcRhDelay => s.writeLimits r v act 10 50 1000
  | .lpcRebuildCtrl => [0, 1].foldl (fun (s : State) h => if wrote v act h && !s.rdB .lpcRebuildCtrl h then s.rebuildStart h else s) s
  | .carCtrl => if wrote v act 0 then s.restripeCmd else s
  | .carBSlotCtrl => s.writeSlotCtrl r.i v act
  | .cmpPReflect => s.writeReflect r v act
  | .qosMigReserve => s.writeLimits r v act 7 4 64
  | .qosAgeUs => s.writeLimits r v act 8 5 200
  | .mirPCtrl => s.writeMirCtrl p v act
  | .pwrReq => if wrote v act 4 then (if s.rdF .pwrState 0 2 = 3 ∧ !s.rdB .pwrState 7 then s else (s.wrF .pwrReq 0 2 (v % 4)).wrB .pwrState 6 false) else s.powerReq (v % 4)
  | .pwrCtrl => let s := s.plainWrite r v act; if 2 ≤ s.rdF .pwrCtrl 0 2 then s.wrF .pwrCtrl 0 2 1 else s
  | .hupCtrl => if wrote v act 0 then s.capTest else s
  | .fwmPCtrl => if wrote v act 0 then s.fpRestart r.i stDone true else s
  | _ => s.plainWrite r v act

/-! The mailbox registers (R602, R603, R610). -/

/-- Block and offset of an event register within its block or set (R605). -/
def regPlace (n : RegName) : Nat × Nat :=
  match (List.range 19).findSome? (fun b => ((mapRows b).find? (fun m => m.name == n)).map (fun m => (b, if 1 < m.ni then m.base % m.si else m.base))) with
  | some x => x
  | none => (2, 0)

/-- The 128 bytes of an event record (R605), its common header as CXL 3.1 lays it out (log 57). -/
def EvRec.bytes (r : EvRec) : List Nat :=
  let le (n v : Nat) : List Nat := (bytesOf n v).map (·.toNat)
  let uuid := [0x6c, 0x7a, 0x3b, 0x10, 0x0b, 0x64, 0x4d, 0x2e, 0x9f, 0x31, 0x1d, 0x3c, 0x0b, 0x64, 0x00, 0x01]
  let (b, o) := regPlace r.reg
  let head := uuid ++ [128] ++ le 3 r.log ++ le 2 r.handle ++ le 2 0 ++ le 8 r.at_ ++ List.replicate 16 0
  let body := le 1 b ++ le 1 r.status ++ le 2 o ++ le 1 r.bit ++ le 1 (r.part.getD 255) ++ le 1 (r.link.getD 255) ++ le 1 (r.req.getD 255)
    ++ le 4 r.count ++ le 4 0 ++ le 8 r.addr ++ le 8 r.value ++ (r.args.take 6).flatMap (le 8) ++ List.replicate (48 - 8 * (r.args.take 6).length) 0
  head ++ body

/-- Bytes of the mailbox data area. -/
def State.mboxBytes (s : State) (off n : Nat) : Nat := s.fw.mbox.readN off n

/-- Read Register and Write Register of the mailbox (R603): by R10 to R13, for the management plane. -/
def State.mboxRead (off size : Nat) (s : State) : State × Nat × List Nat :=
  if 2 ^ 24 ≤ off then (s, stRange, []) else
  match s.readAccess .mgmt off size with
  | (s, .value v) => (s, stDone, [v])
  | (s, _) => (s, stAlign, [])

/-! Writes through a view (R10 to R17). -/

/-- Blocks of the management view whose logic stays powered in Night (R556, R560). -/
def nightBlock (off : Nat) : Bool := decide (off < 0x100000) || decide (0xD00000 ≤ off ∧ off < 0xF00000)

/-- Registers that a view only shows (R172, R175, R186, R494, R495). -/
def viewReadOnly (req : Req) (n : RegName) : Bool :=
  match req, n with
  | .mgmt, .qdStatus => true
  | .mgmt, .qdTail => true
  | .mgmt, .shwIndexLo => true
  | .mgmt, .shwIndexHi => true
  | .ld _ _, .prtLivenessTimeout => true
  | _, _ => false

/-- A completed update through a view: held for a block without power in Night, the latest per register (R560). -/
def State.viewWrite (s : State) (req : Req) (off : Nat) (r : RegId) (v act : Nat) : State :=
  if viewReadOnly req r.name then s
  else if req = .mgmt ∧ s.rdF .pwrState 0 2 = 2 ∧ !nightBlock off then
    { s with power := { s.power with heldWr := s.power.heldWr.filter (fun x => x.1 != r) ++ [(r, v, act)] } }
  else s.regWrite req r v act

/-- A write to a register at a byte offset inside it (R10, R13); none is Unsupported Request. -/
def State.regStore (s : State) (req : Req) (off : Nat) (r : RegId) (byte size v : Nat) : Option State :=
  let k := accKey req r
  if r.name.row.width = 32 then (if size = 4 ∧ byte = 0 then some (s.viewWrite req off r (v % 2 ^ 32) (2 ^ 32 - 1)) else none)
  else
    let dropped : State := { s with acc := { s.acc with lo := Store.set none k none s.acc.lo } }
    if size = 8 then some (dropped.viewWrite req off r (v % 2 ^ 64) (2 ^ 64 - 1))
    else if byte = 0 then some { s with acc := { s.acc with lo := Store.set none k (some (BitVec.ofNat 32 v)) s.acc.lo } }
    else match Store.get none k s.acc.lo with
      | some lo => some (dropped.viewWrite req off r (lo.toNat + v % 2 ^ 32 * 2 ^ 32) (2 ^ 64 - 1))
      | none => some (s.viewWrite req off r (v % 2 ^ 32 * 2 ^ 32) ((2 ^ 32 - 1) * 2 ^ 32))

/-- A write through a view, the mailbox's GO apart. -/
def State.writeAccess (s : State) (req : Req) (off size v : Nat) : State × Answer :=
  match s.target req off with
  | .silent => (s, .silent)
  | .retry => (s, .retry)
  | .outside => (s, .unsupported)
  | .window _ => (s, .unsupported)
  | .msixTable k d o => if sizeOk o size then (s.setLd k d { s.ld k d with msixTable := (s.ld k d).msixTable.writeN o size (v % 256 ^ size) }, .silent) else (s, .unsupported)
  | .msixPba _ _ o => if sizeOk o size then (s, .silent) else (s, .unsupported)
  | .foreign => if sizeOk off size then (s, .silent) else (s, .unsupported)
  | .devCtrl k d => if size = 4 ∧ off % 4 = 0 then (s.setLd k d { s.ld k d with mrrs := 128 * 2 ^ min 5 (v / 2 ^ 12 % 8) }, .silent) else (s, .unsupported)
  | .fixed _ => if size = 4 ∧ off % 4 = 0 then (s, .silent) else (s, .unsupported)
  | .blank w => if sizeOk off size ∧ (size = 4 ∨ w = 64) then (s, .silent) else (s, .unsupported)
  | .hole => if size = 4 ∧ off % 4 = 0 then (s, .silent) else (s, .unsupported)
  | .staging o => if wordOk o size then (s.stageWrite o size v, .silent) else (s, .unsupported)
  | .mbox o =>
    if wordOk o size ∧ o + size ≤ 4112 then
      (if s.rdB .fwmMboxStatus 0 then s else { s with fw := { s.fw with mbox := s.fw.mbox.writeN o size (v % 256 ^ size) } }, .silent)
    else (s, .unsupported)
  | .reg r b => if !sizeOk off size then (s, .unsupported) else match s.regStore req off r b size v with | some s => (s, .silent) | none => (s, .unsupported)

/-- Write Register of the mailbox. -/
def State.mboxWrite (off size v : Nat) (s : State) : State × Nat × List Nat :=
  if 2 ^ 24 ≤ off then (s, stRange, []) else
  match s.writeAccess .mgmt off size v with
  | (s, .unsupported) => (s, stAlign, [])
  | (s, _) => (s, stDone, [])

/-- READ_REGISTER (R603). -/
def execReadRegister (off size : Nat) (s : State) : Res := .next (s.mgmtMbox 6 false (State.mboxRead off size))
/-- WRITE_REGISTER (R603). -/
def execWriteRegister (off size val : Nat) (s : State) : Res := .next (s.mgmtMbox 7 false (State.mboxWrite off size val))

/-- Run the request that stands in the data area (R602 to R604): its status, and the reply's payload as bytes. Payload layouts are the model's (log 57). -/
def State.mboxRequest (s : State) : State × Nat × List Nat :=
  let op := s.mboxBytes 0 2
  let len := s.mboxBytes 4 4
  let arg (k n : Nat) : Nat := s.mboxBytes (16 + k) n
  let le (n v : Nat) : List Nat := (bytesOf n v).map (·.toNat)
  let want := if op = 1 then 0 else if op = 2 then 100 else if op = 3 ∨ op = 4 ∨ op = 5 then 4 else if op = 6 then 8 else 16
  if op = 0 ∨ 7 < op then (s, 0x80, [])
  else if len ≠ want then (s, 0x81, [])
  else if (op = 2 ∨ op = 3) ∧ s.handover then (s, 0x87, [])
  else if op = 1 then
    (s, stDone, le 8 (s.rd .fwmVersion).toNat ++ le 4 (s.rd .fwmSecVersion).toNat ++ s.digestBytes .fwmDigest ++ le 8 Config.moduleId.toNat)
  else if op = 2 then
    let key : BitVec 768 := BitVec.ofNat 768 ((List.range 96).foldl (fun a i => 256 * a + arg (4 + i) 1) 0)
    State.mboxOwnerKey (arg 0 4) key s
  else if op = 3 then State.mboxRestart (arg 0 4) s
  else if op = 4 then (match s.takeEvents (arg 0 4) with | (s, l) => (s, stDone, l.flatMap EvRec.bytes))
  else if op = 5 then State.mboxClear (arg 0 4) s
  else if op = 6 then (match State.mboxRead (arg 0 4) (arg 4 4) s with | (s, st, pl) => (s, st, pl.flatMap (le 8)))
  else State.mboxWrite (arg 0 4) (arg 4 4) (arg 8 8) s

/-- The request runs, and the response stands in the data area (R602). -/
def State.mboxRun (s : State) : State :=
  match s.mboxRequest with
  | (s, st, pl) =>
    let m := (s.fw.mbox.writeN 2 1 st).writeN 4 4 pl.length
    let m := m.writeN 16 4096 (ofBytes (pl.map (BitVec.ofNat 8)))
    { s.wr .fwmMboxStatus (BitVec.ofNat 64 (256 * st)) with fw := { s.fw with mbox := m } }.clrB .fwmMboxCtrl 0

/-- GO written 1 (R610, R611): while FP1 restarts the request waits with BUSY set (R591). -/
def State.mboxGo (s : State) : State :=
  if s.rdB .fwmMboxStatus 0 then s
  else if s.fpDown 1 then (s.setB .fwmMboxStatus 0).setB .fwmMboxCtrl 0
  else s.mboxRun

/-- A write by a requester, GO included. -/
def State.writeFor (s : State) (req : Req) (off size v : Nat) : State :=
  if req = .mgmt ∧ off = 0xE01000 ∧ size = 4 ∧ s.rdF .pwrState 0 2 ≠ 3 then (if v % 2 = 1 then s.mboxGo else s)
  else match s.writeAccess req off size v with
    | (s, a) => s.answer req off a

/-- REGISTER_WRITE (R10, R13, R15). -/
def execRegisterWrite (req : Req) (off size val : Nat) (s : State) : Res := .next (s.writeFor req off size val)
/-- WRITE_LO_HELD (R13): a 4-byte write. -/
def execWriteLoHeld (req : Req) (off : Nat) (val : BitVec 32) (s : State) : Res := .next (s.writeFor req off 4 val.toNat)
/-- WRITE_HI_APPLY (R13): a 4-byte write. -/
def execWriteHiApply (req : Req) (off : Nat) (val : BitVec 32) (s : State) : Res := .next (s.writeFor req off 4 val.toNat)
/-- FE_REGISTER_ACCESS (R16, R17): a write, or a read of what firmware last published. -/
def execFeRegisterAccess (req : Req) (off size : Nat) (write : Option Nat) (s : State) : Res :=
  .next (match write with | some v => s.writeFor req off size v | none => s.readFor req off size)

/-! What waited for a processor, and for power (R560, R590). -/

/-- FP_HEARTBEAT (R588, R590): a restart ends with the first heartbeat. -/
def execFpHeartbeat (fp : Fin 12) (s : State) : Res :=
  .next (
    let st := s.rdF .fwmPState 0 2 fp
    if !s.fwRuns ∨ 2 ≤ st then s else
    let s := { s with fw := { s.fw with beats := s.fw.beats.set fp (s.time / 1000000) } }
    if st ≠ 1 then s else
    let s := s.fpResume fp
    if fp.val = 1 ∧ s.rdB .fwmMboxStatus 0 then s.mboxRun else s)

/-- Writes held for blocks without power are applied (R560). -/
def State.heldWrites (s : State) : State :=
  let held := s.power.heldWr
  held.foldl (fun (s : State) x => s.regWrite .mgmt x.1 x.2.1 x.2.2) { s with power := { s.power with heldWr := [] } }

/-- POWER_TRANSITION_DONE (R549, R550, R555 to R558): the running sequence ends. `savedBad`: at an exit the saved state fails its CRC; `resweep`: controllers that must be swept again, `marginal`: the narrow eyes that their sweeps find; `badBanks`: firmware banks that fail verification. -/
def execPowerTransitionDone (savedBad : Bool) (resweep : List Nat) (marginal : List (Nat × Nat × Bool)) (badBanks : BitVec 2) (s : State) : Res :=
  .next (
    let cur := s.rdF .pwrState 0 2
    let t := s.rdF .pwrState 2 2
    if !s.rdB .pwrState 7 || s.entryDraining || s.handover then s else
    let s := if cur < t then s.enterState t else s.leaveState t savedBad resweep marginal badBanks State.heldWrites
    if s.rdF .strStartState 0 4 = 1 then s else (s.pwrResult stDone t).pwrEnd)

end Sys2Proof.Machine
end

