-- ==== Sys2Proof/Machine/Dispatch.lean ====
section
/-! DEFINITION. One arm per command: each calls its meaning. -/

namespace Sys2Proof.Machine

/-- The effect of a command on everything but the queue. -/
def exec (i : Instr) (s : State) : Host.Outcome State Fault Refusal :=
  match i with
  | .registerWrite req off size val => Sys2Proof.Machine.execRegisterWrite req off size val s
  | .readLoLatch req off => Sys2Proof.Machine.execReadLoLatch req off s
  | .writeLoHeld req off val => Sys2Proof.Machine.execWriteLoHeld req off val s
  | .writeHiApply req off val => Sys2Proof.Machine.execWriteHiApply req off val s
  | .readClear req off size => Sys2Proof.Machine.execReadClear req off size s
  | .feRegisterAccess req off size write => Sys2Proof.Machine.execFeRegisterAccess req off size write s
  | .crossingWatchdogExpiry a b since waiting => Sys2Proof.Machine.execCrossingWatchdogExpiry a b since waiting s
  | .crossingAcknowledge a b => Sys2Proof.Machine.execCrossingAcknowledge a b s
  | .hostMemRead link ld tag hpa kind => Sys2Proof.Machine.execHostMemRead link ld tag hpa kind s
  | .hostMemWrite link ld tag hpa data be poison => Sys2Proof.Machine.execHostMemWrite link ld tag hpa data be poison s
  | .hostMemInvalidate link ld tag hpa nt => Sys2Proof.Machine.execHostMemInvalidate link ld tag hpa nt s
  | .eventGatherWindowEnd kind key => Sys2Proof.Machine.execEventGatherWindowEnd kind key s
  | .stagingWrite off size val => Sys2Proof.Machine.execStagingWrite off size val s
  | .imageLoadStart => Sys2Proof.Machine.execImageLoadStart s
  | .imageLoadComplete => Sys2Proof.Machine.execImageLoadComplete s
  | .clearPending => Sys2Proof.Machine.execClearPending s
  | .keyRevoke mask => Sys2Proof.Machine.execKeyRevoke mask s
  | .modRstAssert ns => Sys2Proof.Machine.execModRstAssert ns s
  | .modRstDeassert env => Sys2Proof.Machine.execModRstDeassert env s
  | .warmReset env => Sys2Proof.Machine.execWarmReset env s
  | .shutdown => Sys2Proof.Machine.execShutdown s
  | .shutdownComplete => Sys2Proof.Machine.execShutdownComplete s
  | .flr link ld => Sys2Proof.Machine.execFlr link ld s
  | .ldReset link ld => Sys2Proof.Machine.execLdReset link ld s
  | .perstAssert port ns => Sys2Proof.Machine.execPerstAssert port ns s
  | .perstDeassert port => Sys2Proof.Machine.execPerstDeassert port s
  | .linkUp link partner => Sys2Proof.Machine.execLinkUp link partner s
  | .linkDown link => Sys2Proof.Machine.execLinkDown link s
  | .enable128 link => Sys2Proof.Machine.execEnable128 link s
  | .retry link => Sys2Proof.Machine.execRetry link s
  | .eqFail128 link => Sys2Proof.Machine.execEqFail128 link s
  | .retrain link => Sys2Proof.Machine.execRetrain link s
  | .linkDisable link => Sys2Proof.Machine.execLinkDisable link s
  | .linkEnable link => Sys2Proof.Machine.execLinkEnable link s
  | .l0pWidthChange link m => Sys2Proof.Machine.execL0pWidthChange link m s
  | .aspmL1Entry link substate idleMs => Sys2Proof.Machine.execAspmL1Entry link substate idleMs s
  | .aspmL1Exit link wake => Sys2Proof.Machine.execAspmL1Exit link wake s
  | .ideKeyExchange link ld fresh ok => Sys2Proof.Machine.execIdeKeyExchange link ld fresh ok s
  | .ideCheckFail link => Sys2Proof.Machine.execIdeCheckFail link s
  | .busMasterDisable link ld => Sys2Proof.Machine.execBusMasterDisable link ld s
  | .busMasterEnable link ld => Sys2Proof.Machine.execBusMasterEnable link ld s
  | .cxlioCompletion link tag data => Sys2Proof.Machine.execCxlioCompletion link tag data s
  | .cxlioCompletionTimeout link tag => Sys2Proof.Machine.execCxlioCompletionTimeout link tag s
  | .gpfPhase2 link => Sys2Proof.Machine.execGpfPhase2 link s
  | .fmLdBindUnbind link ld part => Sys2Proof.Machine.execFmLdBindUnbind link ld part s
  | .fmLinkStateQuery link => Sys2Proof.Machine.execFmLinkStateQuery link s
  | .getEventRecords link ld log => Sys2Proof.Machine.execGetEventRecords link ld log s
  | .clearEventRecords link ld log all handles => Sys2Proof.Machine.execClearEventRecords link ld log all handles s
  | .getEventInterruptPolicy link ld => Sys2Proof.Machine.execGetEventInterruptPolicy link ld s
  | .setEventInterruptPolicy link ld policy => Sys2Proof.Machine.execSetEventInterruptPolicy link ld policy s
  | .getFwInfo link ld => Sys2Proof.Machine.execGetFwInfo link ld s
  | .getTimestamp link ld => Sys2Proof.Machine.execGetTimestamp link ld s
  | .setTimestamp link ld ns => Sys2Proof.Machine.execSetTimestamp link ld ns s
  | .getSupportedLogs link ld => Sys2Proof.Machine.execGetSupportedLogs link ld s
  | .getLog link ld log off len => Sys2Proof.Machine.execGetLog link ld log off len s
  | .identifyMemoryDevice link ld => Sys2Proof.Machine.execIdentifyMemoryDevice link ld s
  | .getHealthInfo link ld => Sys2Proof.Machine.execGetHealthInfo link ld s
  | .getAlertConfig link ld => Sys2Proof.Machine.execGetAlertConfig link ld s
  | .setAlertConfig link ld cfg => Sys2Proof.Machine.execSetAlertConfig link ld cfg s
  | .getPoisonList link ld dpa len => Sys2Proof.Machine.execGetPoisonList link ld dpa len s
  | .injectPoison link ld dpa => Sys2Proof.Machine.execInjectPoison link ld dpa s
  | .clearPoison link ld dpa data => Sys2Proof.Machine.execClearPoison link ld dpa data s
  | .getScanMediaCapabilities link ld => Sys2Proof.Machine.execGetScanMediaCapabilities link ld s
  | .scanMedia link ld dpa len => Sys2Proof.Machine.execScanMedia link ld dpa len s
  | .getScanMediaResults link ld => Sys2Proof.Machine.execGetScanMediaResults link ld s
  | .getLostResponses link ld skip => Sys2Proof.Machine.execGetLostResponses link ld skip s
  | .cxlMboxUnsupported link ld opcode => Sys2Proof.Machine.execCxlMboxUnsupported link ld opcode s
  | .quiesceRequest p => Sys2Proof.Machine.execQuiesceRequest p s
  | .partitionQuiesced p => Sys2Proof.Machine.execPartitionQuiesced p s
  | .quiesceLift p => Sys2Proof.Machine.execQuiesceLift p s
  | .quiesceAbort p => Sys2Proof.Machine.execQuiesceAbort p s
  | .prtLivenessWrite link ld val => Sys2Proof.Machine.execPrtLivenessWrite link ld val s
  | .livenessTimeout p => Sys2Proof.Machine.execLivenessTimeout p s
  | .quarantine p => Sys2Proof.Machine.execQuarantine p s
  | .lift p => Sys2Proof.Machine.execLift p s
  | .release p => Sys2Proof.Machine.execRelease p s
  | .shwIndexLoWrite link ld val => Sys2Proof.Machine.execShwIndexLoWrite link ld val s
  | .shwIndexHiWrite link ld val => Sys2Proof.Machine.execShwIndexHiWrite link ld val s
  | .shadowSwapSwitch p => Sys2Proof.Machine.execShadowSwapSwitch p s
  | .shadowWritebackDone p => Sys2Proof.Machine.execShadowWritebackDone p s
  | .shadowWindowAccess link ld off size write => Sys2Proof.Machine.execShadowWindowAccess link ld off size write s
  | .mergeFillArrive p page => Sys2Proof.Machine.execMergeFillArrive p page s
  | .mergeAgeExpiry p page => Sys2Proof.Machine.execMergeAgeExpiry p page s
  | .slotEncodeStart h => Sys2Proof.Machine.execSlotEncodeStart h s
  | .slotCommit p page => Sys2Proof.Machine.execSlotCommit p page s
  | .heldWriteRelease h => Sys2Proof.Machine.execHeldWriteRelease h s
  | .watermarkWrite p val => Sys2Proof.Machine.execWatermarkWrite p val s
  | .partitionFlush p => Sys2Proof.Machine.execPartitionFlush p s
  | .flushComplete who => Sys2Proof.Machine.execFlushComplete who s
  | .relocMoveHome p frame => Sys2Proof.Machine.execRelocMoveHome p frame s
  | .agingEpoch => Sys2Proof.Machine.execAgingEpoch s
  | .sweeperVisit p frame => Sys2Proof.Machine.execSweeperVisit p frame s
  | .moveStart h => Sys2Proof.Machine.execMoveStart h s
  | .moveCopyDone p frame => Sys2Proof.Machine.execMoveCopyDone p frame s
  | .flashReadDataArrive p page => Sys2Proof.Machine.execFlashReadDataArrive p page s
  | .deepMissExpiry link tag => Sys2Proof.Machine.execDeepMissExpiry link tag s
  | .mapRead => Sys2Proof.Machine.execMapRead s
  | .hintPrefetch q n => Sys2Proof.Machine.execHintPrefetch q n s
  | .hintPin q n => Sys2Proof.Machine.execHintPin q n s
  | .hintUnpin q n => Sys2Proof.Machine.execHintUnpin q n s
  | .hintDemote q n => Sys2Proof.Machine.execHintDemote q n s
  | .trainingProbe m moves => Sys2Proof.Machine.execTrainingProbe m moves s
  | .refreshIssue m kind bank => Sys2Proof.Machine.execRefreshIssue m kind bank s
  | .rowhammerWindowEnd => Sys2Proof.Machine.execRowhammerWindowEnd s
  | .lpRebuildStart g => Sys2Proof.Machine.execLpRebuildStart g s
  | .lpRebuildDone g => Sys2Proof.Machine.execLpRebuildDone g s
  | .nandOpTimeout f lun op => Sys2Proof.Machine.execNandOpTimeout f lun op s
  | .flashWaitTimeout who => Sys2Proof.Machine.execFlashWaitTimeout who s
  | .ftlBackgroundWork work => Sys2Proof.Machine.execFtlBackgroundWork work s
  | .restripe => Sys2Proof.Machine.execRestripe s
  | .restripeComplete => Sys2Proof.Machine.execRestripeComplete s
  | .carrierInsert bay => Sys2Proof.Machine.execCarrierInsert bay s
  | .bayButtonPress bay => Sys2Proof.Machine.execBayButtonPress bay s
  | .remove bay => Sys2Proof.Machine.execRemove bay s
  | .removalAbort bay => Sys2Proof.Machine.execRemovalAbort bay s
  | .removalWindowExpiry bay => Sys2Proof.Machine.execRemovalWindowExpiry bay s
  | .evacuationComplete bay => Sys2Proof.Machine.execEvacuationComplete bay s
  | .carrierPowerOn bay => Sys2Proof.Machine.execCarrierPowerOn bay s
  | .powerOnWindowExpiry bay => Sys2Proof.Machine.execPowerOnWindowExpiry bay s
  | .carrierAdopted bay bad => Sys2Proof.Machine.execCarrierAdopted bay bad s
  | .carrierRebuildDone bay => Sys2Proof.Machine.execCarrierRebuildDone bay s
  | .carrierSurpriseRemoval bay => Sys2Proof.Machine.execCarrierSurpriseRemoval bay s
  | .slotOverCurrent bay => Sys2Proof.Machine.execSlotOverCurrent bay s
  | .deferredWritebackOpen h => Sys2Proof.Machine.execDeferredWritebackOpen h s
  | .flipArm unit => Sys2Proof.Machine.execFlipArm unit s
  | .flipDisarm unit => Sys2Proof.Machine.execFlipDisarm unit s
  | .doorbell link ld q tail => Sys2Proof.Machine.execDoorbell link ld q tail s
  | .queueEnable q => Sys2Proof.Machine.execQueueEnable q s
  | .queueDisable q => Sys2Proof.Machine.execQueueDisable q s
  | .qdSeedWrite q seed => Sys2Proof.Machine.execQdSeedWrite q seed s
  | .descFetch q => Sys2Proof.Machine.execDescFetch q s
  | .descNop q n => Sys2Proof.Machine.execDescNop q n s
  | .descLaunch q n => Sys2Proof.Machine.execDescLaunch q n s
  | .descCopy q n => Sys2Proof.Machine.execDescCopy q n s
  | .descFill q n => Sys2Proof.Machine.execDescFill q n s
  | .descScrub q n => Sys2Proof.Machine.execDescScrub q n s
  | .descFlush q n => Sys2Proof.Machine.execDescFlush q n s
  | .descComplete q n => Sys2Proof.Machine.execDescComplete q n s
  | .scrubPassComplete q n => Sys2Proof.Machine.execScrubPassComplete q n s
  | .kernelDispatch p => Sys2Proof.Machine.execKernelDispatch p s
  | .kernelEnd kid cause => Sys2Proof.Machine.execKernelEnd kid cause s
  | .kernelTimeLimit kid => Sys2Proof.Machine.execKernelTimeLimit kid s
  | .libraryActivate => Sys2Proof.Machine.execLibraryActivate s
  | .tEnd core => Sys2Proof.Machine.execTEnd core s
  | .tNop core => Sys2Proof.Machine.execTNop core s
  | .tBra core => Sys2Proof.Machine.execTBra core s
  | .tBeq core => Sys2Proof.Machine.execTBeq core s
  | .tBne core => Sys2Proof.Machine.execTBne core s
  | .tBlt core => Sys2Proof.Machine.execTBlt core s
  | .tBge core => Sys2Proof.Machine.execTBge core s
  | .tBltu core => Sys2Proof.Machine.execTBltu core s
  | .tLps core => Sys2Proof.Machine.execTLps core s
  | .tLpb core => Sys2Proof.Machine.execTLpb core s
  | .tGet core => Sys2Proof.Machine.execTGet core s
  | .tWaitg core => Sys2Proof.Machine.execTWaitg core s
  | .tBar core => Sys2Proof.Machine.execTBar core s
  | .barrierRelease kid scope => Sys2Proof.Machine.execBarrierRelease kid scope s
  | .tAdd core => Sys2Proof.Machine.execTAdd core s
  | .tSub core => Sys2Proof.Machine.execTSub core s
  | .tMul core => Sys2Proof.Machine.execTMul core s
  | .tAnd core => Sys2Proof.Machine.execTAnd core s
  | .tOr core => Sys2Proof.Machine.execTOr core s
  | .tXor core => Sys2Proof.Machine.execTXor core s
  | .tShl core => Sys2Proof.Machine.execTShl core s
  | .tShr core => Sys2Proof.Machine.execTShr core s
  | .tSra core => Sys2Proof.Machine.execTSra core s
  | .tMin core => Sys2Proof.Machine.execTMin core s
  | .tMax core => Sys2Proof.Machine.execTMax core s
  | .tMovhi core => Sys2Proof.Machine.execTMovhi core s
  | .tMovi core => Sys2Proof.Machine.execTMovi core s
  | .tFadd core => Sys2Proof.Machine.execTFadd core s
  | .tFsub core => Sys2Proof.Machine.execTFsub core s
  | .tFmul core => Sys2Proof.Machine.execTFmul core s
  | .tFdiv core => Sys2Proof.Machine.execTFdiv core s
  | .tFsqrt core => Sys2Proof.Machine.execTFsqrt core s
  | .tFfma core => Sys2Proof.Machine.execTFfma core s
  | .tItof core => Sys2Proof.Machine.execTItof core s
  | .tFtoi core => Sys2Proof.Machine.execTFtoi core s
  | .tFlt core => Sys2Proof.Machine.execTFlt core s
  | .tLd core => Sys2Proof.Machine.execTLd core s
  | .tSt core => Sys2Proof.Machine.execTSt core s
  | .tTld core => Sys2Proof.Machine.execTTld core s
  | .tldPageArrive core idx => Sys2Proof.Machine.execTldPageArrive core idx s
  | .tTst core => Sys2Proof.Machine.execTTst core s
  | .tXfer core => Sys2Proof.Machine.execTXfer core s
  | .tMma core => Sys2Proof.Machine.execTMma core s
  | .tCvt core => Sys2Proof.Machine.execTCvt core s
  | .tVopAdd core => Sys2Proof.Machine.execTVopAdd core s
  | .tVopSub core => Sys2Proof.Machine.execTVopSub core s
  | .tVopMul core => Sys2Proof.Machine.execTVopMul core s
  | .tVopFma core => Sys2Proof.Machine.execTVopFma core s
  | .tVopFnma core => Sys2Proof.Machine.execTVopFnma core s
  | .tVopMax core => Sys2Proof.Machine.execTVopMax core s
  | .tVopMin core => Sys2Proof.Machine.execTVopMin core s
  | .tVopDiv core => Sys2Proof.Machine.execTVopDiv core s
  | .tVopSqrt core => Sys2Proof.Machine.execTVopSqrt core s
  | .tVopAbs core => Sys2Proof.Machine.execTVopAbs core s
  | .tVopNeg core => Sys2Proof.Machine.execTVopNeg core s
  | .tVopMov core => Sys2Proof.Machine.execTVopMov core s
  | .tVopClr core => Sys2Proof.Machine.execTVopClr core s
  | .tVopDot core => Sys2Proof.Machine.execTVopDot core s
  | .tVopRsum core => Sys2Proof.Machine.execTVopRsum core s
  | .tVopRmax core => Sys2Proof.Machine.execTVopRmax core s
  | .syncSet src => Sys2Proof.Machine.execSyncSet src s
  | .syncAdd src => Sys2Proof.Machine.execSyncAdd src s
  | .syncWaitGe src => Sys2Proof.Machine.execSyncWaitGe src s
  | .syncWaitEq src => Sys2Proof.Machine.execSyncWaitEq src s
  | .syncCompareAndSwap src => Sys2Proof.Machine.execSyncCompareAndSwap src s
  | .syncLock src => Sys2Proof.Machine.execSyncLock src s
  | .syncUnlock src => Sys2Proof.Machine.execSyncUnlock src s
  | .syncBarrierArrive src => Sys2Proof.Machine.execSyncBarrierArrive src s
  | .syncWaitTimeout src => Sys2Proof.Machine.execSyncWaitTimeout src s
  | .syncShareWrite obj mask => Sys2Proof.Machine.execSyncShareWrite obj mask s
  | .qosWindowEnd p samples => Sys2Proof.Machine.execQosWindowEnd p samples s
  | .bgRateSample busy0 busy1 => Sys2Proof.Machine.execBgRateSample busy0 busy1 s
  | .requestAgeExpiry link tag => Sys2Proof.Machine.execRequestAgeExpiry link tag s
  | .urgPinChange pin asserted => Sys2Proof.Machine.execUrgPinChange pin asserted s
  | .urgPinStuck pin => Sys2Proof.Machine.execUrgPinStuck pin s
  | .mirrorHello m hello => Sys2Proof.Machine.execMirrorHello m hello s
  | .reflectFlitCrcFail m => Sys2Proof.Machine.execReflectFlitCrcFail m s
  | .reflectKeepalive m => Sys2Proof.Machine.execReflectKeepalive m s
  | .reflectLinkTimeout m => Sys2Proof.Machine.execReflectLinkTimeout m s
  | .epochClose p h cause => Sys2Proof.Machine.execEpochClose p h cause s
  | .epochReceived e => Sys2Proof.Machine.execEpochReceived e s
  | .epochAck p h number answer => Sys2Proof.Machine.execEpochAck p h number answer s
  | .partnerFenceTimeout p => Sys2Proof.Machine.execPartnerFenceTimeout p s
  | .partnerTimeout p => Sys2Proof.Machine.execPartnerTimeout p s
  | .promote p => Sys2Proof.Machine.execPromote p s
  | .unfence p => Sys2Proof.Machine.execUnfence p s
  | .switch p => Sys2Proof.Machine.execSwitch p s
  | .switchDrainEnd p => Sys2Proof.Machine.execSwitchDrainEnd p s
  | .detach p => Sys2Proof.Machine.execDetach p s
  | .attach p => Sys2Proof.Machine.execAttach p s
  | .demote p => Sys2Proof.Machine.execDemote p s
  | .snapshot p => Sys2Proof.Machine.execSnapshot p s
  | .mirrorRebuildDone p => Sys2Proof.Machine.execMirrorRebuildDone p s
  | .powerRequest target => Sys2Proof.Machine.execPowerRequest target s
  | .powerCancel => Sys2Proof.Machine.execPowerCancel s
  | .drainEnd => Sys2Proof.Machine.execDrainEnd s
  | .drainTimeoutExpiry => Sys2Proof.Machine.execDrainTimeoutExpiry s
  | .powerTransitionDone savedBad resweep marginal badBanks => Sys2Proof.Machine.execPowerTransitionDone savedBad resweep marginal badBanks s
  | .wakeInband link => Sys2Proof.Machine.execWakeInband link s
  | .wakeSidebandMatch addr => Sys2Proof.Machine.execWakeSidebandMatch addr s
  | .storeMonitorSample smp => Sys2Proof.Machine.execStoreMonitorSample smp s
  | .budgetLimitUpdate => Sys2Proof.Machine.execBudgetLimitUpdate s
  | .capTest => Sys2Proof.Machine.execCapTest s
  | .capTestDone dropMv => Sys2Proof.Machine.execCapTestDone dropMv s
  | .inputBelow40v => Sys2Proof.Machine.execInputBelow40v s
  | .inputGlitch => Sys2Proof.Machine.execInputGlitch s
  | .inputPowerLost => Sys2Proof.Machine.execInputPowerLost s
  | .inputPowerGood => Sys2Proof.Machine.execInputPowerGood s
  | .flushVlowStop => Sys2Proof.Machine.execFlushVlowStop s
  | .holdupFlushDone => Sys2Proof.Machine.execHoldupFlushDone s
  | .thermalTrip => Sys2Proof.Machine.execThermalTrip s
  | .fpHeartbeat fp => Sys2Proof.Machine.execFpHeartbeat fp s
  | .fpHeartbeatMiss fp => Sys2Proof.Machine.execFpHeartbeatMiss fp s
  | .fwRegionFault fp component addr => Sys2Proof.Machine.execFwRegionFault fp component addr s
  | .restart fp => Sys2Proof.Machine.execRestart fp s
  | .powerLoopPeriod smp => Sys2Proof.Machine.execPowerLoopPeriod smp s
  | .spdmRequest code payload => Sys2Proof.Machine.execSpdmRequest code payload s
  | .queryDeviceIdentifiers => Sys2Proof.Machine.execQueryDeviceIdentifiers s
  | .getFirmwareParameters => Sys2Proof.Machine.execGetFirmwareParameters s
  | .requestUpdate n => Sys2Proof.Machine.execRequestUpdate n s
  | .passComponentTable comps => Sys2Proof.Machine.execPassComponentTable comps s
  | .updateComponent c => Sys2Proof.Machine.execUpdateComponent c s
  | .requestFirmwareData len => Sys2Proof.Machine.execRequestFirmwareData len s
  | .transferComplete ok => Sys2Proof.Machine.execTransferComplete ok s
  | .verifyComplete ok => Sys2Proof.Machine.execVerifyComplete ok s
  | .applyComplete ok => Sys2Proof.Machine.execApplyComplete ok s
  | .activateFirmware selfContained => Sys2Proof.Machine.execActivateFirmware selfContained s
  | .getStatus => Sys2Proof.Machine.execGetStatus s
  | .cancelUpdateComponent => Sys2Proof.Machine.execCancelUpdateComponent s
  | .cancelUpdate => Sys2Proof.Machine.execCancelUpdate s
  | .getIdentity => Sys2Proof.Machine.execGetIdentity s
  | .writeOwnerKey slot key => Sys2Proof.Machine.execWriteOwnerKey slot key s
  | .restartProcessor n => Sys2Proof.Machine.execRestartProcessor n s
  | .getEvents skip => Sys2Proof.Machine.execGetEvents skip s
  | .clearEvents last => Sys2Proof.Machine.execClearEvents last s
  | .readRegister off size => Sys2Proof.Machine.execReadRegister off size s
  | .writeRegister off size val => Sys2Proof.Machine.execWriteRegister off size val s
  | .mboxUnknownOpcode opcode => Sys2Proof.Machine.execMboxUnknownOpcode opcode s
  | .negotiate p => Sys2Proof.Machine.execNegotiate p s
  | .mirrorLinkPhyLeavesL0 m => Sys2Proof.Machine.execMirrorLinkPhyLeavesL0 m s
  | .linkEntersRecovery link => Sys2Proof.Machine.execLinkEntersRecovery link s
  | .inputBelow48v => Sys2Proof.Machine.execInputBelow48v s
  | .firmwareFetchFault fp => Sys2Proof.Machine.execFirmwareFetchFault fp s
  | .coreIslandHwClamp => Sys2Proof.Machine.execCoreIslandHwClamp s

end Sys2Proof.Machine
end

