-- ==== Sys2Proof/Safety.lean ====
section
/-! DEFINITION. What counts as a safe run: the form of State that every step keeps, and what a step may do to the queue, the clock and what was sent. -/

namespace Sys2Proof.Machine

/-- Every table of State that is keyed by number is in its canonical form: equal machines are equal data, and every 32-bit register holds a 32-bit value (R9). -/
structure State.Canonical (s : State) : Prop where
  pool : s.pool.wf = true
  regs : s.regs.wf = true
  links : Store.wf (fun _ => {}) s.links = true
  lds : Store.wf (fun _ => {}) s.lds = true
  binding : Store.wf (fun _ => none) s.binding = true
  iso : Store.wf (fun _ => none) s.iso = true
  parts : Store.wf (fun _ => {}) s.parts = true
  frames : Store.wf (fun _ => {}) s.tier.frames = true
  queues : Store.wf (fun _ => {}) s.queues = true
  sync : Store.wf (fun _ => {}) s.sync = true
  cores : Store.wf (fun _ => {}) s.cores = true
  shared : Store.wf (fun _ => []) s.shared = true

/-- What any command may do to the parts of State that no command owns: it leaves the queue alone, module time does not go back (R142), nothing sent is taken back, free values are never used twice, and the canonical form stays. -/
structure Keeps (s t : State) : Prop where
  queue : t.pending = s.pending
  clock : s.time ≤ t.time
  sent : s.out <+: t.out
  fresh : s.free ≤ t.free
  canonical : s.Canonical → t.Canonical

end Sys2Proof.Machine
end

