-- ==== Sys2Proof/Certificates/Slice0/Obligations.lean ====
section
/-! DEFINITION. The statements for the provers. An equation `exec c s = .next t` is also the frame: what its right side does not change, the command leaves as it was. -/

namespace Sys2Proof.Machine

/-- The state after `n` steps, where each of them answers a next state. -/
def stepsFrom : Nat → State → Option State
  | 0, s => some s
  | n + 1, s => match step s with
    | .next t => stepsFrom n t
    | _ => none

/-- Registers whose writes have no effect beyond R15: their fields are stored, or cleared by 1. -/
def plainNames : List RegName :=
  [.strStatus, .strRestoreFail, .lnsEvent, .lnsPEvent, .tirEvent, .tirPEvent, .hbcEvent, .lpcEvent, .carEvent, .carBEvent, .eccCtrl, .eccEvent, .cmpEvent,
   .cmpPNarEvent, .queEvent, .synEvent, .qosEvent, .qosPEvent, .mirEvent, .mirPEvent, .pwrEvent, .hupEvent, .fwmEvent]

/-- What a scalar integer instruction does at a core that can issue it (R432). -/
def aluDoes (i : CoreId → Instr) (op : Nat) (f : Word → Word → Word) : Prop :=
  ∀ (s : State) (c : CoreId) (k : KernelSt) (x : CoreSt) (w : Word), s.issue c = some (k, x, w) → fld w 56 8 = op →
    exec (i c) s = .next (s.setCore c
      { x with s := x.s.set (rD w) (f (x.s.getD (rA w) 0) (if fld w 40 1 = 1 then BitVec.ofInt 64 (immOf w) else x.s.getD (rB w) 0)), pc := (x.pc + 1) % 8192, pos := 0 })

/-- What a scalar FP64 instruction does at a core that can issue it (R432, R433). -/
def fpuDoes (i : CoreId → Instr) (op : Nat) (f : Nat → Nat → Nat → Nat) : Prop :=
  ∀ (s : State) (c : CoreId) (k : KernelSt) (x : CoreSt) (w : Word), s.issue c = some (k, x, w) → fld w 56 8 = op →
    exec (i c) s = .next (s.setCore c
      { x with s := x.s.set (rD w) (BitVec.ofNat 64 (f (x.s.getD (rA w) 0).toNat (x.s.getD (rB w) 0).toNat (x.s.getD (rD w) 0).toNat)), pc := (x.pc + 1) % 8192, pos := 0 })

/-- What a lane-wise VOP does at a core that can issue it (R450, R451, R453). -/
def laneDoes (i : CoreId → Instr) (fn : Nat) (f : Fmt → Nat → Nat → Nat → Nat) : Prop :=
  ∀ (s : State) (c : CoreId) (k : KernelSt) (x : CoreSt) (w : Word), s.issue c = some (k, x, w) → fld w 56 8 = 0x60 → fld w 51 5 = fn →
    let v := vopOf x w
    x.locked (tileRegions [v.d, v.a, v.b]) = false →
    let row (y : CoreSt) (r : Nat) : List Nat :=
      ((v.lanes (y.accRow v.a r)).zip ((v.bRow y r).zip (v.lanes (y.accRow v.d r)))).map (fun l => f v.f l.1 l.2.1 l.2.2)
    let out := (List.range v.rows).foldl (fun (p : CoreSt × Nat) j =>
      (p.1.putRow v.d (v.row0 + j) (packLanes v.wb (row p.1 (v.row0 + j))), (row p.1 (v.row0 + j)).foldl (fun m c => m ||| numFlags (v.f.num c)) p.2)) (x, 0)
    let y := out.1.addFlags v.d out.2
    exec (i c) s = .next ((s.setCore c { y with pc := (y.pc + 1) % 8192, pos := 0 }).kernelFlags k.id out.2)

/-- The command of a sync operation, by its code (R454, R471). -/
def syncCommand (op : Nat) (src : SyncSrc) : Instr :=
  match op with
  | 0 => .syncSet src
  | 1 => .syncAdd src
  | 2 => .syncWaitGe src
  | 3 => .syncWaitEq src
  | 4 => .syncCompareAndSwap src
  | 5 => .syncLock src
  | 6 => .syncUnlock src
  | _ => .syncBarrierArrive src

/-- Descriptor `n` of a queue of partition `p` may start now, and its checks pass (R467, R473); neither quarantine nor quiescence holds it (R163, R168). -/
def descStarts (s : State) (q n p : Nat) (d : DescSt) : Prop :=
  s.queueOwner q = some p ∧ s.desc q n = some d ∧ s.mayStart q d = true ∧ s.startHeld p = false ∧ s.descFails p { d with started := true, startAt := s.time } = []

/-- The state with a descriptor marked as started now. -/
def withStarted (s : State) (q : Nat) (d : DescSt) : State := s.setDesc q { d with started := true, startAt := s.time }

/-- A mailbox command of host `(link, ld)` reaches partition `p`: the link carries traffic and the LD is bound. -/
def mboxReaches (s : State) (link : LinkId) (ld : LdId) (p : Nat) : Prop := s.linkCarries link = true ∧ s.bound link ld = some p

end Sys2Proof.Machine

open Sys2Proof Sys2Proof.Machine

/-! The whole machine. -/

/-- A step with a command at the front of the queue is exec of that command on the state with the queue's rest. -/
def Obligations.StepRunsFrontCommand : Prop :=
  ∀ (s : State) (c : Instr) (rest : List Instr), step { s with pending := c :: rest } = exec c { s with pending := rest }

/-- On an empty queue 1 ns of module time passes, and nothing else happens where no rebuild runs; a rebuild that runs alone does one stripe (R281). The model's own choice (logs 2 and 3). -/
def Obligations.IdleStepPassesOneNs : Prop :=
  ∀ s : State, s.pending = [] →
    (s.rebuilding 0 = false → s.rebuilding 1 = false → step s = .next { s with time := s.time + 1 }) ∧
    ∀ g : Fin 2, s.rebuilding g = true → s.rebuilding (1 - g) = false → (s.rd .lpcRebuildPtr g).toNat < 2 ^ 31 →
      step s = .next ((({ s with time := s.time + 1 } : State).background g 3 40 512).wr .lpcRebuildPtr (s.rd .lpcRebuildPtr g + 1) g)

/-- After reset the queue is empty, module time is 0, nothing has been sent, the pool lists nothing, every table is canonical, and every register holds the value of its Reset column
(where the maps give none, the model's value of log 3); no start has begun (PHASE 0). -/
def Obligations.ResetHoldsResetColumn : Prop :=
  State.reset.pending = [] ∧ State.reset.time = 0 ∧ State.reset.out = [] ∧ State.reset.pool = [] ∧ State.reset.Canonical ∧
  (∀ r : RegId, State.reset.regs.read r = r.resetWord) ∧
  (∀ n : RegName, n ≠ .lnsUStatus → n ≠ .lpcCState → n ≠ .eccChState → ∀ i j, State.reset.rd n i j = BitVec.ofNat 64 n.row.reset) ∧
  State.reset.rdF .strStartState 0 4 = 0

/-- Every command answers a next state from every state; no command touches the queue, turns module time back, takes back what was sent, or uses a free value twice. -/
def Obligations.EveryCommandCompletes : Prop :=
  ∀ (c : Instr) (s : State), ∃ t, exec c s = .next t ∧ t.pending = s.pending ∧ s.time ≤ t.time ∧ s.out <+: t.out ∧ s.free ≤ t.free

/-- Every step keeps every table of State in its canonical form: addresses of the pool and keys of the other tables strictly rising, no entry equal to what an unlisted one reads as,
and every 32-bit register at a 32-bit value. -/
def Obligations.StepKeepsCanonicalForm : Prop :=
  ∀ s t : State, s.Canonical → step s = .next t → t.Canonical

/-- Any number of steps answers a next state, takes exactly that many commands from the front of the queue, turns module time back nowhere, takes back nothing sent, and keeps the canonical form. -/
def Obligations.RunsAreMonotone : Prop :=
  ∀ (n : Nat) (s : State), ∃ t, stepsFrom n s = some t ∧ t.pending = s.pending.drop n ∧ s.time ≤ t.time ∧ s.out <+: t.out ∧ (s.Canonical → t.Canonical)

/-! Register access (00). -/

/-- R10: an access to a register of a size other than 4 bytes, or 8 bytes for a 64-bit register, or one that is not naturally aligned, answers Unsupported Request and changes nothing else. -/
def Obligations.BadAccessIsUnsupported : Prop :=
  ∀ (s : State) (req : Req) (off size : Nat) (r : RegId) (b : Nat), s.target req off = .reg r b →
    ¬ (size = 4 ∧ off % 4 = 0 ∧ (b = 0 ∨ r.name.row.width = 64)) → ¬ (size = 8 ∧ off % 8 = 0 ∧ r.name.row.width = 64) →
    exec (.readClear req off size) s = .next (s.send (.unsupported req off)) ∧
    (∀ v, exec (.registerWrite req off size v) s = .next (s.send (.unsupported req off))) ∧
    ∀ w, exec (.feRegisterAccess req off size w) s = .next (s.send (.unsupported req off))

/-- R11: an offset of a block that no register takes reads as 0, and a write there changes nothing. -/
def Obligations.UnassignedOffsetsReadZero : Prop :=
  ∀ (s : State) (req : Req) (off : Nat), s.target req off = .hole → off % 4 = 0 →
    exec (.readClear req off 4) s = .next (s.send (.regValue req off 0)) ∧
    exec (.readLoLatch req off) s = .next (s.send (.regValue req off 0)) ∧
    ∀ v : BitVec 32, exec (.registerWrite req off 4 v.toNat) s = .next s ∧ exec (.writeLoHeld req off v) s = .next s ∧ exec (.writeHiApply req off v) s = .next s

/-- R9, R12, R15: a 4-byte read of a 32-bit register, an 8-byte read of a 64-bit one, a 4-byte read of LO and one of HI. A read returns the register's value before RC fields clear;
a read of LO latches HI for its requester; a read of HI returns what that requester has latched for that register (0 where nothing is latched). Three things about the value that is read are the model's choice (log 56): a measured
register's measured bits are free and its other bits are stored; a read of LNK_ERR_CORR first adds a free number of replays to that error counter, which sticks (R18); every other register reads its word. -/
def Obligations.ReadsReturnValueAndLatch : Prop :=
  (∀ (s : State) (req : Req) (off : Nat) (r : RegId),
    let t := (s.regRead r).1
    let v := (s.regRead r).2.toNat
    let k := accKey req r
    (s.target req off = .reg r 0 → off % 4 = 0 → r.name.row.width = 32 →
      exec (.readClear req off 4) s = .next ((t.readClears req r (2 ^ 32 - 1)).send (.regValue req off (v % 2 ^ 32))) ∧
      exec (.feRegisterAccess req off 4 none) s = .next ((t.readClears req r (2 ^ 32 - 1)).send (.regValue req off (v % 2 ^ 32)))) ∧
    (s.target req off = .reg r 0 → off % 8 = 0 → r.name.row.width = 64 →
      exec (.readLoLatch req off) s =
        .next (({ t with acc := { t.acc with latch := Store.set 0 k (BitVec.ofNat 32 (v / 2 ^ 32)) t.acc.latch } }.readClears req r (2 ^ 32 - 1)).send (.regValue req off (v % 2 ^ 32))) ∧
      exec (.readClear req off 8) s =
        .next (({ t with acc := { t.acc with lo := Store.set none k none t.acc.lo } }.readClears req r (2 ^ 64 - 1)).send (.regValue req off v))) ∧
    (s.target req off = .reg r 4 → off % 4 = 0 → r.name.row.width = 64 →
      exec (.readClear req off 4) s = .next (s.send (.regValue req off (Store.get 0 k s.acc.latch).toNat)))) ∧
  (∀ (s : State) (r : RegId),
    let u : State := { s with free := s.free + 1 }
    (measuredBits r.name = 0 → r.name ≠ .lnkErrCorr → s.regRead r = (s, s.regWord r)) ∧
    (r.name = .lnkErrCorr → s.regRead r = (u.incErr .lnkErrCorr r.i (Config.freeNat s.free), (u.incErr .lnkErrCorr r.i (Config.freeNat s.free)).regWord r)) ∧
    (measuredBits r.name ≠ 0 → (s.regRead r).1 = u ∧
      ∀ i, (measuredBits r.name).testBit i = false → (s.regRead r).2.getLsbD i = (u.regWord r).getLsbD i))

/-- R13: a write of LO is held; a write of HI applies both halves where that requester holds a LO for that register, and HI alone otherwise; an 8-byte write applies both and discards a held LO. -/
def Obligations.HalvesWriteAsOneUpdate : Prop :=
  ∀ (s : State) (req : Req) (off : Nat) (r : RegId), r.name.row.width = 64 →
    let k := accKey req r
    let dropped : State := { s with acc := { s.acc with lo := Store.set none k none s.acc.lo } }
    (s.target req off = .reg r 0 → off % 8 = 0 →
      (∀ v : BitVec 32, exec (.writeLoHeld req off v) s = .next { s with acc := { s.acc with lo := Store.set none k (some v) s.acc.lo } }) ∧
      (∀ v : Word, exec (.registerWrite req off 8 v.toNat) s = .next (dropped.viewWrite req off r v.toNat (2 ^ 64 - 1)))) ∧
    (s.target req off = .reg r 4 → off % 4 = 0 → ∀ v : BitVec 32,
      (∀ lo, Store.get none k s.acc.lo = some lo → exec (.writeHiApply req off v) s = .next (dropped.viewWrite req off r (lo.toNat + v.toNat * 2 ^ 32) (2 ^ 64 - 1))) ∧
      (Store.get none k s.acc.lo = none → exec (.writeHiApply req off v) s = .next (s.viewWrite req off r (v.toNat * 2 ^ 32) ((2 ^ 32 - 1) * 2 ^ 32))))

/-- R12, R13: what one requester has latched or held for a register is kept apart from every other requester's and every other register's. -/
def Obligations.RequestersDoNotShareHalves : Prop :=
  ∀ (q q' : Req) (r r' : RegId), accKey q r = accKey q' r' → q = q' ∧ r.key = r'.key

/-- R15: a 4-byte write to a register whose fields act by their class alone stores its RW bits, clears the W1C bits that are written 1, and keeps the rest; no other register and nothing else changes.
The block is one that takes writes now (R560). -/
def Obligations.WriteActsByAccessClass : Prop :=
  ∀ (s : State) (req : Req) (off v : Nat) (r : RegId), s.Canonical → r.name ∈ plainNames → s.target req off = .reg r 0 → off % 4 = 0 →
    ¬ (req = .mgmt ∧ s.rdF .pwrState 0 2 = 2 ∧ nightBlock off = false) →
    ∃ t, exec (.registerWrite req off 4 v) s = .next t ∧ t = { s with regs := t.regs } ∧
      (∀ b, b < 32 → (t.regs.read r).getLsbD b =
        if (r.name.row.rw ||| r.name.row.rws).testBit b then v.testBit b
        else if r.name.row.w1c.testBit b then (s.regs.read r).getLsbD b && !v.testBit b
        else (s.regs.read r).getLsbD b) ∧
      ∀ q : RegId, q.key ≠ r.key → t.regs.read q = s.regs.read q

/-- R18: an error counter sticks at all ones; a 48-bit event counter wraps to 0 past its largest value and sets its overflow bit, which stays set. -/
def Obligations.CountersStickOrWrap : Prop :=
  ∀ (s : State) (n : RegName) (i k : Nat), s.Canonical →
    (n.row.width = 32 → ((s.incErr n i k).rd n i).toNat = min ((s.rd n i).toNat + k) (2 ^ 32 - 1)) ∧
    (n.row.width = 64 → (s.incEvt n i k).rdF n 0 48 i = (s.rdF n 0 48 i + k) % 2 ^ 48 ∧
      (s.incEvt n i k).rdB n 48 i = (s.rdB n 48 i || decide (2 ^ 48 ≤ s.rdF n 0 48 i + k))) ∧
    ∀ m a b, m ≠ n → (s.incErr n i k).rd m a b = s.rd m a b ∧ (s.incEvt n i k).rd m a b = s.rd m a b

/-- R603: Read Register and Write Register of the mailbox act as the management plane's own accesses do, and answer DONE with the value, RANGE past the view, or ALIGN for an access that the view refuses. -/
def Obligations.MailboxAccessesRegisters : Prop :=
  ∀ (s : State) (off size : Nat), s.mboxUp = true →
    (2 ^ 24 ≤ off → exec (.readRegister off size) s = .next (s.send (.mgmt 6 stRange []))) ∧
    (off < 2 ^ 24 → ∀ t v, s.readAccess .mgmt off size = (t, .value v) → exec (.readRegister off size) s = .next (t.send (.mgmt 6 stDone [v]))) ∧
    (off < 2 ^ 24 → ∀ t v, s.writeAccess .mgmt off size v = (t, .silent) → exec (.writeRegister off size v) s = .next (t.send (.mgmt 7 stDone []))) ∧
    (off < 2 ^ 24 → ∀ t v, s.writeAccess .mgmt off size v = (t, .unsupported) → exec (.writeRegister off size v) s = .next (t.send (.mgmt 7 stAlign [])))
/-! Tile programs (13). A core issues where its kernel runs, has met no fault, and the core neither has ended nor is held by a BAR or SYNC; `w` is the word at its pc. -/

/-- R423, R432: NOP goes on; BRA and the taken conditional branches go to pc + IMM modulo 8192, the others go on. Nothing else changes. -/
def Obligations.BranchesMoveThePc : Prop :=
  ∀ (s : State) (c : CoreId) (k : KernelSt) (x : CoreSt) (w : Word), s.issue c = some (k, x, w) →
    let a := x.s.getD (rA w) 0
    let b := x.s.getD (rB w) 0
    let on := s.setCore c { x with pc := (x.pc + 1) % 8192, pos := 0 }
    let far := s.setCore c { x with pc := (((x.pc : Int) + immOf w) % 8192).toNat, pos := 0 }
    (fld w 56 8 = 0x01 → exec (.tNop c) s = .next on) ∧
    (fld w 56 8 = 0x02 → exec (.tBra c) s = .next far) ∧
    (fld w 56 8 = 0x03 → exec (.tBeq c) s = .next (if a = b then far else on)) ∧
    (fld w 56 8 = 0x04 → exec (.tBne c) s = .next (if a = b then on else far)) ∧
    (fld w 56 8 = 0x05 → exec (.tBlt c) s = .next (if a.toInt < b.toInt then far else on)) ∧
    (fld w 56 8 = 0x06 → exec (.tBge c) s = .next (if a.toInt < b.toInt then on else far)) ∧
    (fld w 56 8 = 0x07 → exec (.tBltu c) s = .next (if a.toNat < b.toNat then far else on))

/-- R434: LPS sets its loop counter from s[A][31:0] and leaves the loop where that is 0; LPB counts down and goes back while the counter is above 1. -/
def Obligations.LoopCountersCountDown : Prop :=
  ∀ (s : State) (c : CoreId) (k : KernelSt) (x : CoreSt) (w : Word), s.issue c = some (k, x, w) →
    let d := rD w
    let n := (x.s.getD (rA w) 0).toNat % 2 ^ 32
    let on := (x.pc + 1) % 8192
    let far := (((x.pc : Int) + immOf w) % 8192).toNat
    (fld w 56 8 = 0x08 → exec (.tLps c) s = .next (s.setCore c { x with lc := x.lc.set d n, pc := if n = 0 then far else on, pos := 0 })) ∧
    (fld w 56 8 = 0x09 → 1 < x.lc.getD d 0 → exec (.tLpb c) s = .next (s.setCore c { x with lc := x.lc.set d (x.lc.getD d 0 - 1), pc := far, pos := 0 })) ∧
    (fld w 56 8 = 0x09 → x.lc.getD d 0 ≤ 1 → exec (.tLpb c) s = .next (s.setCore c { x with lc := x.lc.set d 0, pc := on, pos := 0 }))

/-- R430, R435, R436, R457, R459: GET's selectors (4 takes a free value), WAITG, BAR of scope 0 and of a scope that holds the core, and END of a core whose transfers and stores have ended. -/
def Obligations.WaitsAndSpecialValues : Prop :=
  ∀ (s : State) (c : CoreId) (k : KernelSt) (x : CoreSt) (w : Word), s.issue c = some (k, x, w) →
    let on := (x.pc + 1) % 8192
    let put (s : State) (v : Nat) : State := s.setCore c { x with s := x.s.set (rD w) (BitVec.ofNat 64 v), pc := on, pos := 0 }
    (fld w 56 8 = 0x0A →
      (fld w 0 32 ≤ 3 → exec (.tGet c) s = .next (put s (x.lc.getD (fld w 0 32) 0))) ∧
      (fld w 0 32 = 4 → exec (.tGet c) s = .next (put { s with free := s.free + 1 } (Config.freeNat s.free))) ∧
      (fld w 0 32 = 5 → exec (.tGet c) s = .next (put s (s.time / 1000))) ∧
      (fld w 0 32 = 6 → exec (.tGet c) s = .next (put s x.flags)) ∧
      (fld w 0 32 = 7 → exec (.tGet c) s = .next (put s x.glare))) ∧
    (fld w 56 8 = 0x0B → fld w 40 1 = 0 → s.outstanding c x (rD w) ≤ fld w 0 32 → exec (.tWaitg c) s = .next (s.setCore c { x with pc := on, pos := 0 })) ∧
    (fld w 56 8 = 0x0B → fld w 40 1 = 1 → (∀ g, g < 8 → s.outstanding c x g ≤ fld w 0 32) → exec (.tWaitg c) s = .next (s.setCore c { x with pc := on, pos := 0 })) ∧
    (fld w 56 8 = 0x0B → fld w 40 1 = 0 → fld w 0 32 < s.outstanding c x (rD w) → exec (.tWaitg c) s = .next s) ∧
    (fld w 56 8 = 0x0C → s.settled c x = true →
      exec (.tBar c) s = .next (s.setCore c (if fld w 0 32 = 0 then { x with pc := on, pos := 0 } else { x with atBar := some (fld w 0 32) }))) ∧
    (fld w 56 8 = 0x00 → s.settled c x = true →
      exec (.tEnd c) s = .next ((s.setCore c { x with ended := true }).wrF .cmpCoreState 0 3 1 c))

/-- R432: the scalar integer instructions: s[D] := s[A] op operand, the operand s[B] or the sign-extended IMM; shifts use operand bits [5:0]; MOVHI and MOVI. -/
def Obligations.IntegerInstructions : Prop :=
  aluDoes .tAdd 0x10 (fun a b => a + b) ∧ aluDoes .tSub 0x11 (fun a b => a - b) ∧ aluDoes .tMul 0x12 (fun a b => a * b) ∧
  aluDoes .tAnd 0x13 (fun a b => a &&& b) ∧ aluDoes .tOr 0x14 (fun a b => a ||| b) ∧ aluDoes .tXor 0x15 (fun a b => a ^^^ b) ∧
  aluDoes .tShl 0x16 (fun a b => a <<< (b.toNat % 64)) ∧ aluDoes .tShr 0x17 (fun a b => a >>> (b.toNat % 64)) ∧
  aluDoes .tSra 0x18 (fun a b => a.sshiftRight (b.toNat % 64)) ∧
  aluDoes .tMin 0x19 (fun a b => if a.toInt < b.toInt then a else b) ∧ aluDoes .tMax 0x1A (fun a b => if a.toInt < b.toInt then b else a) ∧
  ∀ (s : State) (c : CoreId) (k : KernelSt) (x : CoreSt) (w : Word), s.issue c = some (k, x, w) →
    let put (v : Word) : State := s.setCore c { x with s := x.s.set (rD w) v, pc := (x.pc + 1) % 8192, pos := 0 }
    (fld w 56 8 = 0x1B → exec (.tMovhi c) s = .next (put (BitVec.ofNat 64 ((x.s.getD (rD w) 0).toNat % 2 ^ 32 + fld w 0 32 * 2 ^ 32)))) ∧
    (fld w 56 8 = 0x1C → exec (.tMovi c) s = .next (put (BitVec.ofInt 64 (immOf w))))

/-- R432, R433: the scalar FP64 instructions. A NaN result is 0x7FF8_0000_0000_0000; FLT is 0 when either is NaN. -/
def Obligations.FloatInstructions : Prop :=
  fpuDoes .tFadd 0x20 (fun a b _ => fp64.code ((fp64.num a).add (fp64.num b))) ∧
  fpuDoes .tFsub 0x21 (fun a b _ => fp64.code ((fp64.num a).add (fp64.num b).neg)) ∧
  fpuDoes .tFmul 0x22 (fun a b _ => fp64.code ((fp64.num a).mul (fp64.num b))) ∧
  fpuDoes .tFdiv 0x23 (fun a b _ => fp64.code ((fp64.num a).div (fp64.num b))) ∧
  fpuDoes .tFsqrt 0x24 (fun a _ _ => fp64.code (fp64.num a).sqrt) ∧
  fpuDoes .tFfma 0x25 (fun a b d => fp64.code (((fp64.num a).mul (fp64.num b)).add (fp64.num d))) ∧
  fpuDoes .tItof 0x26 (fun a _ _ => itof (BitVec.ofNat 64 a)) ∧
  fpuDoes .tFtoi 0x27 (fun a _ _ => (ftoi a).toNat) ∧
  fpuDoes .tFlt 0x28 (fun a b _ => if (fp64.num a).lt (fp64.num b) then 1 else 0) ∧
  fp64.code .nan = 0x7FF8000000000000 ∧
  (∀ y : Sys2Proof.Machine.Num, Sys2Proof.Machine.Num.nan.add y = .nan ∧ y.add .nan = .nan ∧ Sys2Proof.Machine.Num.nan.mul y = .nan ∧ y.mul .nan = .nan ∧ Sys2Proof.Machine.Num.nan.div y = .nan ∧ y.div .nan = .nan ∧ Sys2Proof.Machine.Num.nan.lt y = false ∧ y.lt .nan = false) ∧
  Sys2Proof.Machine.Num.nan.sqrt = .nan
/-- R424, R425, R437, R440, R441: LD and ST of local and shared memory, and LD of the pool; a pool ST, a TST, a TLD and an XFER that is accepted. -/
def Obligations.TileMemoryInstructions : Prop :=
  ∀ (s : State) (c : CoreId) (k : KernelSt) (x : CoreSt) (w : Word), s.issue c = some (k, x, w) →
    let on : CoreSt := { x with pc := (x.pc + 1) % 8192, pos := 0 }
    let n := 2 ^ fld w 35 2
    let sp := fld w 37 3
    let a := (x.s.getD (rA w) 0 + BitVec.ofInt 64 (immOf w)).toNat / n * n
    let v := (x.s.getD (rD w) 0).toNat % 256 ^ n
    (fld w 56 8 = 0x30 → sp = 2 ∨ sp = 3 → x.locked (regionsOf sp 0 a n) = false →
      exec (.tLd c) s = .next (s.setCore c
        { s.core c with s := (s.core c).s.set (rD w) (BitVec.ofNat 64 (readWrap (s.space c x sp 0) (spaceSize sp) a n)), pc := ((s.core c).pc + 1) % 8192, pos := 0 })) ∧
    (fld w 56 8 = 0x30 → sp = 5 → ∀ o y t z r, s.resolve k.part a n = some (o, y) → s.storeAhead c o y n = false → s.kernelRead k a n = (t, z, .ok r) →
      exec (.tLd c) s = .next (let u := t.flashGot (.kernel k.id) o (y / 4096)
        u.setCore c { u.core c with s := (u.core c).s.set (rD w) (BitVec.ofNat 64 r), pc := ((u.core c).pc + 1) % 8192, pos := 0 })) ∧
    (fld w 56 8 = 0x31 → sp = 2 → x.locked (regionsOf sp 0 a n) = false →
      exec (.tSt c) s = .next (s.setCore c { on with mem := writeWrap x.mem 2097152 a n v })) ∧
    (fld w 56 8 = 0x31 → sp = 3 → x.locked (regionsOf sp 0 a n) = false →
      exec (.tSt c) s = .next { s.setCore c on with shared := Store.set [] (c / 8) (writeWrap (Store.get [] (c / 8) s.shared) 16777216 a n v) s.shared }) ∧
    (fld w 56 8 = 0x31 → sp = 5 → ∀ t p o y, s.kernelStore (.core c.val) k a n v x.pos = (t, p, .done) → t.resolve k.part a n = some (o, y) →
      exec (.tSt c) s = .next ((t.setCore c { on with xid := x.xid + 1 }).storeAwait c (8 + 16 * x.xid) o y n)) ∧
    (fld w 56 8 = 0x39 →
      let pa := (x.s.getD (fld w 51 5) 0).toNat / 64 * 64
      let off := (x.s.getD (fld w 46 5) 0).toNat / 64 * 64
      let m := 64 * (fld w 29 10 + 1)
      let src := readWrap (s.space c x (fld w 43 3) 0) (spaceSize (fld w 43 3)) off m
      x.locked (regionsOf (fld w 43 3) 0 off m) = false → s.outstanding c x (fld w 26 3) < 64 →
      ∀ t p o y, s.kernelStore (.core c.val) k pa m src x.pos = (t, p, .done) → t.resolve k.part pa m = some (o, y) →
        exec (.tTst c) s = .next ((t.setCore c { on with xid := x.xid + 1 }).storeAwait c (fld w 26 3 + 16 * x.xid) o y m)) ∧
    (fld w 56 8 = 0x38 →
      let pa := (x.s.getD (fld w 51 5) 0).toNat / 4096 * 4096
      let dsp := fld w 43 3
      let off := (x.s.getD (fld w 46 5) 0).toNat / 4096 * 4096 % spaceSize dsp
      let page (i : Nat) : TldPage := { xid := x.xid, group := fld w 30 3, addr := pa + 4096 * i, dsp := dsp, em := fld w 39 4, off := if dsp = 1 then (fld w 39 4 + i) % 16 else (off + 4096 * i) % spaceSize dsp }
      let pages := (List.range (fld w 33 6 + 1)).map page
      (∀ t ∈ pages, s.resolve k.part t.addr 4096 ≠ none) → s.outstanding c x (fld w 30 3) < 64 → x.locked (pages.flatMap (·.regions)) = false →
      (∀ t ∈ pages, ∀ o y, s.resolve k.part t.addr 4096 = some (o, y) → s.storeAhead c o y 4096 = false) →
        exec (.tTld c) s = .next (s.setCore c
          { (if dsp = 0 then x.fillSlots (fld w 39 4) off (min 196608 (4096 * (fld w 33 6 + 1))) false else x) with tld := x.tld ++ pages, xid := x.xid + 1, pc := (x.pc + 1) % 8192, pos := 0 })) ∧
    (fld w 56 8 = 0x3A →
      let d := (x.s.getD (fld w 51 5) 0).toNat / 64 * 64
      let o := (x.s.getD (fld w 46 5) 0).toNat / 64 * 64
      let m := fld w 22 14 + 1
      x.tld = [] → s.outstanding c x (fld w 19 3) < 64 →
        exec (.tXfer c) s = .next ((List.range m).foldl (fun t i => t.spacePut c (t.core c) (fld w 43 3) (fld w 36 4) (d + 64 * i) 64
          (readWrap (s.space c x (fld w 40 3) (fld w 36 4)) (spaceSize (fld w 40 3)) (o + 64 * i) 64)) (s.setCore c on)))

/-- R364, R439: an outstanding TLD page that has been read and checked is written to its destination and is no longer outstanding. R457, R459: of a kernel's cores, those at a BAR of a scope go on
together where every core of their group of that scope (cluster, die or kernel) has come to it or has ended; no other core and nothing else changes. -/
def Obligations.PagesArriveAndBarriersRelease : Prop :=
  (∀ (s : State) (c : CoreId) (i : Nat) (k : KernelSt) (p : TldPage) (o a v : Nat) (t : State),
    (s.core c).kid.bind s.kernel = some k → (s.core c).tld[i]? = some p → k.running = true → k.fault = none → s.resolve k.part p.addr 4096 = some (o, a) →
    s.tldPage k (c / 8) o (a / 4096) (if p.dsp = 0 then (s.core c).urgency p.em else 0) = (t, .ok v) →
    let u := t.flashGot (.kernel k.id) o (a / 4096)
    exec (.tldPageArrive c i) s =
      .next (u.spacePut c { u.core c with tld := (u.core c).tld.eraseIdx i } p.dsp p.em (if p.dsp = 1 then 4096 * p.off else p.off) 4096 v)) ∧
  (∀ (s : State) (kid : Nat) (k : KernelSt) (scope : Nat), s.Canonical → s.kernel kid = some k → k.running = true → k.lid = 0 → k.fault = none → k.clusters.Nodup → 1 ≤ scope → scope ≤ 3 →
    let group (c : Nat) : Nat := if scope = 1 then c / 8 else if scope = 2 then c / 64 else 0
    ∃ t, exec (.barrierRelease kid scope) s = .next t ∧ t = { s with cores := t.cores } ∧ ∀ c : CoreId,
      let goes := c.val ∈ k.cores ∧ (s.core c).atBar = some scope ∧ ∀ d ∈ k.cores, group d = group c → (s.core d).ended = true ∨ (s.core d).atBar = some scope
      (goes → t.core c = { s.core c with atBar := none, bars := (s.core c).bars.set scope ((s.core c).bars.getD scope 0 + 1), pc := ((s.core c).pc + 1) % 8192, pos := 0 }) ∧
      (¬ goes → t.core c = s.core c))

/-- R442 to R449: an MMA over well-formed weights without reflection adds each row's products to its accumulator row and takes the row's flags and escalated pairs into the tile's flags, the core's,
the kernel's and the queue's glare counts; CVT writes NC columns from COL0 on in the output format. -/
def Obligations.EngineInstructions : Prop :=
  ∀ (s : State) (c : CoreId) (k : KernelSt) (x : CoreSt) (w : Word), s.issue c = some (k, x, w) →
    (fld w 56 8 = 0x40 → fld w 7 1 = 0 → ∀ row regs cols more, mmaWeights x w = (row, false, regs) → mmaColumns x w = (cols, more) →
      let t := fld w 51 3
      x.locked (regs ++ more ++ regionsOf 4 0 (16384 * t) 16384) = false →
      let wide := fld w 8 3 == 3 || fld w 8 3 == 4
      let out := (List.range 64).foldl (fun (a : CoreSt × Nat × Nat) r =>
        let m := mmaRow (a.1.accRow t r) (row r) cols wide
        (a.1.putRow t r m.1, a.2.1 ||| m.2.1, a.2.2 + m.2.2)) (x, 0, 0)
      let y := out.1.addFlags t out.2.1
      exec (.tMma c) s = .next (((s.setCore c { y with glare := y.glare + out.2.2, pc := (y.pc + 1) % 8192, pos := 0 }).countGlare k.id out.2.2).kernelFlags k.id out.2.1)) ∧
    (fld w 56 8 = 0x48 →
      let t := fld w 53 3
      let ob := cvtBytes (fld w 33 3)
      let off := (x.s.getD (fld w 41 5) 0).toNat / 64 * 64
      let nc := fld w 19 6 + 1
      x.locked (regionsOf (fld w 50 3) (fld w 46 4) off (ob * nc) ++ regionsOf 4 0 (16384 * t) 16384) = false →
      let g (col r : Nat) : Option Nat :=
        if k.arg 5 1 = 1 ∧ fld w 31 2 ≠ 0 then some (randomG k.seed k.launchNo ((x.s.getD (fld w 36 5) 0).toNat + 64 * col + r)) else none
      exec (.tCvt c) s = .next ((List.range nc).foldl (fun u i =>
        u.spacePut c (u.core c) (fld w 50 3) (fld w 46 4) (off + ob * i) ob
          (columnBytes (fld w 33 3) ((List.range 64).map (fun r => fieldOf (x.accRow t r) (4 * (fld w 25 6 + i)) 4)) (g (fld w 25 6 + i))))
        (s.setCore c { x with pc := (x.pc + 1) % 8192, pos := 0 })))

/-- R450 to R453: the lane-wise VOPs write f(a, b, old d) to every lane of the rows ROW0 on, and take NaN and infinity of the lanes written into the destination's flags and the kernel's; CLR writes
zeros, and over rows 0 to 63 clears the tile's flags; DOT, RSUM and RMAX write s[SB]. -/
def Obligations.VectorInstructions : Prop :=
  laneDoes .tVopAdd 0 (fun f a b _ => f.code ((f.num a).add (f.num b))) ∧ laneDoes .tVopSub 1 (fun f a b _ => f.code ((f.num a).add (f.num b).neg)) ∧
  laneDoes .tVopMul 2 (fun f a b _ => f.code ((f.num a).mul (f.num b))) ∧ laneDoes .tVopFma 3 (fun f a b d => f.code (((f.num a).mul (f.num b)).add (f.num d))) ∧
  laneDoes .tVopFnma 4 (fun f a b d => f.code (((f.num a).mul (f.num b)).neg.add (f.num d))) ∧ laneDoes .tVopMax 5 (fun f a b _ => f.code ((f.num a).max (f.num b))) ∧
  laneDoes .tVopMin 6 (fun f a b _ => f.code ((f.num a).min (f.num b))) ∧ laneDoes .tVopDiv 7 (fun f a b _ => f.code ((f.num a).div (f.num b))) ∧
  laneDoes .tVopSqrt 8 (fun f a _ _ => f.code (f.num a).sqrt) ∧ laneDoes .tVopAbs 9 (fun f a _ _ => f.code (f.num a).abs) ∧ laneDoes .tVopNeg 10 (fun f a _ _ => f.code (f.num a).neg) ∧
  laneDoes .tVopMov 11 (fun _ a _ _ => a) ∧
  ∀ (s : State) (c : CoreId) (k : KernelSt) (x : CoreSt) (w : Word), s.issue c = some (k, x, w) → fld w 56 8 = 0x60 →
    let v := vopOf x w
    x.locked (tileRegions [v.d, v.a, v.b]) = false →
    let put (r : Nat) : State := s.setCore c { x with s := x.s.set v.sb (BitVec.ofNat 64 r), pc := (x.pc + 1) % 8192, pos := 0 }
    (fld w 51 5 = 12 →
      let y := (List.range v.rows).foldl (fun (y : CoreSt) i => y.putRow v.d (v.row0 + i) 0) x
      exec (.tVopClr c) s = .next (s.setCore c
        { y with flags := if v.row0 = 0 ∧ v.rows = 64 then y.flags - y.flags / 4 ^ v.d % 4 * 4 ^ v.d else y.flags, pc := (y.pc + 1) % 8192, pos := 0 })) ∧
    (fld w 51 5 = 13 → exec (.tVopDot c) s = .next (put (v.reduce (fun r => v.lanes (x.accRow v.a r)) (fun r => v.lanes (x.accRow v.b r))))) ∧
    (fld w 51 5 = 14 → exec (.tVopRsum c) s =
      .next (put (v.reduce (fun r => v.lanes (x.accRow v.a r)) (fun _ => List.replicate (256 / v.wb) (v.f.code (.fin false 1 0)))))) ∧
    (fld w 51 5 = 15 → ∀ m l, (List.range v.rows).flatMap (fun i => (v.lanes (x.accRow v.a (v.row0 + i))).map v.f.num) = m :: l →
      exec (.tVopRmax c) s = .next (put (v.f.code (l.foldl (fun a b => a.max b) m))))

/-! Synchronisation objects (14). -/

/-- R454, R471: each sync operation of a core that has settled where the operation changes an object, and of a descriptor whose checks pass, is applied to the object it names, for its source. -/
def Obligations.SyncCommandsReachTheirObject : Prop :=
  ∀ (s : State) (op : Nat), op < 8 →
    (∀ (c : CoreId) (k : KernelSt) (x : CoreSt) (w : Word) (r : PartRec), s.issue c = some (k, x, w) → fld w 56 8 = 0x70 → fld w 0 4 = op →
      (op = 2 ∨ op = 3 ∨ op = 5 ∨ s.settled c x = true) → (s.part k.part).cfg = some r → (x.s.getD (rA w) 0).toNat < r.syncCount →
      exec (syncCommand op (.core c)) s = .next (s.syncOp (r.syncBase + (x.s.getD (rA w) 0).toNat)
        { op := op, value := x.s.getD (rB w) 0, expected := x.s.getD (fld w 35 5) 0, timeoutUs := 0, part := k.part, queue := k.queue, src := .core c })) ∧
    (∀ (q : QueueId) (n p o : Nat) (d : DescSt), s.queueOwner q = some p → s.desc q n = some d → d.fld 0 1 = 7 → d.fld 0x12 1 = op → s.mayStart q d = true → s.startHeld p = false →
      s.descFails p { d with started := true, startAt := s.time } = [] →
      let t := s.setDesc q { d with started := true, startAt := s.time }
      t.objRef p (d.fld 0x10 2) = .inl o →
      exec (syncCommand op (.desc q n)) s = .next (t.syncOp o
        { op := op, value := BitVec.ofNat 64 (d.fld 0x18 8), expected := BitVec.ofNat 64 (d.fld 0x20 8), timeoutUs := d.fld 0x14 4, part := p, queue := q, src := .desc q n }))

/-- R482 to R486 for an object of a partition that no mirror serves and on which nothing waits: SET and ADD replace VALUE and report the old one; WAIT_GE and WAIT_EQ complete at once where VALUE meets them and
wait otherwise; CAS replaces VALUE only where it equals the expected one and reports the old one; LOCK takes a free or abandoned lock, reports BUSY to its own holder and waits for another; UNLOCK by the
holder frees it, by anyone else is DENIED; a barrier arrival counts. -/
def Obligations.SyncOperationsOnAnIdleObject : Prop :=
  ∀ (s : State) (k : Nat) (r : SyncReq), s.Canonical → (s.obj k).waits = [] → (∀ p, s.syncOwner k = some p → s.mirRole p ≠ 1) →
    let o := s.obj k
    let done (v : SyncObj) (st x : Nat) : State := (s.setObj k v).syncDone r.src st x
    let wait (kind : WaitKind) : State :=
      let t := s.setObj k { o with waits := [{ src := r.src, kind := kind, part := r.part, queue := r.queue, deadline := if r.timeoutUs = 0 then none else some (s.time + 1000 * r.timeoutUs) }] }
      match r.src with | .core c => t.setCore c { t.core c with inSync := true } | .desc _ _ => t
    (r.op = 0 → s.syncOp k r = done { o with value := r.value } 0 o.value.toNat) ∧
    (r.op = 1 → s.syncOp k r = done { o with value := o.value + r.value } 0 o.value.toNat) ∧
    (r.op = 2 → s.syncOp k r = if r.value.toNat ≤ o.value.toNat then s.syncDone r.src 0 o.value.toNat else wait (.ge r.value)) ∧
    (r.op = 3 → s.syncOp k r = if o.value = r.value then s.syncDone r.src 0 o.value.toNat else wait (.eq r.value)) ∧
    (r.op = 4 → s.syncOp k r = if o.value = r.expected then done { o with value := r.value } 0 o.value.toNat else s.syncDone r.src 0 o.value.toNat) ∧
    (r.op = 5 → o.lock = 0 → s.syncOp k r = done { o with lock := 1, owner := r.part * 4096 + r.queue % 4096 } 0 0) ∧
    (r.op = 5 → o.lock = 2 → s.syncOp k r = done { o with lock := 1, owner := r.part * 4096 + r.queue % 4096 } stAbandoned stAbandoned) ∧
    (r.op = 5 → o.lock = 1 → s.syncOp k r = if o.owner = r.part * 4096 + r.queue % 4096 then s.syncDone r.src stBusy stBusy else wait .lock) ∧
    (r.op = 6 → s.syncOp k r = if o.lock = 1 ∧ o.owner = r.part * 4096 + r.queue % 4096 then done { o with lock := 0, owner := 0 } 0 0 else s.syncDone r.src stDenied stDenied) ∧
    (r.op = 7 → s.syncOp k r = done { o with value := barrierNext o.value o.target } 0 (barrierNext o.value o.target).toNat)

/-- R486: TARGET arrivals (at least one) at a barrier in generation `g` bring it to the next generation with a count of 0; after fewer, the count is their number. -/
def Obligations.BarrierGenerationsTurn : Prop :=
  ∀ (target g n : Nat), target < 2 ^ 32 → g < 2 ^ 32 →
    (n < max target 1 → (fun v => barrierNext v target)^[n] (BitVec.ofNat 64 (g * 2 ^ 32)) = BitVec.ofNat 64 (g * 2 ^ 32 + n)) ∧
    (fun v => barrierNext v target)^[max target 1] (BitVec.ofNat 64 (g * 2 ^ 32)) = BitVec.ofNat 64 ((g + 1) % 2 ^ 32 * 2 ^ 32)

/-- R483, R484: at its deadline a wait ends with TIMEOUT and the object's VALUE, a lock request with TIMEOUT; the other waits stay. R495: SYN_O_SHARE takes bits [15:0] of what is written, and
nothing else changes where nothing waits on the object and no mirror serves its partition. -/
def Obligations.SyncTimeoutsAndSharing : Prop :=
  (∀ (s : State) (k : Nat) (o : SyncObj) (w : SyncWait) (l : List SyncWait) (d : Nat),
    s.sync = [(k, o)] → o.waits = w :: l → w.deadline = some d →
    let t := (s.reach d).setObj k { o with waits := o.waits.filter (fun v => v.src != w.src) }
    exec (.syncWaitTimeout w.src) s = .next (t.syncDone w.src stTimeout (if w.kind = .lock then stTimeout else o.value.toNat))) ∧
  (∀ (s : State) (k : Fin 8192) (m : BitVec 32), (s.obj k).waits = [] → s.Canonical → (∀ p, s.syncOwner k = some p → s.mirRole p ≠ 1) →
    exec (.syncShareWrite k m) s = .next (s.setObj k { s.obj k with share := m.toNat % 65536 }))
/-! Queues and descriptors (14). -/

/-- R462, R468, R410: enabling a disabled queue whose ring passes its checks clears head and tail and sets ENABLE and ENABLED; one whose ring fails them only reports the status; disabling clears both bits;
a write to QD_SEED stores the seed and clears the launch number. `shipTable` is the mirror's record of it (R528), and changes nothing where no mirror serves the partition. -/
def Obligations.QueueControlWrites : Prop :=
  ∀ (s : State) (q : QueueId) (p : Nat), s.queueOwner q = some p →
    (s.qEnabled q = false → s.ringCheck p q = 0 →
      exec (.queueEnable q) s = .next ((let t := (((s.wr .qdHead 0 q).wr .qdTail 0 q).wrB .qdCtrl 0 true q).wrB .qdStatus 0 true q
        t.setQueue q { t.queue q with bells := [] }).shipTable p)) ∧
    (s.qEnabled q = false → s.ringCheck p q ≠ 0 → exec (.queueEnable q) s = .next (s.wrF .qdStatus 16 8 (s.ringCheck p q) q)) ∧
    (s.qEnabled q = true → exec (.queueDisable q) s = .next (((s.wrB .qdCtrl 0 false q).wrB .qdStatus 0 false q).shipTable p)) ∧
    (∀ v, exec (.qdSeedWrite q v) s = .next (((s.wr .qdSeed v q).wr .qdLaunchNo 0 q).shipTable p)) ∧
    ((s.mirRole p ≠ 1) → s.shipTable p = s)

/-- R463: a doorbell through an LD bound to the queue's partition, on a link that carries CXL (R117), moves the tail where at most a ring of descriptors is then pending; otherwise the tail stays, TAIL_BAD is set and a
record is raised. A doorbell through an LD of another partition, to a disabled queue, or during quarantine changes nothing; quiescence is no condition. -/
def Obligations.DoorbellsMoveTheTail : Prop :=
  ∀ (s : State) (link : LinkId) (ld : LdId) (q : QueueId) (tail : BitVec 32) (p : Nat), s.linkCarries link = true → s.bound link ld = some p →
    (s.queueOwner q ≠ some p → exec (.doorbell link ld q tail) s = .next s) ∧
    (s.qEnabled q = false ∨ s.quarantined p = true → exec (.doorbell link ld q tail) s = .next s) ∧
    (s.queueOwner q = some p → s.quarantined p = false → s.qEnabled q = true → s.mirRole p ≠ 2 →
      let count := (tail.toNat + 2 ^ 32 - (s.rd .qdHead q).toNat) % 2 ^ 32
      (count ≤ s.ringSize q → exec (.doorbell link ld q tail) s =
        .next (((s.wr .qdTail (BitVec.ofNat 64 tail.toNat) q).setQueue q { s.queue q with bells := (s.queue q).bells ++ [(tail.toNat, link.val, ld.val)] }).shipTable p)) ∧
      (s.ringSize q < count → exec (.doorbell link ld q tail) s =
        .next (((s.wrB .qdStatus 2 true q).setB .queEvent 0).raise { reg := .queEvent, bit := 0, part := some p, link := some link.val, value := tail.toNat, args := [q.val] })))

/-- R464, R466: an enabled queue that nothing holds and whose head is behind its tail fetches the 64 bytes at its head's slot and moves the head on by one modulo 2^32; a slot that cannot be read stops the queue with UNCORRECTABLE. -/
def Obligations.FetchTakesTheHeadDescriptor : Prop :=
  ∀ (s : State) (q : QueueId) (p : Nat), s.queueOwner q = some p → s.qEnabled q = true → s.fetchHeld p = false →
    let h := (s.rd .qdHead q).toNat
    h ≠ (s.rd .qdTail q).toNat →
    (∀ t v, s.getBytes (reqComp p) p ((s.rd .qdRingBase q).toNat + 64 * (h % 2 ^ s.rdF .qdCtrl 16 5 q)) 64 = (t, .ok v) →
      let u := t.flashDone (.ring q)
      let b := bellOf (u.ringSize q) h (u.queue q).bells
      exec (.descFetch q) s = .next (((u.setQueue q
        { descs := (u.queue q).descs ++ [{ n := h, raw := v, link := (b.1.getD ((u.ldsOf p).head?.getD (0, 0))).1, ld := (b.1.getD ((u.ldsOf p).head?.getD (0, 0))).2 }], bells := b.2 }).wr .qdHead (BitVec.ofNat 64 ((h + 1) % 2 ^ 32)) q).shipTable p)) ∧
    (∀ t w, s.getBytes (reqComp p) p ((s.rd .qdRingBase q).toNat + 64 * (h % 2 ^ s.rdF .qdCtrl 16 5 q)) 64 = (t, .bad w) →
      exec (.descFetch q) s = .next (t.fetchStop p q stUncorr))

/-- R467, R470, R473, R476, R344: a NOP ends with DONE, a flush seals the slots of its span and awaits their commits, a scrub starts; a descriptor with a bad field ends at once with the field's status and offset, as does one of an unknown type.
R213: a flush that awaits nothing more ends, with its descriptor or its FLUSH bit. -/
def Obligations.DescriptorsStartAndEnd : Prop :=
  (∀ (s : State) (q : QueueId) (n p : Nat) (d : DescSt), descStarts s q n p d →
    (d.fld 0 1 = 0 → exec (.descNop q n) s = .next ((withStarted s q d).endDesc q { d with started := true, startAt := s.time } 0 0)) ∧
    (d.fld 0 1 = 6 → ∀ o a, (withStarted s q d).resolve p (d.fld 0x10 8) (d.fld 0x18 8) = some (o, a) →
      exec (.descFlush q n) s = .next ((withStarted s q d).startFlush (.desc q n) (fun x => x.part == o && decide (a ≤ x.page * 4096 ∧ x.page * 4096 < a + d.fld 0x18 8)))) ∧
    (d.fld 0 1 = 5 → exec (.descScrub q n) s = .next (withStarted s q d))) ∧
  (∀ (s : State) (q : QueueId) (n p off st : Nat) (d : DescSt) (l : List (Nat × Nat)),
    s.queueOwner q = some p → s.desc q n = some d → s.mayStart q d = true → s.startHeld p = false → s.descFails p { d with started := true, startAt := s.time } = (off, st) :: l →
    let t := s.endDesc q { d with started := true, startAt := s.time } st off
    (d.fld 0 1 = 0 ∨ 7 < d.fld 0 1 → exec (.descNop q n) s = .next t) ∧ (d.fld 0 1 = 5 → exec (.descScrub q n) s = .next t) ∧ (d.fld 0 1 = 6 → exec (.descFlush q n) s = .next t) ∧
    (d.fld 0 1 = 2 → exec (.descCopy q n) s = .next t) ∧ (d.fld 0 1 = 3 → exec (.descFill q n) s = .next t)) ∧
  (∀ (s : State) (who : FlushWho), s.lens.flushes.any (fun f => f.who == who && f.pages.isEmpty) = true →
    let t : State := { s with lens := { s.lens with flushes := s.lens.flushes.filter (fun f => f.who != who) } }
    (∀ p : PartId, who = .part p → exec (.flushComplete who) s = .next (t.clrB .lnsPFlushCtrl 0 p)) ∧
    (∀ (q : QueueId) (n : Nat) (d : DescSt), who = .desc q n → s.desc q n = some d → exec (.flushComplete who) s = .next (t.endDesc q d 0 0)))

/-- R474, R475: a fill or a copy of one line inside the pool writes the pattern, or the bytes read, at its destination and ends with DONE; one from host memory asks for its data with a free tag; the data's arrival
lets it run, its timeout ends it with TIMEOUT, and data that nothing awaits is counted as an error of the link. -/
def Obligations.CopiesAndFillsMoveData : Prop :=
  (∀ (s : State) (q : QueueId) (n p : Nat) (d : DescSt), descStarts s q n p d → d.fld 0 1 = 2 ∨ d.fld 0 1 = 3 → d.fld 0x28 1 = 0 → d.fld 0x20 8 = 64 → d.pos = 0 → d.host = none →
    let dst := if d.fld 0 1 = 3 then d.fld 0x10 8 else d.fld 0x18 8
    dst % 64 = 0 →
    ∀ (t : State) (v o x : Nat) (u : State) (w : Nat),
      let e : DescSt := { d with started := true, startAt := s.time }
      (if d.fld 0 1 = 3 then t = withStarted s q d ∧ v = (256 ^ 64 - 1) / (2 ^ 64 - 1) * d.fld 0x30 8
        else ∃ o' x', (withStarted s q d).resolve p (d.fld 0x10 8) 64 = some (o', x') ∧ (withStarted s q d).getBytes (reqComp p) o' x' 64 = (t, .ok v)) →
      t.resolve p dst 64 = some (o, x) → t.inFrozen o x 64 = false →
      let lvl := t.compLevel p q 0
      (t.atLevel lvl).putRun (.desc q d.n) (reqComp p) lvl o x 64 v 0 3 = (u, 64, .done) →
      let c := ((u.compCharge p q lvl (64 + 4096 * (u.openSlots - t.openSlots))).setDesc q { e with pos := 64 })
      exec (if d.fld 0 1 = 3 then .descFill q n else .descCopy q n) s =
        .next ((c.flashDone (.desc q d.n)).moveEnd q { e with pos := 64 } (match c.resolve p dst 64 with | some (o, _) => o | none => p) 0 64)) ∧
  (∀ (s : State) (q : QueueId) (n p : Nat) (d : DescSt), descStarts s q n p d → d.fld 0 1 = 2 → d.fld 0x28 1 = 1 → (s.ld d.link d.ld).bme = true → s.linkGone d.link = false →
    let a := d.fld 0x10 8
    let m := d.fld 0x20 8
    let t := withStarted s q d
    let l := t.link d.link
    d.asked = 0 → m ≤ (s.ld d.link d.ld).mrrs → a % 4096 + m ≤ 4096 → l.ioTags.length < 768 →
    exec (.descCopy q n) s =
      .next (((t.setLink d.link { l with ioTags := l.ioTags ++ [{ tag := l.freeTag, q := some q.val, n := d.n, off := 0, len := m }] }).sendUp d.link (.dmaRead d.link d.ld l.freeTag a m)).setDesc q
        { d with started := true, startAt := s.time, asked := m })) ∧
  (∀ (s : State) (link : LinkId) (tag data : Nat),
    (takeFirst (fun (x : IoTag) => x.tag == tag) (s.link link).ioTags = none → exec (.cxlioCompletion link tag data) s = .next (s.incErr .lnkErrUncorr link)) ∧
    ∀ (x : IoTag) (q : Nat) (l : List IoTag) (p : Nat) (d : DescSt), takeFirst (fun (x : IoTag) => x.tag == tag) (s.link link).ioTags = some (x, l) → x.q = some q →
      s.queueOwner q = some p → s.desc q x.n = some d → d.started = true → d.status = none → d.fromHost = true →
      let t := s.setLink link { s.link link with ioTags := l }
      let e : DescSt := { d with host := some (d.host.getD 0 + data % 256 ^ x.len * 256 ^ x.off), came := d.came ++ [(x.off, x.len)] }
      (d.fld 0x20 8 ≤ d.asked → exec (.cxlioCompletion link tag data) s = .next ((t.setDesc q e).moveRun p q e (d.fld 0x20 8 / 64 + 2))) ∧
      exec (.cxlioCompletionTimeout link tag) s = .next ((t.incErr .lnkErrUncorr link).endDesc q d stTimeout (d.pos / 4096)))

/-- R252, R253: a hint that starts acts on each frame of its span in ascending order and then ends where no move of its frames is left to wait for; a pin that does not fit ends with NOSPACE and pins nothing. -/
def Obligations.HintsActOnTheirFrames : Prop :=
  ∀ (s : State) (q : QueueId) (n p : Nat) (d : DescSt), descStarts s q n p d → d.fld 0 1 = 4 →
    let t := withStarted s q d
    let frames := spanFrames (d.fld 0x10 8) (d.fld 0x18 8)
    let lv := d.fld 0x21 1
    let ends (u : State) (c : Instr) : Prop := ∀ e : DescSt, u.desc q n = some e → e.raw = d.raw → exec c s = .next (u.hintEnd q e)
    (d.fld 0x20 1 = 0 → ends (frames.foldl (fun u f => u.prefetchFrame p f lv (q, n)) t) (.hintPrefetch q n)) ∧
    (d.fld 0x20 1 = 1 → s.pinFits p (d.fld 0x10 8) (d.fld 0x18 8) lv = true → ends (frames.foldl (fun u f => u.pinFrame p f lv (q, n)) t) (.hintPin q n)) ∧
    (d.fld 0x20 1 = 1 → s.pinFits p (d.fld 0x10 8) (d.fld 0x18 8) lv = false → s.descFails p d = [] →
      exec (.hintPin q n) s = .next (t.endDesc q { d with started := true, startAt := s.time } stNospace 0)) ∧
    (d.fld 0x20 1 = 2 → ends (frames.foldl (fun u f => u.unpinFrame p f) t) (.hintUnpin q n)) ∧
    (d.fld 0x20 1 = 3 → ends (frames.foldl (fun u f => u.demoteFrame p f (q, n)) t) (.hintDemote q n))

/-- R477, R480: a descriptor of an unmirrored partition whose work has ended has its status word written into its slot and then leaves the queue: QD_DONE counts it, QD_FAILED counts a failure, an MSI-X message goes where
it asks for one; a slot that it may no longer write loses the status word and sets WB_LOST. R347: a scrub pass ends with its summary written and DONE or UNCORRECTABLE. -/
def Obligations.CompletionsAreWrittenBack : Prop :=
  (∀ (s : State) (q : QueueId) (n p st : Nat) (d : DescSt), s.queueOwner q = some p → s.desc q n = some d → d.status = some st → d.stage = 0 → d.result = none → d.fld 4 2 = 0xFFFF →
    let a := (s.rd .qdRingBase q).toNat + 64 * (d.n % 2 ^ s.rdF .qdCtrl 16 5 q)
    (s.inFrozen p a 64 = false → a + 64 ≤ s.apparent p → ∀ (t : State) (w : Nat),
      let lvl := s.compLevel p q 0
      (s.atLevel lvl).putRun (.desc q d.n) (reqComp p) lvl p (a + 8) 8 (st + d.detail * 2 ^ 32) 0 4 = (t, w, .done) →
      let u := t.compCharge p q lvl (8 + 4096 * (t.openSlots - s.openSlots))
      u.mirSync p = false → exec (.descComplete q n) s = .next (u.descGone p q d)) ∧
    (s.inFrozen p a 64 = true ∨ s.apparent p < a + 64 → exec (.descComplete q n) s = .next (((s.wrB .qdStatus 4 true q).setB .queEvent 2).descGone p q d))) ∧
  (∀ (s : State) (p q : Nat) (d : DescSt), s.Canonical → s.mirRole p ≠ 1 → d.fld 1 1 / 2 % 2 = 0 →
    (s.descGone p q d).desc q d.n = none ∧
    (s.descGone p q d).rdF .qdDone 0 48 q = (s.rdF .qdDone 0 48 q + 1) % 2 ^ 48 ∧
    (s.descGone p q d).rdF .qdFailed 0 32 q = (if isFailure (d.status.getD 0) then min (s.rdF .qdFailed 0 32 q + 1) (2 ^ 32 - 1) else s.rdF .qdFailed 0 32 q)) ∧
  (∀ (s : State) (q : QueueId) (n p : Nat) (d : DescSt) (t u : State) (x : ScrubSum), s.queueOwner q = some p → s.desc q n = some d → d.fld 0 1 = 5 → d.started = true → d.status = none →
    s.scrubSpan p (d.fld 0x10 8) (d.fld 0x18 8) (d.fld 0x28 1 == 1) (d.fld 0x29 1 / 2 % 2 == 1) = (t, x) →
    let st := if d.fld 0x29 1 % 2 = 1 ∧ t.dmaRefused d ≠ stDone then t.dmaRefused d else if 0 < x.uncorr then stUncorr else stDone
    t.putSummary p q d (x.record st ((t.time - d.startAt) / 1000) false) true = (u, true) →
    exec (.scrubPassComplete q n) s = .next (u.endDesc q d st 0))

/-! Kernels (11). -/

/-- R356, R358, R359: a launch whose checks pass queues its kernel with the argument block as read, and its descriptor waits; a dispatch gives the first queued kernel in round-robin order its clusters and starts it, or moves past it where too few are free;
one below its wake target only asks for power. -/
def Obligations.KernelsLaunchAndDispatch : Prop :=
  (∀ (s : State) (q : QueueId) (n p : Nat) (d : DescSt), s.queueOwner q = some p → s.desc q n = some d → d.fld 0 1 = 1 → s.mayStart q d = true → s.startHeld p = false → s.descFails p d = [] →
    s.hup.flushAt = none →
    (s.rdF .pwrState 0 2 = 0 → s.rdB .pwrState 7 = false → (s.part p).comp ≠ 0 → s.rdB .strStatus 5 = false →
      ∀ (t u : State) (v : Nat), s.readArgs p (d.fld 0x10 8) = (t, .ok v) → t.launchCheck p (d.fld 0x10 8) (bytesOf (max 64 (fieldOf v 2 2)) v) = (u, .fails []) →
      let w := (u.flashDone (.desc q n)).setDesc q { d with launched := true }
      exec (.descLaunch q n) s = .next { w with comp := { w.comp with
        kernels := w.comp.kernels ++ [{ id := u.comp.nextKid, part := p, queue := q, count := n, block := bytesOf (max 64 (fieldOf v 2 2)) v }], nextKid := w.comp.nextKid + 1 } }) ∧
    (s.rdF .pwrState 0 2 ≠ 0 → exec (.descLaunch q n) s = .next (s.wakeBy 0 2 0)) ∧
    (s.rdF .pwrState 0 2 = 0 → s.rdB .pwrState 7 = false → (s.part p).comp = 0 → exec (.descLaunch q n) s = .next (s.endDesc q d stDenied 0))) ∧
  (∀ (s : State) (p : PartId) (k : KernelSt), s.pickLaunch p = some k → s.hup.flushAt = none → s.rdF .pwrState 0 2 = 0 → s.rdB .pwrState 7 = false → s.quarantined p = false →
    ((s.freeClusters p).length < k.arg 4 1 → exec (.kernelDispatch p) s = .next { s with comp := { s.comp with rr := s.comp.rr.set p (s.queueIdx p k.queue) } }) ∧
    (k.arg 4 1 ≤ (s.freeClusters p).length → k.lid ≠ 0 → exec (.kernelDispatch p) s =
      .next (({ s with comp := { s.comp with rr := s.comp.rr.set p (s.queueIdx p k.queue + 1) } }.flashDone (.kernel k.id)).startKernel k ((s.freeClusters p).take (k.arg 4 1)) [] none)) ∧
    (k.arg 4 1 ≤ (s.freeClusters p).length → k.lid = 0 → ∀ (o x v : Nat) (t : State), s.resolve p (k.arg 0x10 8) (k.arg 0x18 4) = some (o, x) → s.getBytes (reqComp p) o x (k.arg 0x18 4) = (t, .ok v) →
      checkCode (codeWords v (k.arg 0x18 4)) = 0 → exec (.kernelDispatch p) s =
      .next (({ t with comp := { t.comp with rr := t.comp.rr.set p (s.queueIdx p k.queue + 1) } }.flashDone (.kernel k.id)).startKernel k ((s.freeClusters p).take (k.arg 4 1)) (codeWords v (k.arg 0x18 4)) none)))

/-- R366, R369, R307, R375: a kernel past its time limit meets a TIME_LIMIT fault at that moment; a kernel whose cores have all ended, or that met a fault, ends; a wait on flash of 50 ms ends with TIMEOUT; a library that waits for its start takes over. -/
def Obligations.KernelsEndAndTimeOut : Prop :=
  (∀ (s : State) (kid : Nat) (k : KernelSt), s.kernel kid = some k → k.running = true →
    (k.fault = none → k.arg 6 2 ≠ 0 → k.lid ≠ 0 ∨ k.cores.all (fun c => (s.core c).ended) = false →
      exec (.kernelTimeLimit kid) s = .next ((s.reach (k.startAt + 1000000 * k.arg 6 2)).kernelFault kid .timeLimit)) ∧
    (∀ c, k.fault = some c → exec (.kernelEnd kid c) s = .next (s.endKernel k c false)) ∧
    (k.fault = none → k.lid = 0 → k.cores.all (fun c => (s.core c).ended) = true → exec (.kernelEnd kid .normal) s = .next (s.endKernel k .normal false)) ∧
    (k.fault = none → k.lid ≠ 0 → ∀ t r, s.libRun k = .ok t r → exec (.kernelEnd kid .normal) s = .next (t.libEnd kid .normal))) ∧
  (∀ (s : State) (w : FlashWait) (l : List FlashWait), s.flash.waits = w :: l → s.flashWaits w.part w.page = true →
    let t := (s.reach (w.since + 50000000)).flashDone w.who
    (∀ (q : QueueId) (p : Nat), w.who = .ring q → t.queueOwner q = some p → exec (.flashWaitTimeout w.who) s = .next (t.fetchStop p q stTimeout)) ∧
    (∀ (q : QueueId) (n : Nat) (d : DescSt), w.who = .desc q n → t.desc q n = some d → d.status = none → exec (.flashWaitTimeout w.who) s = .next (t.endDesc q d stTimeout (d.pos / 4096))) ∧
    (∀ (id : Nat) (k : KernelSt), w.who = .kernel id → t.kernel id = some k → k.running = true → exec (.flashWaitTimeout w.who) s = .next (t.kernelFault id .timeLimit))) ∧
  (∀ (s : State) (c : Component), s.comp.pendLib = some c →
    exec .libraryActivate s = .next ({ ((s.wr .cmpLibVersion (BitVec.ofNat 64 c.version)).wr .cmpLibKernels (BitVec.ofNat 64 c.kernels.toNat)).putDigest .cmpLibDigest c.digest with
      comp := { s.comp with pendLib := none } }.event { reg := .cmpEvent, bit := 2, value := c.version }))
/-! Host memory requests (04, 05). -/

/-- R112, R148 to R153, R96: a read of a bound, serving partition that meets an isolation entry is counted, charged and served at target + (HPA − base); one that meets none, or whose LD is bound to nothing,
or whose partition is inactive, is answered poisoned and recorded. MemSpecRd is dropped; a request of a partition whose switchover runs is held; a link that carries no CXL.mem takes none. -/
def Obligations.HostReadsAreMatchedAndServed : Prop :=
  ∀ (s : State) (link : LinkId) (ld : LdId) (tag hpa : Nat) (kind : ReadKind),
    (∀ p, s.bound link ld = some p → (s.mirPart p).switching.isSome = true →
      exec (.hostMemRead link ld tag hpa kind) s = .next (s.setMirPart p { s.mirPart p with heldReq := (s.mirPart p).heldReq ++ [.hostMemRead link ld tag hpa kind] })) ∧
    ((∀ p, s.bound link ld = some p → (s.mirPart p).switching = none) →
      (s.linkCarries link = false → exec (.hostMemRead link ld tag hpa kind) s = .next s) ∧
      (kind = .memSpecRd → exec (.hostMemRead link ld tag hpa kind) s = .next s) ∧
      (s.linkCarries link = true → kind ≠ .memSpecRd →
        let t := s.wakeAbort
        let a := hpa / 64 * 64
        (t.ideBlocked link = true → exec (.hostMemRead link ld tag hpa kind) s = .next ((t.ideTell link).hostData link ld tag true 0 .light)) ∧
        (t.ideBlocked link = false → t.hostMatch link ld a = .unbound → exec (.hostMemRead link ld tag hpa kind) s = .next ((t.unmatchedReq link ld a none).hostData link ld tag true 0 .light)) ∧
        (∀ p, t.ideBlocked link = false → t.hostMatch link ld a = .unmatched p →
          exec (.hostMemRead link ld tag hpa kind) s = .next ((t.unmatchedReq link ld a (some p)).hostData link ld tag true 0 .light)) ∧
        (∀ p, t.ideBlocked link = false → t.hostMatch link ld a = .inactive p →
          exec (.hostMemRead link ld tag hpa kind) s = .next ((t.inactiveTell link ld p a).hostData link ld tag true 0 .light)) ∧
        (∀ p k x y, t.ideBlocked link = false → t.hostMatch link ld a = .hit p k x y →
          let n := 16 * link.val + ld.val
          let c := t.countMatch k x
          let u := (((c.charge p 0 (c.classOf p 0 n) (c.levelOf p 0 0 n 0) 64).atLevel (c.levelOf p 0 0 n 0)).mapAccess x.owner (y / 65536)).touchPage x.owner (y / 4096)
          exec (.hostMemRead link ld tag hpa kind) s = .next (u.serveRead
            { link := link, ld := ld, tag := tag, hpa := a, reqPart := p, owner := x.owner, addr := y, level := c.levelOf p 0 0 n 0, at_ := u.time, fill := false } true))))

/-- R112, R153, R204, R205, R212, R218: a write that meets an entry of a frozen range is discarded, counted and completed; any other is put into its slot and completed, or held while no slot can be had, or refused for want of space;
an invalidate completes without data. -/
def Obligations.HostWritesAndInvalidatesComplete : Prop :=
  ∀ (s : State) (link : LinkId) (ld : LdId) (tag hpa : Nat) (data : Line) (be : BitVec 64) (poison nt : Bool),
    s.linkCarries link = true →
    let t := s.wakeAbort
    let a := hpa / 64 * 64
    t.ideBlocked link = false → ∀ p k x y, t.hostMatch link ld a = .hit p k x y →
    let n := 16 * link.val + ld.val
    let c := t.countMatch k x
    exec (.hostMemInvalidate link ld tag hpa nt) s = .next (c.hostCmp link ld tag 3 (t.devLoad p (hubOf (y / 65536)))) ∧
    ((∀ p, s.bound link ld = some p → (s.mirPart p).switching = none) →
      (x.attr = .frozen ∨ c.inFrozen x.owner (y / 64 * 64) 64 = true → exec (.hostMemWrite link ld tag hpa data be poison) s =
        .next (((c.incErr .prtFrozenWrites p).raiseGathered gkFrozen n { reg := .prtFrozenWrites, part := some p, link := some link.val, addr := a, args := [ld.val] }).hostCmp link ld tag 1
          (c.devLoad p (hubOf (y / 65536))))) ∧
      (x.attr ≠ .frozen → c.inFrozen x.owner (y / 64 * 64) 64 = false →
        let u := (((c.charge p 0 (c.classOf p 0 n) (c.levelOf p 0 0 n 0) 64).atLevel (c.levelOf p 0 0 n 0)).mapAccess x.owner (y / 65536)).touchPage x.owner (y / 4096)
        let w : HeldWrite := { link := link, ld := ld, tag := tag, hpa := a, reqPart := p, owner := x.owner, addr := y, data := data, be := be, poison := poison, level := c.levelOf p 0 0 n 0, at_ := u.time,
                               seq := u.lens.seq }
        exec (.hostMemWrite link ld tag hpa data be poison) s = .next (let v := (u.tryWrite w).1
          if (u.tryWrite w).2 = .held then { v with lens := { v.lens with heldW := v.lens.heldW ++ [w], seq := v.lens.seq + 1 } }.incEvt .lnsPSlotStalls x.owner else v)))

/-- R148 to R151: what a host request of an LD meets is an entry of the partition that the LD is bound to, and the address is the entry's target displaced as the request is in the entry's span;
an LD bound to nothing, one whose Memory_Active is 0 (R95), or one of a partition that is not served, meets no entry. -/
def Obligations.HostsReachOnlyTheirRanges : Prop :=
  ∀ (s : State) (link ld hpa p k a : Nat) (x : IsoEntry), s.hostMatch link ld hpa = .hit p k x a →
    s.bound link ld = some p ∧ s.serving p = true ∧ (s.ld link ld).memActive = true ∧ (k, some x) ∈ s.iso ∧ k / 64 = p ∧ x.base ≤ hpa ∧ hpa < x.base + x.len ∧
      a = x.target + (hpa - x.base) ∧ x.target ≤ a ∧ a < x.target + x.len

/-- R207, R209, R214, R255: a line written whole into a slot is ready, reads as written with the poison it came with, is no longer marked for repair, and every other line of the slot keeps its data. -/
def Obligations.WrittenLineReadsBack : Prop :=
  ∀ (x : SlotSt) (now line : Nat) (data : Line) (poison : Bool), line < 64 →
    let y := x.write now line data (BitVec.allOnes 64) poison
    y.lineReady line = true ∧ pageLine y.data line = data ∧ y.poison.getLsbD line = poison ∧ y.bad.getLsbD line = false ∧
    (∀ m, m < 64 → m ≠ line → pageLine y.data m = pageLine x.data m ∧ y.poison.getLsbD m = x.poison.getLsbD m) ∧
    y.hub = x.hub ∧ y.part = x.part ∧ y.page = x.page ∧ y.snap = x.snap

/-- R207, R235, R259: a read of a ready line of an open slot that needs no repair is answered at once with the slot's data and poison, and changes nothing else where the link is up; but the first read of a frame
that stands on flash asks for its promotion. -/
def Obligations.OpenSlotServesReads : Prop :=
  ∀ (s : State) (r : HeldRead) (first : Bool) (x : SlotSt), s.shwBuf r.owner (r.addr / 4096) = none → s.slot r.owner (r.addr / 4096) = some x →
    let t := if s.flashFrame r.owner (r.addr / 4096 / 16) = true ∧ first = true then s.demand r.owner (r.addr / 4096 / 16) else s
    t.shwBuf r.owner (r.addr / 4096) = none → t.slot r.owner (r.addr / 4096) = some x →
    x.lineReady (r.addr / 64 % 64) = true → x.bad.getLsbD (r.addr / 64 % 64) = false → t.linkGone r.link = false →
    s.serveRead r first = t.send (.cxlData r.link r.ld r.tag (x.poison.getLsbD (r.addr / 64 % 64))
      (if x.poison.getLsbD (r.addr / 64 % 64) then 0 else pageLine x.data (r.addr / 64 % 64)) (s.devLoad r.reqPart (hubOf (r.addr / 4096 / 16))))

/-- The pool holds what was last stored in each page; storing a page leaves every other page as it was. -/
def Obligations.PoolPagesReadBack : Prop :=
  ∀ (s : State) (p page : Nat) (v : Page), s.Canonical → page < 2 ^ 35 →
    (s.setPoolPage p page v).poolPage p page = v ∧
    ∀ q k, k < 2 ^ 35 → (q ≠ p ∨ k ≠ page) → (s.setPoolPage p page v).poolPage q k = s.poolPage q k

/-! In-line compression and merge slots (06). -/

/-- R206 to R213, R226, R336, R348: a fill's arrival fills its slot and serves the reads that wait for it; an age expiry seals a FILLING slot; a free Lens unit takes the slot of highest level, then of earliest seal, and snapshots it; a commit brings its snapshot to the pool; a flush sets its bit and seals
the partition's slots; a deferred write-back is read again; a flip mask arms only while FLIP_ENABLE is 1 and is never armed in a cluster decoder. -/
def Obligations.MergeSlotEvents : Prop :=
  (∀ (s : State) (p : PartId) (page : Nat) (x : SlotSt), s.slot p page = some x →
    (s.flashPage p page = false ∨ s.ftlDown (some (hubOf (page / 16))) = false →
      exec (.mergeFillArrive p page) s = .next (((if x.filled = true then s else ((s.atLevel x.level).viewPage x.req p page).1).releaseReads
        (fun r => r.fill && r.owner == p && r.addr / 4096 == page)).flashReadEnd (fun r => r.part == p && r.page == page))) ∧
    (x.state = .filling → exec (.mergeAgeExpiry p page) s =
      .next (let t := s.reach (x.ageAt + 1000 * s.rdF .lnsMergeAge 0 10)
        t.setSlot { x with state := .sealed, sealAt := t.time })) ∧
    (x.state = .encoding → ∀ d po, x.snap = some (d, po) →
      let done (t : State) : State := (((t.clrB .lnsUStatus 0 x.unit).incEvt .lnsPCommits x.part).slotAfter x).flushSeen x.part x.page
      let r := (s.atLevel x.level).commitContent x.part x.page x.req x.unit d po
      let c := (s.atLevel x.level).commitCorrection x
      exec (.slotCommit p page) s = .next (if x.corr = true then done (if po = 0 then c.cleanPoison x.part x.page else c)
        else if r.2 = true then done (r.1.afterCommit x.part x.page d po false) else r.1.setSlot { x with waitReloc := true }))) ∧
  (∀ (s : State) (h : HubId) (x : SlotSt) (i : Nat), i < 8 → s.rdB .lnsUStatus 0 (8 * h + i) = false →
    leastBy (fun (x : SlotSt) => (7 - x.level) * 2 ^ 64 + x.sealAt) (s.encodable h) = some x →
    exec (.slotEncodeStart h) s = .next (((s.takeUnit h).2.setB .lnsUStatus 0 (s.takeUnit h).1).snapshotSlot x (s.takeUnit h).1)) ∧
  (∀ (s : State) (h : HubId) (w : HeldWrite), s.lens.heldW = [w] → hubOf (w.addr / 65536) = h → exec (.heldWriteRelease h) s =
    .next (let t := (s.tryWrite w).1; if (s.tryWrite w).2 = .held then t else { t with lens := { t.lens with heldW := t.lens.heldW.erase w } })) ∧
  (∀ (s : State) (p : PartId), s.rdB .lnsPFlushCtrl 0 p = false →
    exec (.partitionFlush p) s = .next ((s.setB .lnsPFlushCtrl 0 p).startFlush (.part p) (fun x => x.part == p.val))) ∧
  (∀ (s : State) (h : HubId) (p page : Nat) (l : List (Nat × Nat × Nat)), s.slotsFree h ≠ 0 → s.lens.wb = (h.val, p, page) :: l →
    exec (.deferredWritebackOpen h) s = .next ({ s with lens := { s.lens with wb := l } }.readPage reqScrub p page true true).1) ∧
  (∀ (s : State) (u : FlipUnit),
    (s.rdB .eccCtrl 0 = true → (∀ n : Fin 48, u = .lens n → n.val < 16) → exec (.flipArm u) s = .next (s.wrB (flipReg u).1 63 true (flipReg u).2)) ∧
    (s.rdB .eccCtrl 0 = false → exec (.flipArm u) s = .next s) ∧
    exec (.flipDisarm u) s = .next (s.wrB (flipReg u).1 63 false (flipReg u).2)) ∧
  (∀ (s : State) (p : PartId) (val : BitVec 32), s.Canonical → ∃ t, exec (.watermarkWrite p val) s = .next t ∧
    ∀ i, i < 3 → t.rdF .lnsPWatermark (8 * i) 8 p = (let v := val.toNat / 2 ^ (8 * i) % 256; if v = 0 ∨ 100 < v then 100 else v))

/-! Tiers (07). -/

/-- R240: a touch raises a page's counter below 255 by one; a counter that reaches 255 halves all sixteen; no counter exceeds 255. -/
def Obligations.HeatCountersHalveTogether : Prop :=
  ∀ (h : List Nat) (k : Nat), h.length = 16 → k < 16 → (∀ x ∈ h, x ≤ 255) →
    let v := if h.getD k 0 < 255 then h.getD k 0 + 1 else h.getD k 0
    (v < 255 → heatTouch h k = h.set k v) ∧
    (v = 255 → heatTouch h k = (h.set k 255).map (fun x => x / 2) ∧ (heatTouch h k).getD k 0 = 127) ∧
    (heatTouch h k).length = 16 ∧ ∀ x ∈ heatTouch h k, x ≤ 255

/-- R241 to R268, R558: an aging epoch counts while the hubs are powered; a sweep visit brings an entry up to date and applies the tier tests; a hub with room starts its next move, a finished copy commits its move and serves the reads held for it; flash data serves the reads that wait for its page; a held read
past its ceiling is a deep miss; a read of the map outside the partition reports RANGE. -/
def Obligations.TierManagerEvents : Prop :=
  (∀ s : State, (s.hubsOff = false →
      let t := s.reach (s.tier.epochAt + 1000000 * s.rdF .tirAgeEpoch 0 10)
      exec .agingEpoch s = .next (({ t with tier := { t.tier with epochAt := t.time } } : State).wr .tirEpochNow (s.rd .tirEpochNow + 1))) ∧
    (s.hubsOff = true → exec .agingEpoch s = .next s)) ∧
  (∀ (s : State) (f : FrameSt), s.aged f =
    { f with heat := f.heat.map (fun h => h / 2 ^ min ((s.epoch16 + 65536 - f.stamp % 65536) % 65536) 8), stamp := (s.rd .tirEpochNow).toNat % 65536 }) ∧
  (∀ (s : State) (p : PartId) (f : Nat), f < 2 ^ 31 →
    ((s.frame p f).state = .zero → exec (.sweeperVisit p f) s = .next s) ∧
    ((s.frame p f).state ≠ .zero → let u := (s.sweepPass p f).mapAccess p f
      let t := u.setFrame p f (u.aged (u.frame p f))
      t.moveOf p f false = none → exec (.sweeperVisit p f) s = .next (((t.sweepFrame p f).excess p).checkBudget)) ∧
    (∀ m, s.moveOf p f true = some m → m.kind ≠ .replDown →
      let u := s.moveLevel m
      let r := u.copyPages p f (u.frame p f) (u.homeCopy (u.frame p f)) false
      (m.destTier = 2 → u.halfOpen 2 0 = false → exec (.moveCopyDone p f) s = .next (((u.abortMove p f).declineServed m).serveMoved p f)) ∧
      (m.destTier ≠ 2 ∨ u.halfOpen 2 0 = true → r.bad = none → exec (.moveCopyDone p f) s = .next ((r.s.commitMove m (u.frame p f) r.pages).serveMoved p f)))) ∧
  (∀ (s : State) (h : HubId) (m : Move), s.migActive h < 256 → s.nightBound = false → s.hubHot h = false →
    s.ftlDown (some h.val) = false → s.nextMove h = some m → exec (.moveStart h) s = .next (s.startMove m)) ∧
  (∀ (s : State) (p : PartId) (page : Nat), s.ftlDown (some (hubOf (page / 16))) = false →
    let held (r : HeldRead) : Bool := !r.fill && r.owner == p && r.addr / 4096 == page
    let done (t : State) : State := t.flashReadEnd (fun r => r.part == p && r.page == page)
    exec (.flashReadDataArrive p page) s = .next (if s.fromFlash p page = true
      then done (({ s with tier := { s.tier with staged := s.tier.staged ++ [stageKey p page] } }.releaseReads held).unstage p page) else done (s.releaseReads held))) ∧
  (∀ (s : State) (link : LinkId) (tag : Nat) (r : HeldRead) (l : List HeldRead), s.tier.heldR = r :: l → r.link = link → r.tag = tag → r.fill = false ∨ (s.frame r.owner (r.addr / 65536)).home = 2 →
    exec (.deepMissExpiry link tag) s = .next (({ s with tier := { s.tier with heldR := l } }.reach (r.at_ + 1000 * s.rdF .tirPDeepMissUs 0 8 r.reqPart)).deepMiss r)) ∧
  (∀ s : State, s.apparent (fld (s.rd .tirMapAddr) 60 4) ≤ fld (s.rd .tirMapAddr) 16 31 * 65536 → exec .mapRead s = .next (s.wr .tirMapStat (BitVec.ofNat 64 (256 * stRange)))) ∧
  (∀ (s : State), let p := fld (s.rd .tirMapAddr) 60 4
    let f := fld (s.rd .tirMapAddr) 16 31
    f * 65536 < s.apparent p → (s.frame p f).state = .zero → (s.frame p f).mapBad = 0 → s.mapCached p f = true →
      let t := s.setFrame p f (s.frame p f)
      exec .mapRead s = .next (((List.range 16).foldl (fun (u : State) i =>
        u.wr .tirMapData (BitVec.ofNat 64 ((s.frame p f).entryWord p (t.shadowed p f) / 2 ^ (32 * i) % 2 ^ 32)) i) t).wr .tirMapStat 3))

/-- R220, R246: a frame whose run lies in the relocation area moves home when there is room there and its pages can be read; its destination is counted for the partition, and quota excess is then looked at. -/
def Obligations.RelocatedFramesMoveHome : Prop :=
  ∀ (s : State) (p : PartId) (f : Nat), let e := s.frame p f
    (e.reloc = false ∨ e.hasRun = false → exec (.relocMoveHome p f) s = .next s) ∧
    (e.reloc = true → e.hasRun = true → ∀ t d h, s.moveDest { part := p, frame := f, cls := 1, kind := .goHome, target := e.home } e = .at_ t d h →
      let b := t.newBase d h (e.freshAllots.foldl (fun x y => x + y) 0 + tailSectors (t.strength d))
      let r := b.2.copyPages p f e (b.2.homeCopy e) false
      r.bad = none → exec (.relocMoveHome p f) s = .next ((r.s.commitMove
        { part := p, frame := f, cls := 1, kind := .goHome, target := e.home, running := true, destTier := d, destBase := b.1, destAllot := e.freshAllots } e r.pages).excess p))

/-! DRAM, gathered events and quality of service (08, 05, 15). -/

/-- R287: a probe that finds a moved edge shifts its lane's delay by one tap, and the shift that takes the lane to more than 8 taps from its swept centre sets the controller's event; the saved results follow at most once per 10 s.
R288, R498: a refresh is served before every other request, and is noted for its bank. R291, R293: a Rowhammer window's end clears the counts and takes one window off each throttle. R280, R281: a rebuild onto the spare channel
starts for the lost channel of the hub, and its end puts the spare into service. R626: the end of a gather window in which records were held raises one record that counts them. -/
def Obligations.MemoryUpkeepEvents : Prop :=
  (∀ (s : State) (m : MemCtrl), let k := ctrlId m
    let t := s.reach (Store.get 0 k s.dram.probeAt + 100000000)
    let u : State := { t with dram := { t.dram with probeAt := Store.set 0 k t.time t.dram.probeAt } }
    exec (.trainingProbe m []) s = .next u ∧
    ∀ (x : LaneMove) (l : LaneSt), (Store.get [] k u.dram.lanes)[x.lane]? = some l →
      let v : State := { u with dram := { u.dram with lanes := Store.set [] k ((Store.get [] k u.dram.lanes).set x.lane (l.shift x)) u.dram.lanes } }
      let w := if (l.shift x).drifted = true ∧ l.drifted = false then v.event { reg := if 64 ≤ k then .hbcEvent else .lpcEvent, bit := 5, addr := k % 64, value := x.lane } else v
      exec (.trainingProbe m [x]) s = .next (if w.time < Store.get 0 k w.dram.savedAt + 10000000000 then w else w.saveLanes k)) ∧
  (∀ (l : LaneSt) (x : LaneMove), (l.drifted = true ↔ 8 < l.readDrift.natAbs ∨ 8 < l.writeDrift.natAbs) ∧
    (x.write = false → (l.shift x).readDelay = (if x.up then l.readDelay + 1 else l.readDelay - 1) ∧ (l.shift x).readDrift = l.readDrift + (if x.up then 1 else -1) ∧ (l.shift x).writeDelay = l.writeDelay) ∧
    (x.write = true → (l.shift x).writeDelay = (if x.up then l.writeDelay + 1 else l.writeDelay - 1) ∧ (l.shift x).writeDrift = l.writeDrift + (if x.up then 1 else -1) ∧ (l.shift x).readDelay = l.readDelay)) ∧
  (∀ (s : State) (m : MemCtrl) (k : RefreshKind) (b : Nat), s.dram.queue = [] →
    exec (.refreshIssue m k b) s = .next { s with dram := { s.dram with refAt := Store.set 0 (bankKey (ctrlId m) b) s.time s.dram.refAt, openRow := [], rowHits := [] } }) ∧
  (∀ (hit : CtrlReq → Bool) (n i : Nat) (q : List CtrlReq), q.findIdx? (·.refresh) = some i → ctrlPick hit n q = some (i, false)) ∧
  (∀ s : State, (∀ x ∈ s.dram.throttle, 2 ≤ x.2.2) → let t := s.reach (s.dram.rhAt + 32000000)
    exec .rowhammerWindowEnd s = .next { t with dram := { t.dram with rh := [], rhAt := t.time, throttle := t.dram.throttle.map (fun x => (x.1, x.2.1, x.2.2 - 1)) } }) ∧
  (∀ (s : State) (ch bit : Nat), s.dram.throttle = [(ch, bit, 1)] →
    exec .rowhammerWindowEnd s = .next (let u := s.reach (s.dram.rhAt + 32000000)
      let t : State := { u with dram := { u.dram with rh := [], rhAt := u.time, throttle := [] } }
      if 64 ≤ ch then t.wrB .hbcSThrottle bit false (ch - 64) else t.wrB .lpcCThrottle bit false ch)) ∧
  (∀ (s : State) (g : Fin 2), s.Canonical → s.rdB .lpcRebuildCtrl g = false →
    (exec (.lpRebuildStart g) s = .next (s.rebuildStart g)) ∧
    (∀ i, (List.range 16).find? (fun i => (s.rdF .lpcCState 0 3 (17 * g + i) == 2 || s.rdF .lpcCState 0 3 (17 * g + i) == 4) && s.rdF .lpcGroupState (4 * (2 * g + i / 8)) 2 == 1) = some i →
      s.rdB .lpcSpare (8 * g + 6) = false → s.rdF .lpcCState 0 3 (17 * g + 16) ≠ 2 → s.rdF .lpcCState 0 3 (17 * g + 16) ≠ 4 →
      ∃ t, exec (.lpRebuildStart g) s = .next t ∧ t.rdB .lpcRebuildCtrl g = true ∧ t.rd .lpcRebuildPtr g = 0 ∧ t.rdF .lpcCState 0 3 (17 * g + 16) = 3)) ∧
  (∀ (s : State) (g : Fin 2), s.rdF .lpcCState 0 3 (17 * g + 16) = 3 → s.rdF .lpcGroupState (4 * s.rdF .lpcCState 8 2 (17 * g + 16)) 2 = 2 →
    let n := s.rdF .lpcCState 8 2 (17 * g + 16)
    let t := (s.reach (s.dram.rebuildAt.getD g 0 + 128 * 2 ^ 30 / 40)).wr .lpcRebuildPtr (2 ^ 31) g
    exec (.lpRebuildDone g) s = .next ((((t.wrF .lpcCState 0 3 0 (17 * g + 16)).wrF .lpcGroupState (4 * n) 2 0).clrB .lpcRebuildCtrl g).event { reg := .lpcEvent, bit := 1, addr := 17 * g + 16, value := n })) ∧
  (∀ (s : State) (kind key : Nat) (g : Gather), Store.get none (gatherKey kind key) s.ev.gather = some g →
    let t := s.reach (g.opened + 1000000)
    (g.first = none → exec (.eventGatherWindowEnd kind key) s = .next { t with ev := { t.ev with gather := Store.set none (gatherKey kind key) none t.ev.gather } }) ∧
    (∀ r, g.first = some r → exec (.eventGatherWindowEnd kind key) s =
      .next ((({ t with ev := { t.ev with gather := Store.set none (gatherKey kind key) (some { opened := t.time }) t.ev.gather } } : State).raise { r with count := g.count }).tiedMsix g.msix)))

/-- R500, R511, R512, R513, R514: a window ends at a multiple of 100 µs of module time, each window of a partition once, and records each class's largest latency; the background rate follows the occupancy measured once per 1 µs; a waiting read is raised to level 4 at QOS_AGE_US;
an urgency pin's level and the time it was asserted are kept, and a pin asserted for 10 ms is reported stuck once. -/
def Obligations.QosEvents : Prop :=
  (∀ (s : State) (p : PartId) (x : QosSample) (c : QosClass), (s.qosRec p).classes = [c] → (s.classRec p 0).guaranteed = false →
    let t := s.windowEnd p
    exec (.qosWindowEnd p [x]) s = .next (if (s.rd .qosPLatMax p 0).toNat < min x.latNs (2 ^ 20 - 1) then t.wr .qosPLatMax (BitVec.ofNat 64 (min x.latNs (2 ^ 20 - 1))) p 0 else t)) ∧
  (∀ (s : State) (p : PartId), Store.get 0 p s.qos.windowAt % 100000 = 0 →
    (s.windowEnd p).time % 100000 = 0 ∧ s.time ≤ (s.windowEnd p).time ∧ Store.get 0 p s.qos.windowAt + 100000 ≤ (s.windowEnd p).time) ∧
  (∀ (s : State) (a b : Nat),
    let t := s.reach (s.qos.bgAt + 1000)
    exec (.bgRateSample a b) s =
      .next (({ t with qos := { t.qos with bgAt := t.time } } : State).wr .qosBgRate (BitVec.ofNat 64 (bgRate (s.rdF .qosMigReserve 0 7) a + 65536 * bgRate (s.rdF .qosMigReserve 0 7) b)))) ∧
  (∀ r b : Nat, r ≤ 96 → bgRate r b ≤ 96 ∧ r ≤ bgRate r b ∧ (b ≤ 25 → bgRate r b = 96) ∧ (75 ≤ b → bgRate r b = r)) ∧
  (∀ (s : State) (link : LinkId) (tag : Nat) (r : HeldRead), s.tier.heldR = [r] → r.link = link.val → r.tag = tag → s.lens.heldW = [] →
    let t := s.reach (r.at_ + 1000 * s.rdF .qosAgeUs 0 8)
    exec (.requestAgeExpiry link tag) s = .next { t with tier := { t.tier with heldR := [{ r with level := max r.level 4 }] }, lens := { t.lens with heldW := [] } }) ∧
  (∀ (s : State) (n : Fin 4),
    (s.rdB .qosUrgPins n = false → exec (.urgPinChange n true) s = .next ((s.setB .qosUrgPins n).pinSince n (some s.time))) ∧
    (s.rdB .qosUrgPins n = true → exec (.urgPinChange n true) s = .next s) ∧
    (exec (.urgPinChange n false) s = .next (((s.clrB .qosUrgPins n).clrB .qosUrgPins (4 + n)).pinSince n none)) ∧
    (∀ t0, s.rdB .qosUrgPins n = true → s.rdB .qosUrgPins (4 + n) = false → s.qos.pinAt.getD n none = some t0 →
      exec (.urgPinStuck n) s = .next (((s.reach (t0 + 10000000)).setB .qosUrgPins (4 + n)).event { reg := .qosEvent, bit := n, value := n })))

/-! Carriers (09). -/

/-- R306, R307, R309 to R314: carrier media events: a NAND timeout counts and is answered by its operation (a read is tried again, a program or an erase retires its block, a read that could not suspend waits), and the eighth
within a second fails the carrier; background work rewrites stripes of data and moves the counts of the system area's; a restripe runs while stripes are exposed; an adopted or rebuilt carrier enters IN_SERVICE (logs 22 and 46). -/
def Obligations.CarrierMediaEvents : Prop :=
  (∀ (s : State) (f : Fin 32) (lun : Fin 16) (op : NandOp),
    let l := ((s.bay (f / 8)).expiries.filter (fun t => s.time < t + 1000000000)) ++ [s.time]
    let t := (s.incErr .flcCTimeouts f).setBay (f / 8) { s.bay (f / 8) with expiries := l }
    let n := 16 * f.val + lun.val
    let u : State := match op with
      | .read => { t with flash := { t.flash with reads := t.flash.reads.map (fun r => if r.lun = n then { r with tries := r.tries + 1 } else r) } }
      | .suspend => t.nandResume (some n)
      | .program => (({ t with flash := { t.flash with busy := t.flash.busy.filter (fun b => b.lun != n || b.erase) } } : State).blockRetire f).nandBegin n false
      | .erase => ({ t with flash := { t.flash with busy := t.flash.busy.filter (fun b => b.lun != n || !b.erase) } } : State).blockRetire f
    exec (.nandOpTimeout f lun op) s = .next (if 8 ≤ l.length then u.carrierFailed (f / 8) else u)) ∧
  (∀ (s : State) (n : Nat) (b : Fin 4) (f : Fin 32) (lun : Fin 16) (p : PartId), s.ftlDown none = false →
    (s.writable < 4 → (∀ x ∈ s.flash.stripes, x.1 ∈ s.nandPages.map (fun y => y.2.2.2.stripe)) → exec (.ftlBackgroundWork (.collect n)) s = .next s) ∧
    (s.hup.flushAt = none → s.flash.restriping = true ∨ s.flash.short = true →
      let l := (s.stripesIn Stripe.exposed).take n
      let t := ({ s with flash := { s.flash with restriping := true, short := false } } : State).ftlWrites n
      exec (.ftlBackgroundWork (.restripe n)) s = .next (((t.rewriteStripes l).setExposed (t.flash.exposed - (n - l.length))).arrayUpdate)) ∧
    (s.hup.flushAt = none → (List.range 4).find? (fun x => s.bayState x == 7) = some b.val →
      let l := (s.stripesIn Stripe.exposed).take n
      exec (.ftlBackgroundWork (.rebuild n)) s = .next ((((s.ftlWrites n).rebuildMembers b l).setExposed (s.flash.exposed - (n - l.length))).arrayUpdate)) ∧
    (s.hup.flushAt = none → s.bayState b = 4 ∨ s.bayState b = 5 →
      let l := (s.stripesIn (fun x => x.has b)).take n
      exec (.ftlBackgroundWork (.evacuate b n)) s = .next ((((s.ftlWrites n).rewriteStripes l).setLive b ((s.bay b).live - (n - l.length))).arrayUpdate)) ∧
    exec (.ftlBackgroundWork (.rekey p n)) s = .next ((s.ftlWrites n).rekey p n) ∧
    exec (.ftlBackgroundWork (.erase f lun n)) s = .next ((s.incEvt .carBErases (f / 8) n).nandBegin (16 * f.val + lun.val) true) ∧
    exec (.ftlBackgroundWork (.blockFail f)) s = .next (s.blockRetire f)) ∧
  (∀ s : State,
    (s.exposedAll = 0 → exec .restripe s = .next ((s.setB .carCtrl 0).clrB .carCtrl 0)) ∧
    (s.exposedAll ≠ 0 → exec .restripe s = .next { s.setB .carCtrl 0 with flash := { s.flash with restriping := true, short := false } }) ∧
    (s.flash.restriping = true →
      let t := ({ s with flash := { s.flash with restriping := false } } : State).clrB .carCtrl 0
      (s.exposedAll = 0 → exec .restripeComplete s = .next ({ t with flash := { t.flash with lostPos := none } } : State).arrayUpdate) ∧
      (s.exposedAll ≠ 0 → exec .restripeComplete s = .next (({ t with flash := { t.flash with short := true } } : State).event { reg := .carEvent, bit := 0, value := s.exposedAll })))) ∧
  (∀ (s : State) (b : Fin 4),
    (∀ bad : BitVec 8, s.bayState b = 2 → let t := s.adoptOne b bad.getLsbD
      exec (.carrierAdopted b bad) s = .next (if t.bayState b = 6 then t else ((t.wrB .carBSlotCtrl 2 false b).setB .carBEvent 7 b).arrayUpdate)) ∧
    (s.bayState b = 7 → let t := (s.setBayState b 3).rebuildMembers b (s.stripesIn Stripe.exposed)
      exec (.carrierRebuildDone b) s = .next (({ t with flash := { t.flash with restriping := false, short := false } } : State).setExposed 0).arrayUpdate) ∧
    (s.bayState b = 5 → s.liveOn b = 0 → exec (.evacuationComplete b) s = .next ((s.slotOff b).arrayUpdate)) ∧
    (s.bayState b = 5 → s.liveOn b ≠ 0 →
      let t := ({ s with flash := { s.flash with lostPos := some b.val } } : State).setExposed (s.flash.exposed + (s.bay b).live)
      exec (.evacuationComplete b) s = .next ((((t.loseMembers b).event { reg := .carEvent, bit := 0, addr := b, value := s.liveOn b }).slotOff b).arrayUpdate)))

/-- R315 to R320, R620: the bay controls: a press within 200 ms of the last is ignored; a press on an occupied bay opens the power-on or the removal window, and one during a window aborts it; a window's end powers the carrier on, or evacuates it
or takes its members away; insertion sets PRESENT and its event; a removal or an over-current with power on fails the carrier and takes its power and channels away. REMOVE and POWER_ON stay set while their action runs (R15). -/
def Obligations.BaySlotEvents : Prop :=
  ∀ (s : State) (b : Fin 4), s.Canonical →
    (∀ t, (s.bay b).pressedAt = some t → s.time < t + 200000000 → exec (.bayButtonPress b) s = .next s) ∧
    ((s.bay b).pressedAt = none → b.val < s.flash.bays.length → (s.bay b).window = none →
      let t := (s.setBay b { s.bay b with pressedAt := some s.time }).setB .carBEvent 1 b
      (s.bayState b = 0 → exec (.bayButtonPress b) s = .next t) ∧
      (s.bayState b = 1 → exec (.bayButtonPress b) s = .next ((t.setBay b { t.bay b with window := some (false, t.time) }).setInd b 2)) ∧
      (s.bayState b = 3 → exec (.bayButtonPress b) s = .next (t.removeReq b true))) ∧
    ((s.bay b).window = none → s.bayState b ≠ 5 → let t := s.removeReq b false
      exec (.remove b) s = .next (t.wrB .carBSlotCtrl 3 (t.bay b).window.isSome b)) ∧
    ((s.bay b).window ≠ none ∨ s.bayState b = 5 → exec (.remove b) s = .next s) ∧
    (∀ press, (s.rdB .carBSlotCtrl 7 b = false) → s.bayState b = 3 → s.arrayNotWhole b = false →
      s.removeReq b press = (s.setBay b { s.bay b with window := some (true, s.time) }).setInd b 2) ∧
    (∀ press, s.bayState b = 0 → s.removeReq b press = s.event { reg := .carBEvent, bit := 4, addr := b } b) ∧
    (∀ r t, (s.bay b).window = some (r, t) →
      exec (.removalAbort b) s = .next (((((s.setBay b { s.bay b with window := none }).wrB .carBSlotCtrl 2 false b).wrB .carBSlotCtrl 3 false b).setInd b (if r then 1 else 0)).setB .carBEvent 8 b)) ∧
    (∀ t, (s.bay b).window = some (true, t) →
      let u := (s.reach (t + 5000000000)).setBay b { s.bay b with window := none }
      (s.rdB .carBSlotCtrl 5 b = true → exec (.removalWindowExpiry b) s = .next (((u.setBayState b 5).evacuate b).arrayUpdate)) ∧
      (s.rdB .carBSlotCtrl 5 b = false → exec (.removalWindowExpiry b) s = .next (((u.membersLost b).slotOff b).arrayUpdate))) ∧
    (∀ t, (s.bay b).window = some (false, t) → exec (.powerOnWindowExpiry b) s = .next ((s.reach (t + 5000000000)).startCarrier b)) ∧
    (s.bayState b = 1 → exec (.carrierPowerOn b) s = .next ((s.startCarrier b).wrB .carBSlotCtrl 2 true b)) ∧
    (s.rdB .carBSlotStatus 0 b = false →
      let t := ((s.wrB .carBSlotStatus 0 true b).setB .carBEvent 0 b).setBayState b 1
      let u := t.setBay b { t.bay b with rejoin := false }
      let v : State := { u with img := { u.img with boot := u.img.boot.set b (Config.bootArea s.free) }, free := s.free + 1 }
      exec (.carrierInsert b) s = .next (if s.rdB .carBSlotCtrl 6 b then v.startCarrier b else v)) ∧
    (s.rdB .carBSlotStatus 0 b = true →
      let u := (s.wrB .carBSlotStatus 0 false b).setB .carBEvent 0 b
      let t : State := { u with img := { u.img with boot := u.img.boot.set b none } }
      (s.rdB .carBSlotStatus 1 b = true → exec (.carrierSurpriseRemoval b) s = .next (((((t.setB .carBEvent 3 b).carrierFailed b).wrB .carBSlotStatus 1 false b).setInd b 0).channelsDown b)) ∧
      (s.rdB .carBSlotStatus 1 b = false → exec (.carrierSurpriseRemoval b) s =
        .next ((((t.setBay b { t.bay b with window := none, rejoin := false }).wrB .carBSlotCtrl 2 false b).wrB .carBSlotCtrl 3 false b).setBayState b 0))) ∧
    (s.rdB .carBSlotStatus 1 b = true →
      exec (.slotOverCurrent b) s = .next (((((s.wrB .carBSlotStatus 1 false b).setB .carBEvent 2 b).carrierFailed b).setInd b 0).channelsDown b))

/-! CXL mailbox (05, 17). -/

/-- R115, R142, R143, R343: what each CXL mailbox command answers and changes for its own LD: logs are read and cleared by handle, the policy, the alert settings and the time are stored and read back, the poison list holds what was injected and lacks what was cleared.
Return codes and payload layouts are the model's (logs 40 and 57). -/
def Obligations.CxlMailboxCommands : Prop :=
  ∀ (s : State) (link : LinkId) (ld : LdId) (p : Nat), mboxReaches s link ld p →
    let d := s.ld link ld
    (∀ n, n ≤ 3 → exec (.getEventRecords link ld n) s = .next (s.send (.events (some link) (some ld) ((d.log.filter (fun e => e.1 == n)).map (·.2))))) ∧
    (∀ n hs, n ≤ 3 → exec (.clearEventRecords link ld n true hs) s = .next ((s.setLd link ld { d with log := d.log.filter (fun e => e.1 != n) }).mbox link ld mbOk [])) ∧
    (∀ n hs, n ≤ 3 → (∀ h ∈ hs, ∃ e ∈ d.log, e.1 = n ∧ e.2.handle = h) →
      exec (.clearEventRecords link ld n false hs) s = .next ((s.setLd link ld { d with log := d.log.filter (fun e => !(e.1 == n && hs.contains e.2.handle)) }).mbox link ld mbOk [])) ∧
    (exec (.getEventInterruptPolicy link ld) s = .next (s.mbox link ld mbOk d.policy)) ∧
    (∀ l : List Nat, l.length = 4 → (∀ v ∈ l, v ≤ 255) → exec (.setEventInterruptPolicy link ld l) s = .next ((s.setLd link ld { d with policy := l }).mbox link ld mbOk [])) ∧
    (exec (.getFwInfo link ld) s = .next (s.mbox link ld mbOk [(s.rd .fwmVersion).toNat])) ∧
    (exec (.getTimestamp link ld) s = .next (s.mbox link ld mbOk [if d.tsHost = 0 then 0 else d.tsHost + (s.time - d.tsAt)])) ∧
    (∀ ns, exec (.setTimestamp link ld ns) s = .next ((s.setLd link ld { d with tsHost := ns, tsAt := s.time }).mbox link ld mbOk [])) ∧
    (exec (.getSupportedLogs link ld) s = .next (s.mbox link ld mbOk [0, 1])) ∧
    (exec (.identifyMemoryDevice link ld) s = .next (s.mbox link ld mbOk [s.apparent p, if s.durable p then 0 else s.apparent p, if s.durable p then s.apparent p else 0])) ∧
    (exec (.getAlertConfig link ld) s = .next (s.mbox link ld mbOk d.alert)) ∧
    (∀ l, exec (.setAlertConfig link ld l) s = .next ((s.setLd link ld { d with alert := l }).mbox link ld mbOk [])) ∧
    (∀ a t, a % 64 = 0 → s.inPrivate p a 64 = true → s.mboxLine p a 0 true = (t, 0) → exec (.injectPoison link ld a) s = .next ((t.addPoisonPage p (a / 4096)).mbox link ld mbOk [])) ∧
    (∀ a v t, a % 64 = 0 → s.inPrivate p a 64 = true → s.mboxLine p a v false = (t, 0) →
      exec (.clearPoison link ld a v) s = .next ((t.dropPoison p (fun e => decide (a ≤ e.addr ∧ e.addr + e.len ≤ a + 64))).mbox link ld mbOk [])) ∧
    (∀ a n, exec (.getPoisonList link ld a n) s = .next (s.mbox link ld mbOk ((if s.rdB .eccPoisonOvf p then 1 else 0) ::
      ((s.part p).poison.filter (fun e => decide (e.addr < a + n ∧ a < e.addr + e.len) && s.inPrivate p e.addr e.len)).flatMap (fun e => [e.addr, e.len])))) ∧
    (exec (.getScanMediaResults link ld) s = .next (s.mbox link ld mbOk (d.scanHits.flatMap (fun e => [e.1, e.2])))) ∧
    (∀ a n, 0 < n → a + n ≤ s.apparent p → ∃ t : State, ∃ l, exec (.scanMedia link ld a n) s = .next (t.mbox link ld mbBackground []) ∧ t.ld link ld = { t.ld link ld with scan := some (a, n), scanHits := l }) ∧
    (∀ skip, skip ≤ 255 → ∃ l : List Nat, l.length ≤ 64 ∧ exec (.getLostResponses link ld skip) s = .next (s.mbox link ld mbOk (l.length :: l)))

/-- R115: the mailbox's queries change nothing but what the module has sent and how many free values it has used; where the link does not carry, nothing at all happens; an LD without a binding and an opcode that is not of the list
are answered Unsupported (log 40); health, scan capabilities and the CEL's effects bytes are free values (log 40). -/
def Obligations.CxlMailboxQueriesOnlyAnswer : Prop :=
  ∀ (s : State) (link : LinkId) (ld : LdId) (c : Instr),
    ((∃ n, c = .getEventRecords link ld n) ∨ c = .getEventInterruptPolicy link ld ∨ c = .getFwInfo link ld ∨ c = .getTimestamp link ld ∨ c = .getSupportedLogs link ld ∨
      (∃ l o n, c = .getLog link ld l o n) ∨ c = .identifyMemoryDevice link ld ∨ c = .getHealthInfo link ld ∨ c = .getAlertConfig link ld ∨ (∃ a n, c = .getPoisonList link ld a n) ∨
      c = .getScanMediaCapabilities link ld ∨ c = .getScanMediaResults link ld ∨ (∃ n, c = .getLostResponses link ld n) ∨ (∃ o, c = .cxlMboxUnsupported link ld o)) →
    (s.linkCarries link = false → exec c s = .next s) ∧
    (s.linkCarries link = true → ∃ (o : Output) (n : Nat), exec c s = .next { s with out := s.out ++ [o], free := n } ∧ s.free ≤ n ∧ n ≤ s.free + 1 ∧
      (s.bound link ld = none → o = .cxlMbox link ld mbUnsupported []) ∧ ((∃ k, c = .cxlMboxUnsupported link ld k) → o = .cxlMbox link ld mbUnsupported []))

/-! Firmware processors, updates and management (20). -/

/-- R597, R598, R604: the firmware update protocol in its order: REQUEST_UPDATE, PASS_COMPONENT_TABLE, UPDATE_COMPONENT, pulls of at most 4,096 bytes, TRANSFER_COMPLETE, VERIFY_COMPLETE, APPLY_COMPLETE into the spare bank, ACTIVATE_FIRMWARE;
a cancel goes back; a command out of order answers 0x85; during the hand-over a changing command answers 0x87. -/
def Obligations.FirmwareUpdateProtocol : Prop :=
  (∀ s : State, s.pldmUp = true → s.handover = false →
    (∀ n, s.fw.pldm = 0 → n = 1 ∨ n = 2 → exec (.requestUpdate n) s = .next (({ s with fw := { s.fw with pldm := 1, table := [], cur := none, done := [] } } : State).send (.pldm 0x10 stDone []))) ∧
    (∀ l, s.fw.pldm = 1 → exec (.passComponentTable l) s = .next (({ s with fw := { s.fw with pldm := 2, table := l } } : State).send (.pldm 0x13 stDone []))) ∧
    (∀ c, s.fw.pldm = 2 → s.componentCheck c = 0 → exec (.updateComponent c) s = .next ((s.setPldm 3 (some c)).send (.pldm 0x14 stDone []))) ∧
    (∀ c, s.fw.pldm = 2 → s.componentCheck c ≠ 0 → exec (.updateComponent c) s = .next (s.send (.pldm 0x14 (s.componentCheck c) []))) ∧
    (∀ n c, s.fw.pldm = 3 → s.fw.cur = some c →
      exec (.requestFirmwareData n) s = .next (({ s with fw := { s.fw with pulled := s.fw.pulled + min n 4096 } } : State).send (.fwPull c.id s.fw.pulled (min n 4096)))) ∧
    (s.fw.pldm = 3 → exec (.transferComplete true) s = .next (({ s with fw := { s.fw with pldm := 4 } } : State).send (.pldm 0x16 stDone []))) ∧
    (s.fw.pldm = 4 → exec (.verifyComplete true) s = .next (({ s with fw := { s.fw with pldm := 5 } } : State).send (.pldm 0x17 stDone []))) ∧
    (s.fw.pldm = 4 → exec (.verifyComplete false) s = .next ((s.setPldm 2 none).send (.pldm 0x17 0x83 []))) ∧
    (∀ c, s.fw.pldm = 5 → s.fw.cur = some c → c.id = 1 →
      let b := 1 - s.fw.active
      let t : State := { s with fw := { s.fw with banks := s.fw.banks.set b (some c) } }
      exec (.applyComplete true) s = .next ((((if s.fw.pend = some b then t.wr .fwmPendVersion (BitVec.ofNat 64 c.version) else t).noteDone c).setPldm 2 none).send (.pldm 0x18 stDone []))) ∧
    (∀ c, s.fw.pldm = 2 → s.fw.done = [c] → c.id = 1 → ∀ w, exec (.activateFirmware w) s =
      .next (let t : State := { s.wr .fwmPendVersion (BitVec.ofNat 64 c.version) with fw := { s.fw with pend := some (1 - s.fw.active), pldm := 0, table := [], cur := none, done := [] } }
        t.send (.pldm 0x1A stDone []))) ∧
    (3 ≤ s.fw.pldm → exec .cancelUpdateComponent s = .next ((s.setPldm 2 none).send (.pldm 0x1C stDone []))) ∧
    (s.fw.pldm ≠ 0 → exec .cancelUpdate s = .next (({ s with fw := { s.fw with pldm := 0, table := [], cur := none, done := [], pulled := 0 } } : State).send (.pldm 0x1D stDone []))) ∧
    (s.fw.pldm ≠ 0 → ∀ n, exec (.requestUpdate n) s = .next (s.send (.pldm 0x10 0x85 []))) ∧
    (s.fw.pldm ≠ 1 → ∀ l, exec (.passComponentTable l) s = .next (s.send (.pldm 0x13 0x85 []))) ∧
    (s.fw.pldm ≠ 2 → ∀ c, exec (.updateComponent c) s = .next (s.send (.pldm 0x14 0x85 [])))) ∧
  (∀ s : State, s.pldmUp = true →
    exec .getStatus s = .next (s.send (.pldm 0x1B stDone [s.fw.pldm])) ∧
    exec .queryDeviceIdentifiers s = .next (s.send (.pldm 0x01 stDone [0x1D3C])) ∧
    exec .getFirmwareParameters s = .next (s.send (.pldm 0x02 stDone [(s.rd .fwmVersion).toNat, (s.rd .fwmPendVersion).toNat, (s.rd .cmpLibVersion).toNat, (s.comp.pendLib.map (·.version)).getD 0])) ∧
    (s.handover = true → ∀ c, (∃ n, c = Instr.requestUpdate n) → exec c s = .next (s.send (.pldm 0x10 0x87 []))))

/-- R588 to R594, R600 to R604, R607: the management mailbox answers identity, stores an owner key once, restarts a running processor, returns at most 32 event records and drops acknowledged ones; a fault or a missed heartbeat of a processor starts its restart,
and the fourth within 60 s halts it; its next heartbeat ends the restart; a protection fault is reported; a SPDM request is answered; a negotiation waits for its processors (R17); a period of the power loop (R31) takes its readings 1 ms after the last. -/
def Obligations.FirmwareProcessorEvents : Prop :=
  (∀ s : State, s.fwRuns = true → s.fpDown 1 = false → s.handover = false →
    (∃ l, exec .getIdentity s = .next (s.send (.mgmt 1 stDone l)) ∧ l.length = 15) ∧
    (∀ n k, 1 ≤ n → n ≤ 3 → s.img.keys.getD n none = none →
      exec (.writeOwnerKey n k) s = .next ((({ s with img := { s.img with keys := s.img.keys.set n (some k) } } : State).wrB .strKeyState n true).send (.mgmt 2 stDone []))) ∧
    (∀ n k v, 1 ≤ n → n ≤ 3 → s.img.keys.getD n none = some v → exec (.writeOwnerKey n k) s = .next (s.send (.mgmt 2 0x82 []))) ∧
    (∀ n, n < 12 → s.rdF .fwmPState 0 2 n ≠ 2 → exec (.restartProcessor n) s = .next ((s.fpRestart n stDone true).send (.mgmt 3 stDone []))) ∧
    (∀ n, n < 12 → s.rdF .fwmPState 0 2 n = 2 → exec (.restartProcessor n) s = .next (s.send (.mgmt 3 0x86 []))) ∧
    (∀ k, let l := (s.ev.log.drop k).take 32
      exec (.getEvents k) s = .next (({ s with ev := { s.ev with seen := l.foldl (fun a r => max a r.handle) s.ev.seen } } : State).send (.events none none l))) ∧
    (∀ h i, s.ev.log.findIdx? (fun r => r.handle == h) = some i →
      exec (.clearEvents h) s = .next (({ s with ev := { s.ev with log := s.ev.log.drop (i + 1) } } : State).send (.mgmt 5 stDone []))) ∧
    (∀ h, (∀ r ∈ s.ev.log, r.handle ≠ h) → exec (.clearEvents h) s = .next (s.send (.mgmt 5 0x89 []))) ∧
    (∀ o, exec (.mboxUnknownOpcode o) s = .next (s.send (.mgmt o 0x80 [])))) ∧
  (∀ (s : State) (n : Fin 12), s.fwRuns = true → s.rdF .fwmPState 0 2 n = 0 → (s.fw.restarts.getD n []).length < 3 →
    let step (t : State) (cause : Nat) : State :=
      let u := t.wrF .fwmPState 8 8 cause n
      ({ u with fw := { u.fw with restarts := u.fw.restarts.set n (u.fw.restarts.getD n [] ++ [u.time]) } } : State).wrF .fwmPState 0 2 1 n
    exec (.firmwareFetchFault n) s = .next (step s stFetch) ∧
    exec (.fpHeartbeatMiss n) s = .next (step (s.reach ((s.fw.beats.getD n 0 + 11) * 1000000)) stTimeout) ∧
    exec (.restart n) s = .next ((step s stDone).wrB .fwmPCtrl 0 true n) ∧
    (∀ c a, exec (.fwRegionFault n c a) s = .next (s.event { reg := .fwmEvent, bit := 0, addr := a, value := n, args := [c] })) ∧
    exec (.fpHeartbeat n) s = .next { s with fw := { s.fw with beats := s.fw.beats.set n (s.time / 1000000) } }) ∧
  (∀ (s : State) (n : Fin 12) (t0 : Nat) (l : List Nat), s.Canonical → s.fwRuns = true → s.rdF .fwmPState 0 2 n = 0 → s.fw.restarts.getD n [] = l → 3 ≤ l.length → (l.drop (l.length - 3)).head? = some t0 → s.time ≤ t0 + 60 * 10 ^ 9 →
    ∃ t, exec (.firmwareFetchFault n) s = .next t ∧ t.rdF .fwmPState 0 2 n = 2 ∧ t.rdF .fwmPState 8 8 n = stFetch ∧ t.rdB .fwmEvent 2 = true) ∧
  (∀ (s : State), s.fwRuns = true → s.fpDown 0 = false →
    exec (.spdmRequest 0xE0 [0]) s = .next (s.send (.spdm 0x60 [5])) ∧
    (∀ c l, c ≠ 0xE0 → ∃ a, exec (.spdmRequest c l) s = .next ({ s with free := s.free + 1 }.send (.spdm (c % 128) a)))) ∧
  (∀ (s : State) (p : PartId), s.feDown = false → exec (.negotiate p) s = .next (s.negotiate p)) ∧
  (∀ (s : State) (p : PartId), s.feDown = true → exec (.negotiate p) s =
    .next { s with acc := { s.acc with fe := s.acc.fe.filter (fun x => x.1 != (⟨.prtFeatCtrl, p.val, 0⟩ : RegId)) ++ [(⟨.prtFeatCtrl, p.val, 0⟩, 1)] } }) ∧
  (∀ s : State, (s.fpBusy 2 = true ∨ s.fpBusy 6 = true) → exec .coreIslandHwClamp s = .next ({ s with fw := { s.fw with clamp := true } } : State).setFreqs) ∧
  (∀ (s : State) (x : LoopSample), s.fwRuns = true → s.fpDown 2 = false → s.fpDown 6 = true → x.inputW ≤ 65535 →
    let u : State := match s.fw.loopAt with | none => s | some a => s.reach (a + 10 ^ 6)
    let v : State := { u with fw := { u.fw with loopAt := some u.time } }
    let t := (v.wrF .fwmInputW 0 16 x.inputW).wr .fwmTherm (BitVec.ofNat 64 (hottest x.coreTemps + 256 * hottest x.stackTemps + 65536 * hottest x.carrierTemps))
    exec (.powerLoopPeriod x) s = .next ((t.powerLoop 0 x.inputW ((List.range 256).all (fun k => decide (t.powerOf k ≤ 80)))).thermLoop 0 x).setFreqs)

/-! Hold-up (19). -/

/-- R569, R571, R573, R577, R580 to R584: the hold-up store's events: sampling stores the readings and the state, a capacitance test runs 2 s and stores C_meas, a budget computation is applied every 100 ms; a low input clears INPUT_GOOD, a supply that returns within 50 µs is a glitch,
one that stays low hands the module over to the store; a finished flush of the hand-over powers the module off; a flush stopped at V_LOW sets its event. -/
def Obligations.HoldUpEvents : Prop :=
  (∀ s : State, (∀ t, s.hup.limitAt = some t → t + 10 ^ 8 ≤ s.time) →
    exec .budgetLimitUpdate s = .next (({ s with hup := { s.hup with limitAt := some s.time } } : State).limitTo s.energyLimit)) ∧
  (∀ (s : State) (x : StoreSample), (∀ t, s.hup.sampleAt = some t → t + 10 ^ 7 ≤ s.time) → x.packMv ≤ 65535 →
    let t := ({ s with hup := { s.hup with sampleAt := some s.time } } : State).takeReadings x x.packMv
    exec (.storeMonitorSample x) s =
      .next ((((t.wr .hupEnergyJ (BitVec.ofNat 64 (min (t.energy / 10 ^ 11) 65535))).chargeCount x.chargeMc).storeState).fullEdge
        (decide ((((t.wr .hupEnergyJ (BitVec.ofNat 64 (min (t.energy / 10 ^ 11) 65535))).chargeCount x.chargeMc).storeState).chargeTarget ≤ x.packMv)))) ∧
  (∀ s : State, s.rdB .hupStatus 5 = false →
    (s.rdF .hupStatus 0 3 = 2 → exec .capTest s = .next (let t := s.setB .hupCtrl 0; ({ t.setB .hupStatus 5 with hup := { t.hup with testAt := some t.time } } : State))) ∧
    (s.rdF .hupStatus 0 3 ≠ 2 → exec .capTest s = .next (s.clrB .hupCtrl 0))) ∧
  (∀ (s : State) (t0 mv : Nat), s.rdB .hupStatus 5 = true → s.hup.testAt = some t0 → 0 < mv →
    let mF := min (4000000 / mv) 65535
    let t := (((({ s with hup := { s.hup with testedAt := some t0 } }.reach (t0 + 2 * 10 ^ 9)).clrB .hupStatus 5).clrB .hupCtrl 0).wr .hupCapMf (BitVec.ofNat 64 mF))
    (4 * 29170 ≤ 5 * mF → exec (.capTestDone mv) s = .next t) ∧
    (5 * mF < 4 * 29170 → exec (.capTestDone mv) s = .next (t.event { reg := .hupEvent, bit := 5, value := mF }))) ∧
  (∀ s : State, exec .inputBelow48v s = .next (s.clrB .hupStatus 3) ∧
    (s.hup.lowAt = none → exec .inputBelow40v s = .next { s.clrB .hupStatus 3 with hup := { s.hup with lowAt := some s.time } }) ∧
    (∀ t, s.hup.lowAt = some t → s.time < t + 50000 → exec .inputGlitch s = .next { s.setB .hupEvent 6 with hup := { s.hup with lowAt := none } }) ∧
    (s.rdF .strStartState 0 4 ≠ 8 → exec .inputPowerGood s = .next { s.setB .hupStatus 3 with hup := { s.hup with lowAt := none } }) ∧
    (∀ t, s.hup.lowAt = some t → exec .inputPowerLost s = .next ((({ s.clrB .hupStatus 3 with hup := { s.hup with lowAt := some t } } : State).reach (t + 50000)).handOver false)) ∧
    exec .thermalTrip s = .next (s.handOver true)) ∧
  (∀ s : State, s.handover = true →
    (exec .flushVlowStop s = .next ((((({ s with free := s.free + 1 } : State).flushDurable (some (Config.freeNat s.free))).setB .hupEvent 4).handoverEnd false).powerOff)) ∧
    (∀ u, u = (s.flushDurable none).handoverEnd (s.flushDurable none).journalsWhole → u.hup.trip = true ∨ u.rdB .hupStatus 3 = false → exec .holdupFlushDone s = .next u.powerOff))

/-! Links (05). -/

/-- R34, R110, R111, R118, R122, R124 to R127, R129, R132, R134, R137, R147: a link that trains takes the settled rate and the narrower width; recovery, retraining, disabling and enabling move its state; the third failed equalisation at 128 GT/s within a second bars the rate; L0p halves and doubles the
active width; ASPM leaves for L1 and back; an IDE key exchanged through the DOE mailbox secures a link and a failed check makes it insecure; Bus Master Enable stops DMA and sends what the PBA holds; a partition takes up to 32 bindings; GPF phase 2 ends with everything committed.
R33, R35: a crossing's watchdog that runs out is counted with its record, unless the acknowledge came no later; a late acknowledge is counted. -/
def Obligations.LinkEvents : Prop :=
  (∀ (s : State) (link : LinkId) (x : Partner), s.Canonical → s.mayTrain link = true → s.linkState link = 0 ∨ s.linkState link = 1 → s.settleRate link x ≠ 0 → 0 < x.width →
    let w := min x.width (s.linkLanes link)
    let a := min w (s.widthCap link)
    ∃ t, exec (.linkUp link x) s = .next t ∧ t.rdF .lnkStatus 8 5 link = w ∧ t.rdF .lnkStatus 13 5 link = a ∧ t.rdF .lnkStatus 4 4 link = rateCode (s.settleRate link x) ∧
      t.rdF .lnkStatus 0 4 link = (if x.cxl && x.flit256 then (if a < w then 3 else 2) else 7)) ∧
  (∀ (s : State) (link : LinkId), [0, 1, 8].contains (s.linkState link) = false → exec (.linkDown link) s = .next (s.linkDown link 0)) ∧
  (∀ (s : State) (port : Fin 8),
    (∀ n, n ≤ 1000 → exec (.perstAssert port n) s = .next s) ∧
    (∀ n, 1000 < n → exec (.perstAssert port n) s = .next ((portLinks port).foldl (fun t k => let u := t.linkDown k 0
      (u.setLink k { u.link k with perst := true }).rateReset k) s)) ∧
    exec (.perstDeassert port) s = .next ((portLinks port).foldl (fun t k => (t.setLink k { t.link k with perst := false }).startTraining k) s)) ∧
  (∀ (s : State) (link : LinkId), s.linkState link = 2 ∨ s.linkState link = 3 ∨ s.linkState link = 7 →
    let t := ((s.setLink link { s.link link with back := s.linkState link }).setLinkState link 6).incErr .lnkRecovery link
    exec (.linkEntersRecovery link) s = .next t ∧ (s.rdB .lnkCtrl 9 link = false → exec (.retrain link) s = .next (t.setB .lnkCtrl 8 link))) ∧
  (∀ (s : State) (link : LinkId),
    exec (.linkDisable link) s = .next (((s.setB .lnkCtrl 9 link).linkDown link 8).setLinkState link 8) ∧
    (s.linkState link = 8 → exec (.linkEnable link) s = .next (((s.clrB .lnkCtrl 9 link).setLinkState link 0).startTraining link)) ∧
    (s.linkState link ≠ 8 → exec (.linkEnable link) s = .next (s.clrB .lnkCtrl 9 link)) ∧
    (exec (.enable128 link) s = .next ((s.setB .cylRateCtrl 0 link).armUpdate link)) ∧
    (let t := (s.wrB .cylRateStatus 2 false link).setLink link { s.link link with eqFails := [] }
    let u := (t.armUpdate link).retrain link
    exec (.retry link) s = .next (u.wrB .cylRateCtrl 1 (u.rdB .lnkCtrl 8 link) link))) ∧
  (∀ (s : State) (link : LinkId), s.rdB .cylRateStatus 0 link = true →
    let l := (s.link link).eqFails.filter (fun t => decide (s.time ≤ t + 1000000000)) ++ [s.time]
    let t := (s.setLink link { s.link link with eqFails := l }).incErr .cylRateCount link
    (l.length < 3 → exec (.eqFail128 link) s = .next t) ∧
    (3 ≤ l.length → exec (.eqFail128 link) s =
      .next ((((((t.setB .cylRateStatus 2 link).armUpdate link).wrB .cylRateStatus 1 false link).setB .cylRateStatus 8 link).setB .lnkEvent 1 link).raise { reg := .lnkEvent, bit := 1, link := some link.val }))) ∧
  (∀ (s : State) (link : LinkId), s.linkCarries link = true →
    let a := s.rdF .lnkStatus 13 5 link
    let full := min (s.rdF .lnkStatus 8 5 link) (s.widthCap link)
    ((s.link link).l0p = true → s.rdB .lnkCtrl 0 link = true →
      (∀ n, n ≤ 400 → 4 ≤ a → exec (.l0pWidthChange link (.narrow n)) s = .next ((s.setLink link { s.link link with l0pWidth := a / 2 }).setActive link (a / 2))) ∧
      (∀ n w, 800 < n ∨ w = true → a < full → exec (.l0pWidthChange link (.widen n w)) s = .next ((s.setLink link { s.link link with l0pWidth := if full ≤ 2 * a then 16 else 2 * a }).setActive link (min (2 * a) full)))) ∧
    (exec (.aspmL1Entry link none 0) s = .next s) ∧
    (∀ (v : Fin 2) (ms : Nat), s.rdB .lnkCtrl 1 link = true → s.linkIdle link = true → s.rdF .lnkCtrl 2 4 link < ms → exec (.aspmL1Entry link (some v) ms) s =
      .next ((s.setLink link { s.link link with back := s.linkState link }).setLinkState link (4 + v.val))) ∧
    (∀ (v : Fin 2) (ms : Nat), s.linkIdle link = false ∨ ms ≤ s.rdF .lnkCtrl 2 4 link → exec (.aspmL1Entry link (some v) ms) s = .next s) ∧
    (∀ ld fresh, s.doeAt link ld = true → s.fpDown 0 = false → (s.link link).idePolicy ≠ 0 → (s.link link).ideBoth = true →
      exec (.ideKeyExchange link ld fresh true) s = .next ((s.setLink link { s.link link with keyed := true, ideTold := false }).wrF .lnkStatus 20 3 3 link)) ∧
    ((s.link link).keyed = true → exec (.ideCheckFail link) s =
      .next (((s.setLink link { s.link link with keyed := false, ideTold := false }).wrF .lnkStatus 20 3 4 link).event { reg := .lnkEvent, bit := 2, link := some link.val } link))) ∧
  (∀ (s : State) (link : LinkId) (w : L1Wake), s.linkState link = 4 ∨ s.linkState link = 5 →
    exec (.aspmL1Exit link w) s = .next ((s.setLink link { s.link link with back := 0 }).setLinkState link (s.link link).back)) ∧
  (∀ (s : State) (link : LinkId) (ld : LdId),
    exec (.busMasterDisable link ld) s = .next ((s.setLd link ld { s.ld link ld with bme := false }).stopDma link (fun d => d == ld.val) stDenied false) ∧
    exec (.busMasterEnable link ld) s = .next ((s.ld link ld).pba.foldl (fun t v => t.msix link ld v) (s.setLd link ld { s.ld link ld with bme := true, pba := [] })) ∧
    (exec (.fmLdBindUnbind link ld none) s = .next ((({ s with binding := Store.set none (16 * link.val + ld.val) none s.binding } : State).ldActive link ld false).send (.fm [0]))) ∧
    (∀ p : PartId, (s.part p).cfg.isSome = true → Store.get none (16 * link.val + ld.val) s.binding = none →
      ((s.binding.filter (fun e => e.2 == some p.val)).length < 32 →
        exec (.fmLdBindUnbind link ld (some p)) s = .next ((({ s with binding := Store.set none (16 * link.val + ld.val) (some p.val) s.binding } : State).ldActive link ld (s.memActive p)).send (.fm [0]))) ∧
      (32 ≤ (s.binding.filter (fun e => e.2 == some p.val)).length → exec (.fmLdBindUnbind link ld (some p)) s = .next (s.send (.fm [1])))) ∧
    (exec (.fmLinkStateQuery link) s = .next (s.send (.fm [(s.rd .lnkStatus link).toNat]))) ∧
    (∀ t, t = (((s.flushSlots (fun _ => true)).releaseWrites 0).releaseWrites 1).commitAll →
      t.lens.heldW = [] → (∀ x ∈ t.lens.slots, x.written = 0) → t.shwClean = true → exec (.gpfPhase2 link) s = .next (t.send (.gpfDone link)))) ∧
  (∀ (s : State) (a b : Nat), let k := islandPair (.core a) (.core b)
    (∀ since, s.departed 1 = true ∨ s.ackedSince k since = true → exec (.crossingWatchdogExpiry (.core a) (.core b) since []) s = .next s) ∧
    (∀ since, s.departed 1 = false → s.ackedSince k since = false → let t := s.reach (since + if a / 64 = b / 64 then 2000 else 8000)
      exec (.crossingWatchdogExpiry (.core a) (.core b) since []) s = .next (({ t with cross := { t.cross with timeouts := Store.set 0 k (min (Store.get 0 k t.cross.timeouts + 1) (2 ^ 32 - 1)) t.cross.timeouts, lastAt := some t.time, late := t.cross.late ++ [k], phase := Store.set 0 k 0 t.cross.phase } } : State).raise
        { reg := .lnkEvent, bit := 4, status := stTimeout, args := [islandNo (.core a), islandNo (.core b)] })) ∧
    (∀ l, s.cross.late = k :: l → exec (.crossingAcknowledge (.core a) (.core b)) s = .next { s with cross := { s.cross with unexpected := min (s.cross.unexpected + 1) (2 ^ 32 - 1), late := l } }) ∧
    (s.cross.late = [] → exec (.crossingAcknowledge (.core a) (.core b)) s = .next { s with cross := { s.cross with phase := Store.set 0 k (1 - Store.get 0 k s.cross.phase) s.cross.phase, acked := Store.set none k (some s.time) s.cross.acked } }))

/-! Mirroring (16). -/

/-- R525, R527, R532 to R536, R538 to R540: the primary closes epochs and sends them, an acknowledgement releases what waited; the secondary acknowledges a sound epoch and asks again for a damaged one; lost links, fences, promotions, rebuilds, snapshots,
switches, detaches and attaches move the partition's mirror state, and a request that its state does not allow is refused with DENIED and changes nothing else. -/
def Obligations.MirrorEvents : Prop :=
  (∀ (s : State) (p : PartId) (h : HubId), s.mayClose p = true → s.mirState p = 3 →
    (s.mirAsync p = true → exec (.epochClose p h .size) s = .next (s.closeBoth p)) ∧
    (s.mirAsync p = false → exec (.epochClose p h .snapshot) s = .next (s.closeEpoch p h)) ∧
    (s.mirAsync p = false → 256 ≤ ((s.mirPart p).openRecs.getD h []).length → exec (.epochClose p h .count) s = .next (s.closeEpoch p h))) ∧
  (∀ (s : State) (p : Nat) (h : HubId), let m := s.mirPart p
    ∃ t, s.closeEpoch p h = t ∧ t.out = s.out ++ [.reflect p h (m.sent.getD h 0 + 1) (s.mirGen p) (s.mirAsync p) (s.mirState p == 2) (m.openRecs.getD h [])] ∧
      (t.mirPart p).openRecs = m.openRecs.set h [] ∧ (t.mirPart p).sent = m.sent.set h (m.sent.getD h 0 + 1)) ∧
  (∀ (s : State) (p : PartId) (h : HubId) (n : Nat), s.mirRole p = 1 → s.mirState p = 3 → s.anyReflect = true → n ≤ (s.mirPart p).sent.getD h 0 → (s.mirPart p).snapEpoch = none → (s.mirPart p).switchEpoch = none →
    let u := s.flitSeen
    let t := ((u.setMirPart p { s.mirPart p with acked := (s.mirPart p).acked.set h (max ((s.mirPart p).acked.getD h 0) n), unacked := (s.mirPart p).unacked.filter (fun x => !(x.1 == h.val && decide (x.2.1 ≤ n))) }).epochRegs p).releaseAwaits p (fun k i => k == h.val && decide (i ≤ n))
    (t.mirPart p).snapEpoch = none → (t.mirPart p).switchEpoch = none → exec (.epochAck p h n .ok) s = .next t) ∧
  (∀ (s : State) (p : PartId) (h : HubId) (n : Nat), s.mirRole p = 1 → s.mirState p = 3 → s.anyReflect = true → n ≤ (s.mirPart p).sent.getD h 0 →
    exec (.epochAck p h n .again) s = .next (s.flitSeen.resendEpoch p h n) ∧ exec (.epochAck p h n .failed) s = .next ((s.flitSeen.enterSolo p).startRebuild p)) ∧
  (∀ (s : State) (e : Epoch), s.mirRole e.part = 2 → s.mirState e.part = 2 ∨ s.mirState e.part = 3 → s.anyReflect = true →
    (e.complete = false → exec (.epochReceived e) s = .next s.flitSeen) ∧
    (e.complete = true → e.crcOk = true → e.rebuild = false →
      let u := s.flitSeen
      let m := u.mirPart e.part
      m.applied.getD e.hub 0 < e.number → m.recv = [] →
      exec (.epochReceived e) s = .next (((u.setMirPart e.part { m with recv := [e] }).send (.epochAck e.part e.hub e.number 0)).applyReady e.part
        ((((u.setMirPart e.part { m with recv := [e] }).send (.epochAck e.part e.hub e.number 0)).mirPart e.part).recv.length))) ∧
    (s.Canonical → e.complete = true → e.crcOk = false → (s.mirPart e.part).retried = [] →
      ∃ t, exec (.epochReceived e) s = .next t ∧ t.rdB .mirPEvent 3 e.part = true ∧ (t.mirPart e.part).retried = [(e.hub.val, e.number)] ∧
        ∃ l, t.out = s.out ++ l ++ [.reflectCtl e.hub 2 [e.part, e.hub, e.number]])) ∧
  (∀ (s : State) (m : Fin 2), s.reflectUp m = true →
    (let t := s.reach (s.mir.keptAt.getD m 0 + 1000)
     exec (.reflectKeepalive m) s = .next (({ t with mir := { t.mir with keptAt := t.mir.keptAt.set m t.time } } : State).send (.reflectCtl m 0 []))) ∧
    exec (.mirrorLinkPhyLeavesL0 m) s = .next (s.loseReflect m) ∧
    exec (.reflectLinkTimeout m) s = .next ((s.reach (s.mir.lastFlit.getD m 0 + 8000)).loseReflect m) ∧
    (s.mir.replays.getD m 0 < 4 → exec (.reflectFlitCrcFail m) s = .next ((({ s with mir := { s.mir with replays := s.mir.replays.set m (s.mir.replays.getD m 0 + 1) } } : State).incEvt .mirReplays).send (.reflectCtl m 1 []))) ∧
    (4 ≤ s.mir.replays.getD m 0 → exec (.reflectFlitCrcFail m) s = .next (s.loseReflect m))) ∧
  (∀ (s : State) (p : PartId),
    (s.mayFence p = true → exec (.partnerFenceTimeout p) s = .next ((s.reach (s.mir.lostAt.getD 0 + s.mirT / 2)).fence p)) ∧
    (s.mir.lostAt.isSome = true → s.mayFence p = false → s.mirRole p = 1 → s.mirState p = 3 → exec (.partnerTimeout p) s = .next ((s.reach (s.mir.lostAt.getD 0 + s.mirT)).enterSolo p)) ∧
    (s.fpDown 10 = false → s.fpDown 11 = false → s.mir.lostAt.isSome = true → s.mayFence p = false → s.mirRole p = 2 → s.mirState p = 6 → (s.mirEntry p).takeover = true → s.hasCopy p = true →
      exec (.partnerTimeout p) s = .next ((s.reach (s.mir.lostAt.getD 0 + s.mirT)).promote p)) ∧
    (s.fpDown 10 = false → s.fpDown 11 = false → s.mirState p = 6 → s.hasCopy p = true → exec (.promote p) s = .next ((s.promote p).wrB .mirPCtrl 0 false p)) ∧
    (s.mirState p = 5 → exec (.unfence p) s = .next ((s.enterSolo p).wrB .mirPCtrl 1 false p)) ∧
    (s.mirRole p = 1 → s.mirState p = 3 →
      exec (.detach p) s = .next (((s.enterSolo p).setMirPart p { (s.enterSolo p).mirPart p with detached := true }).wrB .mirPCtrl 3 false p) ∧
      (s.anyReflect = true → exec (.snapshot p) s = .next (let t := (s.closeBoth p).wrB .mirPCtrl 6 true p
        t.setMirPart p { t.mirPart p with snapEpoch := some ((t.mirPart p).sent.getD 0 0, (t.mirPart p).sent.getD 1 0) })) ∧
      (s.anyReflect = true → (s.mirPart p).switching = none → exec (.switch p) s = .next ((s.wrB .mirPCtrl 2 true p).setMirPart p { s.mirPart p with switching := some s.time }))) ∧
    (s.mirRole p = 1 → s.mirState p = 4 → s.anyReflect = true → exec (.attach p) s = .next ((s.startRebuild p).wrB .mirPCtrl 4 false p)) ∧
    (s.mirState p = 9 → exec (.demote p) s = .next ((s.becomeSecond p (s.mirGen p)).wrB .mirPCtrl 5 false p)) ∧
    (s.mirRole p = 1 → s.mirState p = 2 → s.anyReflect = true → (s.rebuildMove p (s.framesOf p).length).mirAsync p = true →
      exec (.mirrorRebuildDone p) s = .next (let t := (s.rebuildMove p (s.framesOf p).length).closeBoth p
        ((t.setMirPart p { t.mirPart p with rebuildPtr := none }).setMirState p 3).setB .mirEvent 3)) ∧
    (∀ t0, s.mirRole p = 1 → (s.mirPart p).switching = some t0 → (s.mirPart p).switchEpoch = none → s.switchIdle p = true →
      exec (.switchDrainEnd p) s = .next ((s.closeBoth p).setMirPart p { (s.closeBoth p).mirPart p with switchEpoch := some (((s.closeBoth p).mirPart p).sent.getD 0 0, ((s.closeBoth p).mirPart p).sent.getD 1 0) })) ∧
    (s.mirState p = 0 → let no (b : Nat) : State := (s.wrB .mirPCtrl b false p).raise { reg := .mirPCtrl, bit := b, status := stDenied, part := some p.val }
      exec (.unfence p) s = .next (no 1) ∧ exec (.detach p) s = .next (no 3) ∧ exec (.attach p) s = .next (no 4) ∧ exec (.demote p) s = .next (no 5) ∧ exec (.snapshot p) s = .next (no 6))) ∧
  (∀ (s : State) (m : Fin 2) (x : Hello), s.Canonical → s.mir.barred = false → s.portsReady = true → s.reflectUp m = false → s.helloBad m x = false → x.mirrorDigestAgrees = true → x.parts = [] →
    ∃ t, exec (.mirrorHello m x) s = .next t ∧ t.reflectUp m = true ∧ t.rd .mirPartnerId = x.identity ∧
      t.rdF .mirStatus (4 + 3 * m.val) 3 = rateCode (if s.rdB .strStraps 9 then x.rate else min x.rate 64) ∧ t.mir.lostAt = none ∧ t.out = s.out ++ [.reflectCtl m 4 []])

/-! Partitions (03). -/

/-- R91, R92, R136, R162 to R170, R179 to R181: a partition's controls: quiescence starts, ends when nothing of the partition runs, and is lifted; quarantine, lift and release; the liveness word arms the watchdog and its timeout quarantines;
the shadow window's index, switch, write-back and data; a function-level reset and an LD reset. -/
def Obligations.PartitionControls : Prop :=
  (∀ (s : State) (p : PartId),
    exec (.quiesceRequest p) s = .next ((s.wrB .prtQuiesceCtrl 0 true p).wrB .prtState 1 true p) ∧
    (s.rdB .prtQuiesceCtrl 0 p = true → s.rdB .prtState 2 p = false → s.idlePart p = true → exec (.partitionQuiesced p) s = .next ((s.setB .prtState 2 p).raise { reg := .prtState, bit := 2, part := some p.val })) ∧
    (s.reloading p = false → exec (.quiesceLift p) s = .next (((s.wrB .prtQuiesceCtrl 0 false p).wrB .prtState 1 false p).wrB .prtState 2 false p)) ∧
    (s.comp.kernels = [] → exec (.quiesceAbort p) s = .next (s.endWaits (fun _ w => w.part == p.val) stReset)) ∧
    (s.fpDown 5 = false → s.fpDown 9 = false → exec (.quarantine p) s = .next ((s.wrB .prtQuarCtrl 0 false p).quarantine p)) ∧
    (s.fpDown 5 = true ∨ s.fpDown 9 = true → let t := s.wrB .prtQuarCtrl 0 true p
      exec (.quarantine p) s = .next { t with fw := { t.fw with waiting := t.fw.waiting ++ [.quarantine p] } }) ∧
    (s.rdB .prtState 4 p = true → exec (.lift p) s = .next (s.lift p) ∧
      exec (.release p) s = .next (((((s.resetObjs (fun k => s.syncOwner k == some p.val)).shwReset p).clearMap p).shwOpen p).lift p) ∧
      (s.Canonical → let t := (((s.resetQueues p).clrB .prtState 4 p).setMemActive p true)
        (t.rdB .prtQuiesceCtrl 0 p = false → s.lift p = t) ∧
        (t.rdB .prtQuiesceCtrl 0 p = true → s.lift p = (t.setB .prtState 2 p).raise { reg := .prtState, bit := 2, part := some p.val }))) ∧
    (s.rdB .prtState 4 p = false → exec (.lift p) s = .next s ∧ exec (.release p) s = .next s) ∧
    (s.rdF .prtLivenessTimeout 0 14 p ≠ 0 → (s.part p).armed = true → s.departed 2 = false → s.fpDown 5 = false → s.fpDown 9 = false →
      exec (.livenessTimeout p) s = .next (((s.reach (((s.part p).liveTick + s.rdF .prtLivenessTimeout 0 14 p + 1) * 1000000)).wrB .prtQuarCtrl 0 false p).quarantine p)) ∧
    (s.rdF .prtLivenessTimeout 0 14 p = 0 ∨ (s.part p).armed = false ∨ s.departed 2 = true → exec (.livenessTimeout p) s = .next s)) ∧
  (∀ (s : State) (link : LinkId) (ld : LdId), s.linkState link = 7 →
    (∀ v : BitVec 32, exec (.prtLivenessWrite link ld v) s = .next (s.send (.unsupported (.ld link ld) 0x1000030)) ∧
      exec (.shwIndexLoWrite link ld v) s = .next (s.send (.unsupported (.ld link ld) 0x1002000)) ∧ exec (.shwIndexHiWrite link ld v) s = .next (s.send (.unsupported (.ld link ld) 0x1002004))) ∧
    (∀ n k w, exec (.shadowWindowAccess link ld n k w) s = .next (s.send (.unsupported (.ld link ld) (0x3F00000 + n))))) ∧
  (∀ (s : State) (link : LinkId) (ld : LdId) (q : PartId), s.Canonical → s.linkCarries link = true → s.bound link ld = some q.val → let p := q.val
    (∀ v : BitVec 32, ∃ t, exec (.prtLivenessWrite link ld v) s = .next t ∧ t.rd .prtLiveness p = BitVec.ofNat 64 v.toNat ∧
      (s.rdF .prtLivenessTimeout 0 14 p ≠ 0 → s.memActive p = true → (t.part p).armed = true ∧ (t.part p).liveTick = s.time / 1000000)) ∧
    (s.shwOwner = some p →
      (∀ v : BitVec 32, exec (.shwIndexLoWrite link ld v) s = .next { s.wr .shwIndexLo (BitVec.ofNat 64 (v.toNat % 65536)) with shw := { s.shw with loFresh := true } }) ∧
      (∀ v : BitVec 32, ∃ t, exec (.shwIndexHiWrite link ld v) s = .next t ∧
        (4096 ≤ v.toNat % 65536 → t.rdF .shwStat 8 8 = stRange ∧ t.shw = { s.shw with loFresh := false } ∧ t.rdB .shwStat 2 = !s.shw.loFresh)) ∧
      (∀ v : BitVec 32, v.toNat % 65536 < 4096 → let i := s.rdF .shwIndexLo 0 16 + v.toNat % 65536 % 4096 * 65536
        shwAddr i + 2 ^ 20 ≤ s.apparent p → s.shwDenied p i = false →
        let t : State := { (s.wr .shwIndexHi (BitVec.ofNat 64 (v.toNat % 65536))).wrB .shwStat 2 (!s.shw.loFresh) with shw := { s.shw with loFresh := false } }
        (∀ b, s.shw.cur = some b → b.index = i → exec (.shwIndexHiWrite link ld v) s = .next { (t.wrB .shwStat 1 false).wrB .shwStat 0 true with shw := { t.shw with next := none } }) ∧
        (∀ b, s.shw.cur = some b → b.index ≠ i → exec (.shwIndexHiWrite link ld v) s = .next (State.shwFetch { (t.wrB .shwStat 1 true).wrB .shwStat 0 false with shw := { t.shw with next := some i } } p i).1)) ∧
      (∀ n k b v be, s.quarantined p = false → s.shw.cur = some b → 4 ≤ enabledBytes k be → exec (.shadowWindowAccess link ld n k (some (v, be))) s =
        .next { s with shw := { s.shw with cur := some (b.putBytes (fun l => s.inFrozen p (shwAddr b.index + 64 * l) 64) n k v be.toNat (k / 64 + 2)) } }) ∧
      (∀ n k v be, enabledBytes k be < 4 → exec (.shadowWindowAccess link ld n k (some (v, be))) s = .next s) ∧
      (∀ n k b, s.quarantined p = false → s.shw.cur = some b → 1 ≤ k → k ≤ 64 → ∃ bad, exec (.shadowWindowAccess link ld n k none) s = .next (s.send (.windowData link ld n k (readWrap b.data (2 ^ 20) (n % 2 ^ 20) k) bad)))) ∧
    (s.shwOwner ≠ some p → ∀ n k, 1 ≤ k → k ≤ 64 → exec (.shadowWindowAccess link ld n k none) s = .next (s.send (.windowData link ld n k 0 false)))) ∧
  (∀ (s : State) (p : PartId), s.shwOwner = some p.val →
    (∀ i, s.shw.next = some i → let t := (s.shwFetch p i).1
      ((s.shwFetch p i).2 = true → exec (.shadowSwapSwitch p) s = .next t) ∧
      ((s.shwFetch p i).2 = false → t.shw.old = none → let r := t.shwLoad p i
        let u : State := { r.1 with shw := { r.1.shw with cur := some r.2.1, old := r.1.shw.cur, next := none } }
        let v := (((u.wr .shwSelected (BitVec.ofNat 64 i)).wrB .shwStat 3 r.1.shw.cur.isSome).wrB .shwStat 1 false).wrB .shwStat 0 true
        exec (.shadowSwapSwitch p) s = .next (if r.2.2 then v.wrF .shwStat 8 8 stUncorr else v))) ∧
    (∀ b, s.shw.old = some b → let r := ({ s with shw := { s.shw with old := none } } : State).writeBackBuf p b
      (r.2 = [] → exec (.shadowWritebackDone p) s = .next (r.1.wrB .shwStat 3 false)) ∧
      (r.2 ≠ [] → exec (.shadowWritebackDone p) s = .next { r.1 with shw := { r.1.shw with old := some { b with dirty := r.2 } } }))) ∧
  (∀ (s : State) (link : LinkId) (ld : LdId),
    let none' (t : State) : State := t.setLd link ld { t.ld link ld with bme := false, mrrs := 512, pba := [], msixTable := [] }
    (s.linkGone link = true → exec (.flr link ld) s = .next s) ∧
    (s.linkGone link = false → s.bound link ld = none → exec (.flr link ld) s = .next (none' s)) ∧
    (∀ p, s.linkGone link = false → s.bound link ld = some p → let t := (none' s).partReset p
      exec (.flr link ld) s = .next (if t.shwOwner = some p then { (t.wr .shwIndexLo 0).wrB .shwStat 2 false with shw := { t.shw with loFresh := false } } else t)) ∧
    (s.bound link ld = none → exec (.ldReset link ld) s = .next (none' s)) ∧
    (∀ p, s.bound link ld = some p →
      let t := none' (s.setMemActive p false)
      let u := (((((t.partReset p).resetObjs (fun k => (t.partReset p).syncOwner k == some p)).shwReset p).clearMap p).shwOpen p)
      let v : State := if u.rdF .strStartState 0 4 = 5 then { u with flash := { u.flash with journals := Store.set none p none u.flash.journals } } else u
      exec (.ldReset link ld) s = .next (if s.memActive p then v.setMemActive p true else v)))

/-! Power states (18) and resets (02). -/

/-- R548 to R553, R557 to R560: a power request records its target; a drain's end records its length; a drain that outlasts its limit refuses the request with DRAIN and returns; a finished transition reports DONE and is in the target state; a wake event that may act gives its cause. -/
def Obligations.PowerEvents : Prop :=
  ∀ s : State, s.Canonical →
    (∀ n : Fin 4, s.rdF .pwrState 0 2 = 3 → s.rdB .pwrState 7 = false → exec (.powerRequest n) s = .next s) ∧
    (∀ n : Fin 4, s.rdF .pwrState 0 2 ≠ 3 → s.rdF .pwrState 0 2 ≤ n → exec (.powerRequest n) s = .next ((s.wrF .pwrReq 0 2 n).pwrRequest n)) ∧
    (∀ n : Fin 4, s.rdF .pwrState 0 2 ≠ 3 → s.rdB .pwrState 7 = false → n.val < s.rdF .pwrState 0 2 → exec (.powerRequest n) s = .next (((s.wrF .pwrReq 0 2 n).wr .pwrWakeCause 8).pwrRequest n)) ∧
    (exec .powerCancel s = .next (s.wrB .pwrState 6 false)) ∧
    (s.entryDraining = true → s.drained = true → s.rdF .pwrState 2 2 < 2 →
      exec .drainEnd s = .next ((s.wr .pwrDrainLast (BitVec.ofNat 64 (min ((s.time - s.power.drainAt) / 1000) (2 ^ 24 - 1)))).wrF .pwrState 8 4 1)) ∧
    (s.entryDraining = true → s.drained = false → let n := s.rdF .pwrState 2 2
      let u := s.reach (s.power.drainAt + 1000 * s.powerRec.drainUs)
      let v := if n < 2 then u else (u.tier.moves.filter (·.running)).foldl (fun t m => t.abortMove m.part m.frame) u
      (v.drained = false → exec .drainTimeoutExpiry s = .next (((v.wr .pwrResult (BitVec.ofNat 64 (stDrain + 256 * n))).event { reg := .pwrEvent, bit := 0, status := stDrain, value := n }).pwrEnd)) ∧
      (v.drained = true → exec .drainTimeoutExpiry s = .next v.commitEntry) ∧ (n < 2 → v.drained = false)) ∧
    (∀ bad l m b, s.rdB .pwrState 7 = true → s.entryDraining = false → s.handover = false → let n := s.rdF .pwrState 2 2
      let t := if s.rdF .pwrState 0 2 < n then s.enterState n else s.leaveState n bad l m b State.heldWrites
      (t.rdF .strStartState 0 4 ≠ 1 → exec (.powerTransitionDone bad l m b) s = .next ((t.wr .pwrResult (BitVec.ofNat 64 (stDone + 256 * n))).pwrEnd)) ∧
      (t.rdF .strStartState 0 4 = 1 → exec (.powerTransitionDone bad l m b) s = .next t)) ∧
    (∀ link : LinkId, s.rdB .pwrCtrl 2 = true → s.rdB .pwrState 7 = false → s.rdF .pwrState 0 2 = 2 → s.rdF .pwrCtrl 0 2 < 2 →
      exec (.wakeInband link) s = .next ((s.wr .pwrWakeCause (BitVec.ofNat 64 (2 + 256 * link.val))).wake (s.rdF .pwrCtrl 0 2))) ∧
    (∀ a, s.sbAddress a = true → s.rdB .pwrState 7 = false → s.rdF .pwrState 0 2 = 3 → s.rdF .pwrCtrl 0 2 < 3 → exec (.wakeSidebandMatch a) s = .next ((s.wr .pwrWakeCause 1).wake (s.rdF .pwrCtrl 0 2))) ∧
    (∀ a, s.sbAddress a = false → exec (.wakeSidebandMatch a) s = .next s)

/-- R58, R65, R69, R71 to R73, R90, R99, R100, R102: a pulse of MOD_RST_N of 1 µs or less changes nothing, a longer one holds the module in cold reset until it ends; a warm reset and a shutdown run from RUNNING, and wait for an image load that runs; staging takes aligned writes; an image load
takes the staged image or refuses it with its status and record; a revoked key stays revoked. -/
def Obligations.ResetAndImageEvents : Prop :=
  ∀ s : State,
    (∀ n, n ≤ 1000 → exec (.modRstAssert n) s = .next s) ∧
    (∀ n, 1000 < n → s.handover = false → s.rdF .strStartState 0 4 < 6 → exec (.modRstAssert n) s = .next (s.coldReset 1)) ∧
    ((s.coldReset 1).start.held = true) ∧
    (∀ e, s.start.coldAfter = false → s.start.held = true → exec (.modRstDeassert e) s = .next (s.coldStart e)) ∧
    (∀ e, s.rdF .strStartState 0 4 = 6 → s.handover = false → s.img.loading = false → exec (.warmReset e) s = .next ((s.stopModule).warmStart e 2)) ∧
    (∀ e, s.rdF .strStartState 0 4 = 6 → s.handover = false → s.img.loading = true → s.img.heldReset = none →
      exec (.warmReset e) s = .next { s.setB .strResetCtrl 0 with img := { s.img with heldReset := some (some e) } }) ∧
    (s.rdF .strStartState 0 4 = 6 → s.handover = false → s.img.loading = false → exec .shutdown s = .next (s.stopModule.setB .strResetCtrl 1)) ∧
    (s.rdF .strStartState 0 4 = 7 → s.rdB .strResetCtrl 0 = true → s.handover = false → exec .shutdown s = .next ((s.clrB .strResetCtrl 0).setB .strResetCtrl 1)) ∧
    (s.rdF .strStartState 0 4 = 7 → s.handover = false → ∀ t, t = s.flushDurable none → t.start.coldAfter = false →
      let u : State := { t with start := { t.start with cause := 0, clean := t.journalsWhole, flushed := true } }
      exec .shutdownComplete s = .next ((((List.range 4).foldl (fun v b => ((v.wrB .carBSlotStatus 1 false b).setInd b 0).channelsDown b) u).wrF .strStartState 0 4 8).clrB .strResetCtrl 1)) ∧
    (∀ off v, off % 4 = 0 → off + 4 ≤ 2 ^ 19 → s.img.loading = false → ∃ t, exec (.stagingWrite off 4 v) s = .next t ∧ (∀ i, i < 4 → t.stageByte (off + i) = BitVec.ofNat 8 (v / 256 ^ i)) ∧
      ∀ j, j < off ∨ off + 4 ≤ j → t.stageByte j = s.stageByte j) ∧
    (∀ off n v, n ≠ 4 ∨ off % 4 ≠ 0 → exec (.stagingWrite off n v) s = .next (s.send (.unsupported .mgmt (0x80000 + off)))) ∧
    (s.img.loading = false → exec .imageLoadStart s = .next { (s.setB .strStatus 0).setB .strLoadCtrl 0 with img := { s.img with loading := true, spoiled := false } }) ∧
    (s.img.loading = true → exec .imageLoadStart s = .next (s.setB .strStatus 3)) ∧
    (s.img.loading = false → exec .clearPending s = .next ((({ s with img := { s.img with pendingCopy := none } } : State).clrB .strStatus 4).wr .strPendSeq 0)) ∧
    (s.img.loading = true → exec .clearPending s = .next (s.setB .strStatus 3)) ∧
    (∀ m : BitVec 4, exec (.keyRevoke m) s = .next (s.wrF .strKeyState 8 4 (s.rdF .strKeyState 8 4 ||| m.toNat))) ∧
    (∀ st k, s.img.loading = true → s.rdB .pwrState 7 = false → s.fpDown 0 = false → s.validate s.stageByte true = .bad st k →
      exec .imageLoadComplete s = .next (((s.wr .strReject (BitVec.ofNat 64 (k + 65536 * st))).event { reg := .strStatus, bit := 2, status := st, value := k }).loadEnd)) ∧
    (∀ i, s.img.loading = true → s.rdB .pwrState 7 = false → s.fpDown 0 = false → s.validate s.stageByte true = .ok i → i.kind = 0 →
      exec .imageLoadComplete s = .next ((((({ s with img := { s.img with pendingCopy := some (srcBytes s.stageByte 0 (imgTotal s.stageByte + 128)) } } : State).setB .strStatus 4).wr .strPendSeq (BitVec.ofNat 64 i.sequence)).tellSkipped i.records).loadEnd))
end

