-- ==== Sys2Proof/Laws/Memory.lean ====
section
/-! SUPPORT. Laws of the byte memories: a write keeps the canonical form; a byte after a write. -/

namespace Sys2Proof.Machine

theorem Memory.wfFrom_mono {a b : Nat} : ∀ {m : Memory}, Memory.wfFrom b m = true → a ≤ b → Memory.wfFrom a m = true
  | [], _, _ => rfl
  | (x, v) :: t, h, hab => by
    simp only [Memory.wfFrom, Bool.and_eq_true, decide_eq_true_eq] at h ⊢
    exact ⟨⟨hab.trans h.1.1, h.1.2⟩, h.2⟩

/-- Cells of a span, followed by cells from its end on, are canonical. -/
theorem Memory.cellsOf_append_wf : ∀ (n a v : Nat) {m : Memory}, Memory.wfFrom (a + n) m = true → Memory.wfFrom a (Memory.cellsOf a n v ++ m) = true
  | 0, a, v, m, h => by simpa [Memory.cellsOf] using h
  | n + 1, a, v, m, h => by
    have ih := Memory.cellsOf_append_wf n (a + 1) (v / 256) (m := m) (by simpa [Nat.add_assoc, Nat.add_comm 1 n] using h)
    unfold Memory.cellsOf
    split
    · exact Memory.wfFrom_mono h (by omega)
    · split
      · exact Memory.wfFrom_mono ih (by omega)
      · rename_i h2
        have hb : BitVec.ofNat 8 v ≠ 0 := by
          intro h0
          have := congrArg BitVec.toNat h0
          simp at this; omega
        simp only [List.cons_append, Memory.wfFrom, Bool.and_eq_true, decide_eq_true_eq]
        exact ⟨⟨le_refl _, hb⟩, ih⟩

theorem Memory.from_wf {a b : Nat} : ∀ {m : Memory}, Memory.wfFrom b m = true → Memory.wfFrom a (m.from a) = true
  | [], _ => rfl
  | (x, v) :: t, h => by
    simp only [Memory.wfFrom, Bool.and_eq_true, decide_eq_true_eq] at h
    unfold Memory.from
    split
    · exact Memory.from_wf h.2
    · simp only [Memory.wfFrom, Bool.and_eq_true, decide_eq_true_eq]; exact ⟨⟨by omega, h.1.2⟩, h.2⟩

/-- The cells below an address, followed by cells from it on, are canonical. -/
theorem Memory.below_append_wf {a b : Nat} {r : Memory} (hr : Memory.wfFrom a r = true) (hb : b ≤ a) :
    ∀ {m : Memory}, Memory.wfFrom b m = true → Memory.wfFrom b (m.below a ++ r) = true
  | [], _ => by simpa [Memory.below] using Memory.wfFrom_mono hr hb
  | (x, v) :: t, h => by
    simp only [Memory.wfFrom, Bool.and_eq_true, decide_eq_true_eq] at h
    unfold Memory.below
    split
    · rename_i hx
      simp only [List.cons_append, Memory.wfFrom, Bool.and_eq_true, decide_eq_true_eq]
      exact ⟨h.1, Memory.below_append_wf hr (by omega) h.2⟩
    · simpa using Memory.wfFrom_mono hr hb

/-- A write keeps the canonical form. -/
theorem Memory.writeN_wf {m : Memory} {a n v : Nat} (h : m.wf = true) : (m.writeN a n v).wf = true :=
  Memory.below_append_wf (Memory.cellsOf_append_wf n a v (Memory.from_wf h)) (Nat.zero_le _) h

theorem Memory.setByte_wf {m : Memory} {a : Nat} {v : Byte} (h : m.wf = true) : (m.setByte a v).wf = true := Memory.writeN_wf h

/-- Leaving cells out keeps the canonical form. -/
theorem Memory.filter_wfFrom (f : Host.Cell → Bool) : ∀ {b : Nat} {m : Memory}, Memory.wfFrom b m = true → Memory.wfFrom b (m.filter f) = true
  | _, [], _ => rfl
  | b, (x, v) :: t, h => by
    simp only [Memory.wfFrom, Bool.and_eq_true, decide_eq_true_eq] at h
    rw [List.filter_cons]
    split
    · simp only [Memory.wfFrom, Bool.and_eq_true, decide_eq_true_eq]; exact ⟨h.1, Memory.filter_wfFrom f h.2⟩
    · exact Memory.filter_wfFrom f (Memory.wfFrom_mono h.2 (by omega))

theorem Memory.filter_wf (f : Host.Cell → Bool) {m : Memory} (h : m.wf = true) : Memory.wf (m.filter f) = true := Memory.filter_wfFrom f h

theorem Memory.byte_append_of_no {a : Nat} {r : Memory} : ∀ {m : Memory}, (∀ c ∈ m, c.1 ≠ a) → Memory.byte (m ++ r) a = Memory.byte r a
  | [], _ => rfl
  | (x, v) :: t, h => by
    rw [List.cons_append, Memory.byte, if_neg (h (x, v) (by simp))]
    exact Memory.byte_append_of_no (fun c hc => h c (by simp [hc]))

theorem Memory.below_lt {a : Nat} : ∀ {m : Memory} {c : Host.Cell}, c ∈ m.below a → c.1 < a
  | [], _, h => by simp [Memory.below] at h
  | (x, v) :: t, c, h => by
    unfold Memory.below at h
    split at h
    · rcases List.mem_cons.1 h with rfl | h
      · assumption
      · exact Memory.below_lt h
    · simp at h

theorem Memory.cellsOf_mem : ∀ (n a v : Nat) {c : Host.Cell}, c ∈ Memory.cellsOf a n v → a ≤ c.1 ∧ c.1 < a + n
  | 0, _, _, _, h => by simp [Memory.cellsOf] at h
  | n + 1, a, v, c, h => by
    unfold Memory.cellsOf at h
    split at h
    · simp at h
    · split at h
      · have := Memory.cellsOf_mem n (a + 1) (v / 256) h; omega
      · rcases List.mem_cons.1 h with rfl | h
        · simp
        · have := Memory.cellsOf_mem n (a + 1) (v / 256) h; omega

theorem Memory.byte_from {a b : Nat} (hb : a ≤ b) : ∀ {m : Memory}, Memory.byte (m.from a) b = Memory.byte m b
  | [] => rfl
  | (x, v) :: t => by
    unfold Memory.from
    split
    · rw [Memory.byte_from hb, Memory.byte, if_neg (by omega)]
    · rfl

theorem Memory.byte_none {a b : Nat} (hb : b < a) : ∀ {m : Memory}, Memory.wfFrom a m = true → Memory.byte m b = 0
  | [], _ => rfl
  | (x, v) :: t, h => by
    simp only [Memory.wfFrom, Bool.and_eq_true, decide_eq_true_eq] at h
    rw [Memory.byte, if_neg (by omega)]
    exact Memory.byte_none (by omega) h.2

theorem Memory.byte_below {a b l : Nat} (hb : b < a) {r : Memory} (hr : ∀ c ∈ r, a ≤ c.1) :
    ∀ {m : Memory}, Memory.wfFrom l m = true → Memory.byte (m.below a ++ r) b = Memory.byte m b
  | [], _ => by
    have : Memory.byte (r ++ []) b = Memory.byte [] b := Memory.byte_append_of_no (fun c hc => by have := hr c hc; omega)
    simpa [Memory.below] using this
  | (x, v) :: t, h => by
    simp only [Memory.wfFrom, Bool.and_eq_true, decide_eq_true_eq] at h
    unfold Memory.below
    split
    · simp only [List.cons_append, Memory.byte]
      rw [Memory.byte_below hb hr h.2]
    · have h0 : Memory.byte (r ++ []) b = Memory.byte [] b := Memory.byte_append_of_no (fun c hc => by have := hr c hc; omega)
      rw [Memory.byte, if_neg (by omega), Memory.byte_none (a := x + 1) (by omega) h.2]
      rw [List.append_nil] at h0; exact h0

theorem Memory.from_ge {a l : Nat} : ∀ {m : Memory}, Memory.wfFrom l m = true → ∀ c ∈ m.from a, a ≤ c.1
  | [], _, _, h => by simp [Memory.from] at h
  | (x, v) :: t, h, c, hc => by
    have hw := h
    simp only [Memory.wfFrom, Bool.and_eq_true, decide_eq_true_eq] at h
    unfold Memory.from at hc
    split at hc
    · exact Memory.from_ge h.2 c hc
    · rename_i hx
      have : ∀ {l : Nat} {u : Memory}, Memory.wfFrom l u = true → ∀ c ∈ u, l ≤ c.1 := by
        intro l u
        induction u generalizing l with
        | nil => intro _ c hc; simp at hc
        | cons y u ih =>
          intro hu c hc
          obtain ⟨y1, y2⟩ := y
          simp only [Memory.wfFrom, Bool.and_eq_true, decide_eq_true_eq] at hu
          rcases List.mem_cons.1 hc with rfl | hc
          · exact hu.1.1
          · have := ih hu.2 c hc; omega
      rcases List.mem_cons.1 hc with rfl | hc
      · simpa using hx
      · have := this h.2 c hc; omega

/-- A write leaves every byte outside its span alone. -/
theorem Memory.byte_writeN_outside {m : Memory} {a n v b : Nat} (h : m.wf = true) (hb : b < a ∨ a + n ≤ b) : (m.writeN a n v).byte b = m.byte b := by
  unfold Memory.writeN
  rcases hb with hb | hb
  · refine Memory.byte_below hb ?_ h
    intro c hc
    rcases List.mem_append.1 hc with hc | hc
    · exact (Memory.cellsOf_mem _ _ _ hc).1
    · have := Memory.from_ge (a := a + n) h c hc; omega
  · rw [Memory.byte_append_of_no (fun c hc => by have := Memory.below_lt hc; omega),
      Memory.byte_append_of_no (fun c hc => by have := (Memory.cellsOf_mem _ _ _ hc).2; omega), Memory.byte_from hb]

theorem Memory.byte_cellsOf : ∀ (n a v i : Nat) {r : Memory}, i < n → (∀ c ∈ r, a + n ≤ c.1) → Memory.byte (Memory.cellsOf a n v ++ r) (a + i) = BitVec.ofNat 8 (v / 256 ^ i)
  | 0, _, _, _, _, h, _ => by omega
  | n + 1, a, v, i, r, hi, hr => by
    have tail : ∀ (u : Nat), Memory.byte r (a + i) = 0 := by
      intro _
      have h0 : Memory.byte (r ++ []) (a + i) = Memory.byte [] (a + i) := Memory.byte_append_of_no (fun c hc => by have := hr c hc; omega)
      rw [List.append_nil] at h0; exact h0
    unfold Memory.cellsOf
    split
    · rename_i h0; subst h0; simpa using tail 0
    · rename_i hv
      cases i with
      | zero =>
        split
        · rename_i h8
          have : Memory.byte (Memory.cellsOf (a + 1) n (v / 256) ++ r) (a + 0) = Memory.byte r (a + 0) :=
            Memory.byte_append_of_no (fun c hc => by have := (Memory.cellsOf_mem _ _ _ hc).1; omega)
          rw [this, tail 0]
          apply BitVec.eq_of_toNat_eq; simp; omega
        · simp [Memory.byte]
      | succ i =>
        have ih := Memory.byte_cellsOf n (a + 1) (v / 256) i (r := r) (by omega) (fun c hc => by have := hr c hc; omega)
        have e : a + (i + 1) = a + 1 + i := by omega
        have p : v / 256 ^ (i + 1) = v / 256 / 256 ^ i := by rw [Nat.pow_succ', Nat.div_div_eq_div_mul]
        rw [e, p]
        split
        · exact ih
        · rw [List.cons_append, Memory.byte, if_neg (by omega)]; exact ih

/-- A byte inside a written span is its byte of the number. -/
theorem Memory.byte_writeN_inside {m : Memory} {a n v i : Nat} (h : m.wf = true) (hi : i < n) : (m.writeN a n v).byte (a + i) = BitVec.ofNat 8 (v / 256 ^ i) := by
  unfold Memory.writeN
  rw [Memory.byte_append_of_no (fun c hc => by have := Memory.below_lt hc; omega)]
  exact Memory.byte_cellsOf n a v i hi (Memory.from_ge h)

end Sys2Proof.Machine
end

