-- ==== Sys2Proof/Laws/Store.lean ====
section
/-! SUPPORT. Laws of the sparse tables: every operation keeps the canonical form; a read after a write. -/

namespace Sys2Proof.Machine

variable {α : Type}

theorem Store.rising_mono {a b : Nat} : ∀ {t : Store α}, Store.rising b t = true → a ≤ b → Store.rising a t = true
  | [], _, _ => rfl
  | (j, v) :: t, h, hab => by
    simp only [Store.rising, Bool.and_eq_true, decide_eq_true_eq] at h ⊢
    exact ⟨hab.trans h.1, h.2⟩

theorem Store.put_rising {b k : Nat} {v : α} : ∀ {t : Store α}, Store.rising b t = true → b ≤ k → Store.rising b (Store.put k v t) = true
  | [], _, hk => by simp [Store.put, Store.rising, hk]
  | (j, w) :: t, h, hk => by
    simp only [Store.rising, Bool.and_eq_true, decide_eq_true_eq] at h
    unfold Store.put
    split
    · simp only [Store.rising, Bool.and_eq_true, decide_eq_true_eq]; exact ⟨hk, by omega, h.2⟩
    · split
      · subst j; simp [Store.rising, hk, h.2]
      · simp only [Store.rising, Bool.and_eq_true, decide_eq_true_eq]
        exact ⟨h.1, Store.put_rising h.2 (by omega)⟩

theorem Store.drop_rising {b k : Nat} : ∀ {t : Store α}, Store.rising b t = true → Store.rising b (Store.drop k t) = true
  | [], _ => rfl
  | (j, w) :: t, h => by
    simp only [Store.rising, Bool.and_eq_true, decide_eq_true_eq] at h
    unfold Store.drop
    split
    · exact Store.rising_mono h.2 (by omega)
    · split
      · simp [Store.rising, h.1, h.2]
      · simp only [Store.rising, Bool.and_eq_true, decide_eq_true_eq]; exact ⟨h.1, Store.drop_rising h.2⟩

theorem Store.put_mem {k : Nat} {v : α} {e : Nat × α} : ∀ {t : Store α}, e ∈ Store.put k v t → e = (k, v) ∨ e ∈ t
  | [], h => by simpa [Store.put] using h
  | (j, w) :: t, h => by
    unfold Store.put at h
    split at h
    · simpa using h
    · split at h
      · simp only [List.mem_cons] at h ⊢; tauto
      · simp only [List.mem_cons] at h ⊢
        rcases h with h | h
        · tauto
        · rcases Store.put_mem h with h | h <;> tauto

theorem Store.drop_mem {k : Nat} {e : Nat × α} : ∀ {t : Store α}, e ∈ Store.drop k t → e ∈ t
  | [], h => by simp [Store.drop] at h
  | (j, w) :: t, h => by
    unfold Store.drop at h
    split at h
    · exact List.mem_cons_of_mem _ h
    · split at h
      · exact h
      · simp only [List.mem_cons] at h ⊢
        exact h.imp id Store.drop_mem

theorem Store.filter_rising {b : Nat} (f : Nat × α → Bool) : ∀ {t : Store α}, Store.rising b t = true → Store.rising b (t.filter f) = true
  | [], _ => rfl
  | (j, w) :: t, h => by
    simp only [Store.rising, Bool.and_eq_true, decide_eq_true_eq] at h
    rw [List.filter_cons]
    split
    · simp only [Store.rising, Bool.and_eq_true, decide_eq_true_eq]; exact ⟨h.1, Store.filter_rising f h.2⟩
    · exact Store.filter_rising f (Store.rising_mono h.2 (by omega))

/-- Listing an entry, or removing it, keeps what every entry meets. -/
theorem Store.set_all [DecidableEq α] (f : Nat × α → Prop) (d : α) {k : Nat} {v : α} {t : Store α} (h : ∀ e ∈ t, f e) (hv : v ≠ d → f (k, v)) :
    ∀ e ∈ Store.set d k v t, f e := by
  intro e he
  unfold Store.set at he
  split at he
  · exact h e (Store.drop_mem he)
  · rename_i hd
    rcases Store.put_mem he with rfl | he
    · exact hv hd
    · exact h e he

theorem Store.set_rising [DecidableEq α] {b : Nat} (d : α) {k : Nat} {v : α} {t : Store α} (h : Store.rising b t = true) (hk : b ≤ k) :
    Store.rising b (Store.set d k v t) = true := by
  unfold Store.set
  split
  · exact Store.drop_rising h
  · exact Store.put_rising h hk

/-- A write keeps the canonical form. -/
theorem Store.set_wf [DecidableEq α] {d : Nat → α} {k : Nat} {v : α} {t : Store α} (h : Store.wf d t = true) : Store.wf d (Store.set (d k) k v t) = true := by
  simp only [Store.wf, Bool.and_eq_true, List.all_eq_true, decide_eq_true_eq] at h ⊢
  exact ⟨Store.set_rising _ h.1 (Nat.zero_le _), Store.set_all (fun e => e.2 ≠ d e.1) _ h.2 (fun hv => hv)⟩

/-- The same where every unlisted key reads alike. -/
theorem Store.set_wf_const [DecidableEq α] {d : α} {k : Nat} {v : α} {t : Store α} (h : Store.wf (fun _ => d) t = true) : Store.wf (fun _ => d) (Store.set d k v t) = true :=
  Store.set_wf (d := fun _ => d) h

/-- Leaving entries out keeps the canonical form. -/
theorem Store.filter_wf [DecidableEq α] {d : Nat → α} (f : Nat × α → Bool) {t : Store α} (h : Store.wf d t = true) : Store.wf d (t.filter f) = true := by
  simp only [Store.wf, Bool.and_eq_true, List.all_eq_true, decide_eq_true_eq] at h ⊢
  exact ⟨Store.filter_rising f h.1, fun e he => h.2 e (List.mem_filter.1 he).1⟩

@[simp] theorem Store.nil_wf [DecidableEq α] (d : Nat → α) : Store.wf d ([] : Store α) = true := rfl

/-- A table filled by writes is canonical. -/
theorem Store.foldl_wf [DecidableEq α] {β : Type} {d : Nat → α} (f : Store α → β → Store α) (hf : ∀ t x, Store.wf d t = true → Store.wf d (f t x) = true) :
    ∀ (l : List β) (t : Store α), Store.wf d t = true → Store.wf d (l.foldl f t) = true
  | [], _, h => h
  | x :: l, t, h => Store.foldl_wf f hf l (f t x) (hf t x h)

theorem Store.mapVals_wf [DecidableEq α] (d : α) (f : Nat → α → α) (t : Store α) : Store.wf (fun _ => d) (Store.mapVals d f t) = true :=
  Store.foldl_wf _ (fun _ e h => Store.set_wf (d := fun _ => d) (k := e.1) h) _ _ rfl

theorem Store.find_put_self {k : Nat} {v : α} : ∀ {t : Store α}, Store.find k (Store.put k v t) = some v
  | [] => by simp [Store.put, Store.find]
  | (j, w) :: t => by
    unfold Store.put
    split
    · simp [Store.find]
    · split
      · simp [Store.find]
      · rename_i h1 h2
        rw [Store.find, if_neg h2, if_neg h1]
        exact Store.find_put_self

theorem Store.find_put_ne {k m : Nat} {v : α} (hm : m ≠ k) : ∀ {t : Store α}, Store.find m (Store.put k v t) = Store.find m t
  | [] => by
    simp only [Store.put, Store.find]
    rw [if_neg (fun h => hm h.symm)]; simp
  | (j, w) :: t => by
    unfold Store.put
    split
    · rename_i h
      rw [Store.find, if_neg (fun h => hm h.symm)]
      split
      · rename_i hk
        rw [Store.find, if_neg (by omega), if_pos (by omega)]
      · rfl
    · split
      · rename_i h
        subst h
        simp only [Store.find, if_neg (fun h => hm h.symm : ¬j = m)]
      · simp only [Store.find, Store.find_put_ne hm (t := t)]

theorem Store.find_none_of_rising {k b : Nat} (hk : k < b) : ∀ {t : Store α}, Store.rising b t = true → Store.find k t = none
  | [], _ => rfl
  | (j, w) :: t, h => by
    simp only [Store.rising, Bool.and_eq_true, decide_eq_true_eq] at h
    rw [Store.find, if_neg (by omega), if_pos (by omega)]

theorem Store.find_drop_self {k b : Nat} : ∀ {t : Store α}, Store.rising b t = true → Store.find k (Store.drop k t) = none
  | [], _ => rfl
  | (j, w) :: t, h => by
    simp only [Store.rising, Bool.and_eq_true, decide_eq_true_eq] at h
    unfold Store.drop
    split
    · exact Store.find_none_of_rising (by omega) h.2
    · split
      · rw [Store.find, if_neg (by omega), if_pos (by omega)]
      · rw [Store.find, if_neg (by omega), if_neg (by omega)]
        exact Store.find_drop_self h.2

theorem Store.find_drop_ne {k m b : Nat} (hm : m ≠ k) : ∀ {t : Store α}, Store.rising b t = true → Store.find m (Store.drop k t) = Store.find m t
  | [], _ => rfl
  | (j, w) :: t, h => by
    simp only [Store.rising, Bool.and_eq_true, decide_eq_true_eq] at h
    unfold Store.drop
    split
    · rename_i hj
      subst hj
      rw [Store.find, if_neg (fun h => hm h.symm)]
      split
      · exact Store.find_none_of_rising (by omega) h.2
      · rfl
    · split
      · rfl
      · simp only [Store.find, Store.find_drop_ne hm h.2]

/-- A read after a write of the same key gives what was written. -/
@[simp] theorem Store.get_set_self [DecidableEq α] {d v : α} {k : Nat} {t : Store α} (h : Store.rising 0 t = true) : Store.get d k (Store.set d k v t) = v := by
  unfold Store.set Store.get
  split
  · rename_i hv; rw [Store.find_drop_self h]; simp [hv]
  · rw [Store.find_put_self]; rfl

/-- A write leaves every other key alone. -/
@[simp] theorem Store.get_set_ne [DecidableEq α] {d e v : α} {k m : Nat} {t : Store α} (h : Store.rising 0 t = true) (hm : m ≠ k) :
    Store.get e m (Store.set d k v t) = Store.get e m t := by
  unfold Store.set Store.get
  split
  · rw [Store.find_drop_ne hm h]
  · rw [Store.find_put_ne hm]

theorem Store.wf_rising [DecidableEq α] {d : Nat → α} {t : Store α} (h : Store.wf d t = true) : Store.rising 0 t = true := by
  simp only [Store.wf, Bool.and_eq_true] at h; exact h.1

end Sys2Proof.Machine
end

