-- ==== Sys2Proof/Laws/Keeps.lean ====
section
/-! SUPPORT. Keeps is a preorder, and how it passes through record updates, folds, pairs, options and outcomes. -/

namespace Sys2Proof.Machine

theorem Keeps.refl (s : State) : Keeps s s := ⟨rfl, le_refl _, List.prefix_rfl, le_refl _, id⟩

theorem Keeps.trans {a b c : State} (h : Keeps a b) (g : Keeps b c) : Keeps a c :=
  ⟨g.queue.trans h.queue, h.clock.trans g.clock, h.sent.trans g.sent, h.fresh.trans g.fresh, fun x => g.canonical (h.canonical x)⟩

/-- A state that agrees with a kept one on everything that Keeps speaks of. -/
theorem Keeps.same {s0 s t : State} (h : Keeps s0 s) (h1 : t.time = s.time) (h2 : t.free = s.free) (h3 : t.pending = s.pending) (h4 : t.out = s.out)
    (hc : s.Canonical → t.Canonical) : Keeps s0 t :=
  h.trans ⟨h3, by rw [h1], by rw [h4], by rw [h2], hc⟩

/-- What holds at the start of a fold and at each turn holds at its end. -/
theorem foldl_inv {α β : Type} {P : β → Prop} {f : β → α → β} (hf : ∀ b x, P b → P (f b x)) : ∀ (l : List α) {b : β}, P b → P (l.foldl f b)
  | [], _, h => h
  | x :: l, b, h => foldl_inv hf l (hf b x h)

/-- Keeps of a state that is written out, by the parts that Keeps speaks of. -/
def KeepsMk (s0 : State) (time free : Nat) (pending : List Instr) (out : List Output) (regs : RegFile) (links : Store LinkSt) (lds : Store LdSt) (binding : Store (Option Nat))
    (iso : Store (Option IsoEntry)) (parts : Store PartSt) (frames : Store FrameSt) (queues : Store QueueSt) (sync : Store SyncObj) (cores : Store CoreSt) (shared : Store Memory) (pool : Memory) : Prop :=
  Keeps s0 { time, free, pending, out, regs, links, lds, binding, iso, parts, tier := { frames }, queues, sync, cores, shared, pool }

theorem Keeps.mk_eq {s0 : State} {time free pending out regs acc ev img links lds binding iso parts lens tier dram flash qos mir power start hup fw shw cross queues sync cores shared comp pool} :
    Keeps s0 (State.mk time free pending out regs acc ev img links lds binding iso parts lens tier dram flash qos mir power start hup fw shw cross queues sync cores shared comp pool) =
      KeepsMk s0 time free pending out regs links lds binding iso parts tier.frames queues sync cores shared pool := by
  apply propext
  constructor <;> intro h <;> exact h.same rfl rfl rfl rfl (fun c => ⟨c.pool, c.regs, c.links, c.lds, c.binding, c.iso, c.parts, c.frames, c.queues, c.sync, c.cores, c.shared⟩)

/-- The frame map of a tier state that is written out; a rewrite, so that no conversion check compares the other fields. -/
theorem TierSt.frames_mk {frames moves heldR victimPtr abandoned sweepKey sweepAt staged declined mapHits mapMisses mapCache cleaning epochAt} :
    (TierSt.mk frames moves heldR victimPtr abandoned sweepKey sweepAt staged declined mapHits mapMisses mapCache cleaning epochAt).frames = frames := by
  have h : frames = frames := rfl
  exact h

/-- A record update that leaves those parts alone. -/
theorem KeepsMk.of {s0 s : State} (h : Keeps s0 s) :
    KeepsMk s0 s.time s.free s.pending s.out s.regs s.links s.lds s.binding s.iso s.parts s.tier.frames s.queues s.sync s.cores s.shared s.pool := by
  rw [← Keeps.mk_eq (acc := s.acc) (ev := s.ev) (img := s.img) (lens := s.lens) (tier := s.tier) (dram := s.dram) (flash := s.flash) (qos := s.qos) (mir := s.mir) (power := s.power)
    (start := s.start) (hup := s.hup) (fw := s.fw) (shw := s.shw) (cross := s.cross) (comp := s.comp)]
  exact h

/-- A record update that uses up free values. -/
theorem KeepsMk.free {s0 s : State} (h : Keeps s0 s) (n : Nat) :
    KeepsMk s0 s.time (s.free + n) s.pending s.out s.regs s.links s.lds s.binding s.iso s.parts s.tier.frames s.queues s.sync s.cores s.shared s.pool :=
  h.trans ⟨rfl, le_refl _, List.prefix_rfl, Nat.le_add_right _ _, fun c => ⟨c.pool, c.regs, c.links, c.lds, c.binding, c.iso, c.parts, c.frames, c.queues, c.sync, c.cores, c.shared⟩⟩

/-- A record update that moves module time on. -/
theorem KeepsMk.time {s0 s : State} (h : Keeps s0 s) (n : Nat) :
    KeepsMk s0 (s.time + n) s.free s.pending s.out s.regs s.links s.lds s.binding s.iso s.parts s.tier.frames s.queues s.sync s.cores s.shared s.pool :=
  h.trans ⟨rfl, Nat.le_add_right _ _, List.prefix_rfl, le_refl _, fun c => ⟨c.pool, c.regs, c.links, c.lds, c.binding, c.iso, c.parts, c.frames, c.queues, c.sync, c.cores, c.shared⟩⟩

/-- Empty tables are canonical. -/
theorem KeepsMk.tablesNil {s0 s : State} (h : Keeps s0 s) :
    KeepsMk s0 s.time s.free s.pending s.out s.regs s.links s.lds [] [] s.parts s.tier.frames s.queues s.sync s.cores s.shared s.pool :=
  h.same rfl rfl rfl rfl (fun c => ⟨c.pool, c.regs, c.links, c.lds, rfl, rfl, c.parts, c.frames, c.queues, c.sync, c.cores, c.shared⟩)

/-- A table of shared memories with one entry written. -/
theorem KeepsMk.shared {s0 s : State} (h : Keeps s0 s) (k : Nat) (v : Memory) :
    KeepsMk s0 s.time s.free s.pending s.out s.regs s.links s.lds s.binding s.iso s.parts s.tier.frames s.queues s.sync s.cores (Store.set [] k v s.shared) s.pool :=
  h.same rfl rfl rfl rfl (fun c => ⟨c.pool, c.regs, c.links, c.lds, c.binding, c.iso, c.parts, c.frames, c.queues, c.sync, c.cores, Store.set_wf_const c.shared⟩)

/-- A table of links mapped entry by entry. -/
theorem KeepsMk.links {s0 s : State} (h : Keeps s0 s) (f : Nat → LinkSt → LinkSt) :
    KeepsMk s0 s.time s.free s.pending s.out s.regs (Store.mapVals {} f s.links) s.lds s.binding s.iso s.parts s.tier.frames s.queues s.sync s.cores s.shared s.pool :=
  h.same rfl rfl rfl rfl (fun c => ⟨c.pool, c.regs, Store.mapVals_wf _ _ _, c.lds, c.binding, c.iso, c.parts, c.frames, c.queues, c.sync, c.cores, c.shared⟩)

/-- A table of sync objects mapped entry by entry. -/
theorem KeepsMk.sync {s0 s : State} (h : Keeps s0 s) (f : Nat → SyncObj → SyncObj) :
    KeepsMk s0 s.time s.free s.pending s.out s.regs s.links s.lds s.binding s.iso s.parts s.tier.frames s.queues (Store.mapVals {} f s.sync) s.cores s.shared s.pool :=
  h.same rfl rfl rfl rfl (fun c => ⟨c.pool, c.regs, c.links, c.lds, c.binding, c.iso, c.parts, c.frames, c.queues, Store.mapVals_wf _ _ _, c.cores, c.shared⟩)

theorem Keeps.ite {s0 a b : State} {c : Prop} [Decidable c] (ha : Keeps s0 a) (hb : Keeps s0 b) : Keeps s0 (if c then a else b) := by
  split <;> assumption

theorem Keeps.ite_fst {s0 : State} {β : Type} {a b : State × β} {c : Prop} [Decidable c] (ha : Keeps s0 a.1) (hb : Keeps s0 b.1) : Keeps s0 (if c then a else b).1 := by
  split <;> assumption

theorem Keeps.foldl {s0 : State} {α : Type} {f : State → α → State} {l : List α} {s : State} (h : Keeps s0 s) (hf : ∀ t x, Keeps s0 t → Keeps s0 (f t x)) :
    Keeps s0 (l.foldl f s) := by
  induction l generalizing s with
  | nil => exact h
  | cons x l ih => exact ih (hf s x h)

theorem Keeps.foldl_fst {s0 : State} {α β : Type} {f : State × β → α → State × β} {l : List α} {p : State × β} (h : Keeps s0 p.1)
    (hf : ∀ a x, Keeps s0 a.1 → Keeps s0 (f a x).1) : Keeps s0 (l.foldl f p).1 := by
  induction l generalizing p with
  | nil => exact h
  | cons x l ih => exact ih (hf p x h)

theorem Keeps.fst {s0 t : State} {β : Type} {p : State × β} {r : β} (h : Keeps s0 p.1) (e : p = (t, r)) : Keeps s0 t := by subst e; exact h

theorem Keeps.snd {s0 t : State} {β : Type} {p : β × State} {r : β} (h : Keeps s0 p.2) (e : p = (r, t)) : Keeps s0 t := by subst e; exact h

/-- Every state that an optional result holds is kept. -/
structure KeepsO (s0 : State) (o : Option State) : Prop where
  all : ∀ t, o = some t → Keeps s0 t
theorem KeepsO.none {s0 : State} : KeepsO s0 none := ⟨fun _ h => by cases h⟩
theorem KeepsO.some {s0 t : State} (h : Keeps s0 t) : KeepsO s0 (some t) := ⟨fun _ e => by cases e; exact h⟩
theorem KeepsO.get {s0 t : State} {o : Option State} (h : KeepsO s0 o) (e : o = Option.some t) : Keeps s0 t := h.all t e
theorem KeepsO.getD {s0 d : State} {o : Option State} (h : KeepsO s0 o) (hd : Keeps s0 d) : Keeps s0 (o.getD d) := by
  cases o with
  | none => exact hd
  | some t => exact h.all t rfl
theorem KeepsO.ite {s0 : State} {a b : Option State} {c : Prop} [Decidable c] (ha : KeepsO s0 a) (hb : KeepsO s0 b) : KeepsO s0 (if c then a else b) := by
  split <;> assumption

/-- A command answers a next state, and keeps. -/
def KeepsR (s0 : State) (r : Res) : Prop := ∃ t, r = .next t ∧ Keeps s0 t
theorem KeepsR.next {s0 t : State} (h : Keeps s0 t) : KeepsR s0 (.next t) := ⟨t, rfl, h⟩
theorem KeepsR.ite {s0 : State} {a b : Res} {c : Prop} [Decidable c] (ha : KeepsR s0 a) (hb : KeepsR s0 b) : KeepsR s0 (if c then a else b) := by
  split <;> assumption

theorem KeepsO.bind {s0 : State} {o : Option State} {f : State → Option State} (h : KeepsO s0 o) (hf : ∀ t, Keeps s0 t → KeepsO s0 (f t)) : KeepsO s0 (o.bind f) := by
  cases o with
  | none => exact KeepsO.none
  | some t => exact hf t (h.all t rfl)
theorem KeepsO.orElse {s0 : State} {o : Option State} {f : Unit → Option State} (h : KeepsO s0 o) (hf : KeepsO s0 (f ())) : KeepsO s0 (o.orElse f) := by
  cases o with
  | none => exact hf
  | some t => exact h
theorem KeepsO.foldl {s0 : State} {α : Type} {f : Option State → α → Option State} {l : List α} {o : Option State} (h : KeepsO s0 o) (hf : ∀ o x, KeepsO s0 o → KeepsO s0 (f o x)) :
    KeepsO s0 (l.foldl f o) := foldl_inv hf l h

theorem KeepsO.match_some {s0 t : State} {β : Type} {o : Option (State × β)} {r : β} (h : ∀ u b, o = Option.some (u, b) → Keeps s0 u) (e : o = Option.some (t, r)) : Keeps s0 t := h t r e

/-! The operations that write a table. -/

theorem RegName.ofNat_lt (n : RegName) : n.ctorIdx < 8192 := by cases n <;> decide

theorem RegId.ofKey_key (r : RegId) : RegId.ofKey r.key = { name := r.name, i := r.i % 8192, j := r.j % 8192 } := by
  have h := RegName.ofNat_lt r.name
  unfold RegId.ofKey RegId.key
  have h1 : ((r.name.ctorIdx * 8192 + r.i % 8192) * 8192 + r.j % 8192) / 8192 / 8192 = r.name.ctorIdx := by omega
  have h2 : ((r.name.ctorIdx * 8192 + r.i % 8192) * 8192 + r.j % 8192) / 8192 % 8192 = r.i % 8192 := by omega
  have h3 : ((r.name.ctorIdx * 8192 + r.i % 8192) * 8192 + r.j % 8192) % 8192 = r.j % 8192 := by omega
  rw [h1, h2, h3]
  congr 1
  cases r.name <;> rfl

theorem RegId.resetWord_ofKey (r : RegId) : (RegId.ofKey r.key).resetWord = r.resetWord := by
  rw [RegId.ofKey_key]; unfold RegId.resetWord; simp only [Nat.mod_mod]

/-- A register write keeps the register file's canonical form. -/
theorem RegFile.write_wf {f : RegFile} (h : f.wf = true) (r : RegId) (v : Word) : (f.write r v).wf = true := by
  simp only [RegFile.wf, Bool.and_eq_true, List.all_eq_true, decide_eq_true_eq] at h ⊢
  unfold RegFile.write
  refine ⟨?_, ?_⟩
  · have := Store.set_wf (d := fun k => (RegId.ofKey k).resetWord) (k := r.key) (v := if r.name.row.width = 32 then v &&& 0xFFFFFFFF else v) h.1
    simpa only [RegId.resetWord_ofKey] using this
  · refine Store.set_all _ _ h.2 (fun _ hw => ?_)
    rw [RegId.ofKey_key] at hw
    have hw : r.name.row.width = 32 := hw
    simp only [hw, if_true]
    rw [BitVec.and_assoc, BitVec.and_self]

theorem RegFile.filter_wf {f : RegFile} (h : f.wf = true) (p : Nat × Word → Bool) : RegFile.wf (f.filter p) = true := by
  simp only [RegFile.wf, Bool.and_eq_true, List.all_eq_true] at h ⊢
  exact ⟨Store.filter_wf p h.1, fun e he => h.2 e (List.mem_filter.1 he).1⟩

theorem Keeps.regs {s0 s : State} (h : Keeps s0 s) {f : RegFile} (hf : s.regs.wf = true → f.wf = true) : Keeps s0 { s with regs := f } :=
  h.same rfl rfl rfl rfl (fun c => { c with regs := hf c.regs })

theorem State.wr_keeps {s0 s : State} (h : Keeps s0 s) (n : RegName) (v : Word) (i j : Nat) : Keeps s0 (s.wr n v i j) :=
  h.regs (fun w => RegFile.write_wf w _ _)

theorem Keeps.writeReg {s0 s : State} (h : Keeps s0 s) (r : RegId) (v : Word) : Keeps s0 { s with regs := s.regs.write r v } :=
  h.regs (fun w => RegFile.write_wf w _ _)

theorem State.reach_keeps {s0 s : State} (h : Keeps s0 s) (t : Nat) : Keeps s0 (s.reach t) :=
  h.trans ⟨rfl, le_max_left _ _, List.prefix_rfl, le_refl _, fun c => { c with }⟩

theorem State.send_keeps {s0 s : State} (h : Keeps s0 s) (o : Output) : Keeps s0 (s.send o) :=
  h.trans ⟨rfl, le_refl _, List.prefix_append _ _, le_refl _, fun c => { c with }⟩

theorem State.nextFree_keeps {s0 s : State} (h : Keeps s0 s) : Keeps s0 s.nextFree.2 :=
  h.trans ⟨rfl, le_refl _, List.prefix_rfl, Nat.le_succ _, fun c => { c with }⟩

theorem Keeps.filterRegs {s0 s : State} (h : Keeps s0 s) (p : Nat × Word → Bool) : Keeps s0 { s with regs := s.regs.filter p } :=
  h.regs (fun w => RegFile.filter_wf w p)

theorem State.setLink_keeps {s0 s : State} (h : Keeps s0 s) (n : Nat) (v : LinkSt) : Keeps s0 (s.setLink n v) :=
  h.same rfl rfl rfl rfl (fun c => { c with links := Store.set_wf_const c.links })

theorem State.setLd_keeps {s0 s : State} (h : Keeps s0 s) (l d : Nat) (v : LdSt) : Keeps s0 (s.setLd l d v) :=
  h.same rfl rfl rfl rfl (fun c => { c with lds := Store.set_wf_const c.lds })

theorem State.setPart_keeps {s0 s : State} (h : Keeps s0 s) (p : Nat) (v : PartSt) : Keeps s0 (s.setPart p v) :=
  h.same rfl rfl rfl rfl (fun c => { c with parts := Store.set_wf_const c.parts })

theorem State.setFrame_keeps {s0 s : State} (h : Keeps s0 s) (p f : Nat) (v : FrameSt) : Keeps s0 (s.setFrame p f v) :=
  h.same rfl rfl rfl rfl (fun c => { c with frames := Store.set_wf_const c.frames })

theorem State.setQueue_keeps {s0 s : State} (h : Keeps s0 s) (q : Nat) (v : QueueSt) : Keeps s0 (s.setQueue q v) :=
  h.same rfl rfl rfl rfl (fun c => { c with queues := Store.set_wf_const c.queues })

theorem State.setObj_keeps {s0 s : State} (h : Keeps s0 s) (k : Nat) (v : SyncObj) : Keeps s0 (s.setObj k v) :=
  h.same rfl rfl rfl rfl (fun c => { c with sync := Store.set_wf_const c.sync })

theorem State.setCore_keeps {s0 s : State} (h : Keeps s0 s) (k : Nat) (v : CoreSt) : Keeps s0 (s.setCore k v) :=
  h.same rfl rfl rfl rfl (fun c => { c with cores := Store.set_wf_const c.cores })

theorem Keeps.setShared {s0 s : State} (h : Keeps s0 s) (k : Nat) (v : Memory) : Keeps s0 { s with shared := Store.set [] k v s.shared } :=
  h.same rfl rfl rfl rfl (fun c => { c with shared := Store.set_wf_const c.shared })

theorem Keeps.setIso {s0 s : State} (h : Keeps s0 s) (k : Nat) (v : Option IsoEntry) : Keeps s0 { s with iso := Store.set none k v s.iso } :=
  h.same rfl rfl rfl rfl (fun c => { c with iso := Store.set_wf_const c.iso })

theorem Keeps.setBinding {s0 s : State} (h : Keeps s0 s) (k : Nat) (v : Option Nat) : Keeps s0 { s with binding := Store.set none k v s.binding } :=
  h.same rfl rfl rfl rfl (fun c => { c with binding := Store.set_wf_const c.binding })

theorem Keeps.mapSync {s0 s : State} (h : Keeps s0 s) (f : Nat → SyncObj → SyncObj) : Keeps s0 { s with sync := Store.mapVals {} f s.sync } :=
  h.same rfl rfl rfl rfl (fun c => { c with sync := Store.mapVals_wf _ _ _ })

theorem Keeps.mapParts {s0 s : State} (h : Keeps s0 s) (f : Nat → PartSt → PartSt) (dram : DramSt) (qos : QosSt) :
    Keeps s0 { s with dram := dram, parts := Store.mapVals {} f s.parts, qos := qos } :=
  h.same rfl rfl rfl rfl (fun c => { c with parts := Store.mapVals_wf _ _ _ })

theorem State.setPoolPage_keeps {s0 s : State} (h : Keeps s0 s) (p page : Nat) (v : Page) : Keeps s0 (s.setPoolPage p page v) :=
  h.same rfl rfl rfl rfl (fun c => { c with pool := Memory.writeN_wf c.pool })

end Sys2Proof.Machine
end

