-- ==== Sys2Proof/Laws/KeepsOps.lean ====
section
/-! SUPPORT. Every operation of Machine/Ops.lean keeps what Keeps says. -/

namespace Sys2Proof.Machine

theorem State.wrF_keeps {s0 s : State} (hk : Keeps s0 s) (n : RegName) (lo : Nat) (len : Nat) (v : Nat) (i : Nat) (j : Nat) : Keeps s0 (State.wrF s n lo len v i j) := by
  unfold State.wrF
  repeat' first
    | with_reducible assumption | with_reducible apply State.wr_keeps

theorem State.wrB_keeps {s0 s : State} (hk : Keeps s0 s) (n : RegName) (b : Nat) (v : Bool) (i : Nat) (j : Nat) : Keeps s0 (State.wrB s n b v i j) := by
  unfold State.wrB
  repeat' first
    | with_reducible assumption | with_reducible apply State.wrF_keeps

theorem State.setB_keeps {s0 s : State} (hk : Keeps s0 s) (n : RegName) (b : Nat) (i : Nat) : Keeps s0 (State.setB s n b i) := by
  unfold State.setB
  repeat' first
    | with_reducible assumption | with_reducible apply State.wrB_keeps

theorem State.clrB_keeps {s0 s : State} (hk : Keeps s0 s) (n : RegName) (b : Nat) (i : Nat) : Keeps s0 (State.clrB s n b i) := by
  unfold State.clrB
  repeat' first
    | with_reducible assumption | with_reducible apply State.wrB_keeps

theorem State.incErr_keeps {s0 s : State} (hk : Keeps s0 s) (n : RegName) (i : Nat) (k : Nat) : Keeps s0 (State.incErr s n i k) := by
  unfold State.incErr
  repeat' first
    | with_reducible assumption | with_reducible apply State.wr_keeps

theorem State.incEvt_keeps {s0 s : State} (hk : Keeps s0 s) (n : RegName) (i : Nat) (k : Nat) : Keeps s0 (State.incEvt s n i k) := by
  unfold State.incEvt
  repeat' first
    | with_reducible assumption | with_reducible apply State.wr_keeps

theorem State.putDigest_keeps {s0 s : State} (hk : Keeps s0 s) (n : RegName) (d : BitVec 384) : Keeps s0 (State.putDigest s n d) := by
  unfold State.putDigest
  repeat' first
    | with_reducible assumption | intro _ | with_reducible apply State.wr_keeps | with_reducible apply Keeps.foldl

theorem State.dropAcc_keeps {s0 s : State} (hk : Keeps s0 s) (names : List RegName) (i : Nat) : Keeps s0 (State.dropAcc s names i) := by
  unfold State.dropAcc
  repeat' first
    | with_reducible assumption | (intro v; clear_value v) | with_reducible refine KeepsMk.of ?_ | lift_lets -underBinder
    | simp -proj only [Keeps.mk_eq, TierSt.frames_mk]

theorem State.setMirPart_keeps {s0 s : State} (hk : Keeps s0 s) (p : Nat) (v : MirPart) : Keeps s0 (State.setMirPart s p v) := by
  unfold State.setMirPart
  repeat' first
    | with_reducible assumption | (intro v; clear_value v) | with_reducible refine KeepsMk.of ?_ | lift_lets -underBinder
    | simp -proj only [Keeps.mk_eq, TierSt.frames_mk]

theorem State.ldActive_keeps {s0 s : State} (hk : Keeps s0 s) (link : Nat) (ld : Nat) (on : Bool) : Keeps s0 (State.ldActive s link ld on) := by
  unfold State.ldActive
  repeat' first
    | with_reducible assumption | with_reducible apply State.setLd_keeps

theorem State.setMemActive_keeps {s0 s : State} (hk : Keeps s0 s) (p : Nat) (on : Bool) : Keeps s0 (State.setMemActive s p on) := by
  unfold State.setMemActive
  repeat' first
    | with_reducible assumption | intro _ | with_reducible apply State.ldActive_keeps | with_reducible apply State.setPart_keeps
    | with_reducible apply State.wrB_keeps | with_reducible apply Keeps.foldl | with_reducible apply Keeps.ite

theorem State.leaveL1_keeps {s0 s : State} (hk : Keeps s0 s) (link : Nat) : Keeps s0 (State.leaveL1 s link) := by
  unfold State.leaveL1
  repeat' first
    | with_reducible assumption | with_reducible apply State.setLink_keeps | with_reducible apply State.wrF_keeps | with_reducible apply Keeps.ite

theorem State.sendUp_keeps {s0 s : State} (hk : Keeps s0 s) (link : Nat) (o : Output) : Keeps s0 (State.sendUp s link o) := by
  unfold State.sendUp
  repeat' first
    | with_reducible assumption | with_reducible apply State.leaveL1_keeps | with_reducible apply State.send_keeps

theorem State.fpWait_keeps {s0 s : State} (hk : Keeps s0 s) (i : Instr) : Keeps s0 (State.fpWait s i) := by
  unfold State.fpWait
  repeat' first
    | with_reducible assumption | (intro v; clear_value v) | with_reducible refine KeepsMk.of ?_ | lift_lets -underBinder
    | simp -proj only [Keeps.mk_eq, TierSt.frames_mk]

theorem State.msix_keeps {s0 s : State} (hk : Keeps s0 s) (link : Nat) (ld : Nat) (vec : Nat) : Keeps s0 (State.msix s link ld vec) := by
  unfold State.msix
  repeat' first
    | with_reducible assumption | with_reducible apply State.sendUp_keeps | with_reducible apply State.setLd_keeps | with_reducible apply Keeps.ite

theorem State.logLd_keeps {s0 s : State} (hk : Keeps s0 s) (link : Nat) (ld : Nat) (r : EvRec) : Keeps s0 (State.logLd s link ld r) := by
  unfold State.logLd
  repeat' first
    | with_reducible assumption | with_reducible apply State.msix_keeps | with_reducible apply State.setLd_keeps | with_reducible apply Keeps.ite

theorem State.raise_keeps {s0 s : State} (hk : Keeps s0 s) (r : EvRec) : Keeps s0 (State.raise s r) := by
  unfold State.raise
  repeat' first
    | with_reducible assumption | (intro v; have hv : Keeps s0 v := ?_; clear_value v) | (intro v; clear_value v) | intro _
    | with_reducible apply State.logLd_keeps | with_reducible apply Keeps.foldl | with_reducible refine KeepsMk.of ?_ | lift_lets -underBinder
    | subst v | split | simp -proj only [Keeps.mk_eq, TierSt.frames_mk]

theorem State.event_keeps {s0 s : State} (hk : Keeps s0 s) (r : EvRec) (i : Nat) : Keeps s0 (State.event s r i) := by
  unfold State.event
  repeat' first
    | with_reducible assumption | with_reducible apply State.raise_keeps | with_reducible apply State.setB_keeps

theorem State.tiedMsix_keeps {s0 s : State} (hk : Keeps s0 s) (m : Option (Nat × Nat)) : Keeps s0 (State.tiedMsix s m) := by
  unfold State.tiedMsix
  repeat' first
    | with_reducible assumption | intro _ | with_reducible apply State.msix_keeps | with_reducible apply Keeps.foldl | with_reducible apply Keeps.ite
    | split

theorem State.raiseGathered_keeps {s0 s : State} (hk : Keeps s0 s) (kind : Nat) (key : Nat) (r : EvRec) (m : Option (Nat × Nat)) : Keeps s0 (State.raiseGathered s kind key r m) := by
  unfold State.raiseGathered
  repeat' first
    | with_reducible assumption | (intro v; have hv : Keeps s0 v := ?_; clear_value v) | (intro v; clear_value v)
    | with_reducible apply State.raise_keeps | with_reducible apply State.tiedMsix_keeps | with_reducible refine KeepsMk.of ?_
    | with_reducible apply Keeps.ite | lift_lets -underBinder | subst v | split | simp -proj only [Keeps.mk_eq, TierSt.frames_mk]

theorem State.gatherEnd_keeps {s0 s : State} (hk : Keeps s0 s) (kind : Nat) (key : Nat) : Keeps s0 (State.gatherEnd s kind key) := by
  unfold State.gatherEnd
  repeat' first
    | with_reducible assumption | (intro v; have hv : Keeps s0 v := ?_; clear_value v) | (intro v; clear_value v)
    | with_reducible apply State.raise_keeps | with_reducible apply State.reach_keeps | with_reducible apply State.tiedMsix_keeps
    | with_reducible refine KeepsMk.of ?_ | lift_lets -underBinder | split | simp -proj only [Keeps.mk_eq, TierSt.frames_mk]

end Sys2Proof.Machine
end

