-- ==== Sys2Proof/Laws/KeepsRegulate.lean ====
section
/-! SUPPORT. Every operation of Machine/Regulate.lean keeps what Keeps says. -/

namespace Sys2Proof.Machine

theorem State.charge_keeps {s0 s : State} (hk : Keeps s0 s) (p : Nat) (side : Nat) (cls : Nat) (level : Nat) (cost : Nat) : Keeps s0 (State.charge s p side cls level cost) := by
  unfold State.charge
  repeat' first
    | with_reducible assumption | (intro v; have hv : Keeps s0 v := ?_; clear_value v) | (intro v; clear_value v) | intro _
    | with_reducible apply State.clrB_keeps | with_reducible apply State.incEvt_keeps | with_reducible apply State.setB_keeps
    | with_reducible refine KeepsMk.of ?_ | with_reducible apply Keeps.ite | lift_lets -underBinder | subst v | dsimp -zeta only | split
    | simp -proj only [Keeps.mk_eq, TierSt.frames_mk]

theorem State.atLevel_keeps {s0 s : State} (hk : Keeps s0 s) (l : Nat) : Keeps s0 (State.atLevel s l) := by
  unfold State.atLevel
  repeat' first
    | with_reducible assumption | (intro v; clear_value v) | with_reducible refine KeepsMk.of ?_ | lift_lets -underBinder
    | simp -proj only [Keeps.mk_eq, TierSt.frames_mk]

theorem State.bgPipe_keeps {s0 s : State} (hk : Keeps s0 s) (key : Nat) (rate : Nat) (bytes : Nat) : Keeps s0 (State.bgPipe s key rate bytes) := by
  unfold State.bgPipe
  repeat' first
    | with_reducible assumption | (intro v; have hv : Keeps s0 v := ?_; clear_value v) | (intro v; clear_value v)
    | with_reducible apply State.reach_keeps | with_reducible refine KeepsMk.of ?_ | lift_lets -underBinder
    | simp -proj only [Keeps.mk_eq, TierSt.frames_mk]

theorem State.background_keeps {s0 s : State} (hk : Keeps s0 s) (h : Nat) (kind : Nat) (cap : Nat) (bytes : Nat) : Keeps s0 (State.background s h kind cap bytes) := by
  unfold State.background
  repeat' first
    | with_reducible assumption | (intro v; have hv : Keeps s0 v := ?_; clear_value v) | (intro v; clear_value v)
    | with_reducible apply State.bgPipe_keeps | with_reducible refine KeepsMk.of ?_ | with_reducible apply Keeps.ite | lift_lets -underBinder
    | simp -proj only [Keeps.mk_eq, TierSt.frames_mk]

theorem State.boundsUpdate_keeps {s0 s : State} (hk : Keeps s0 s)  : Keeps s0 (State.boundsUpdate s) := by
  unfold State.boundsUpdate
  repeat' first
    | with_reducible assumption | with_reducible apply State.setB_keeps | with_reducible apply State.wrB_keeps | with_reducible apply Keeps.ite

end Sys2Proof.Machine
end

