-- ==== Sys2Proof/Laws/KeepsPool.lean ====
section
/-! SUPPORT. Every operation of Machine/Pool.lean keeps what Keeps says. -/

namespace Sys2Proof.Machine

theorem State.refreshPush_keeps {s0 s : State} (hk : Keeps s0 s) (k : Nat) (bank : Nat) : Keeps s0 (State.refreshPush s k bank) := by
  unfold State.refreshPush
  repeat' first
    | with_reducible assumption | (intro v; clear_value v) | with_reducible refine KeepsMk.of ?_ | lift_lets -underBinder
    | simp -proj only [Keeps.mk_eq, TierSt.frames_mk]

theorem State.rhCrossing_keeps {s0 s : State} (hk : Keeps s0 s) (x : Place) (loc : Nat) (lead : Nat) : Keeps s0 (State.rhCrossing s x loc lead) := by
  unfold State.rhCrossing
  repeat' first
    | with_reducible assumption | (intro v; clear_value v) | with_reducible apply State.event_keeps | with_reducible apply State.incEvt_keeps
    | with_reducible apply State.refreshPush_keeps | with_reducible apply State.wr_keeps | with_reducible apply State.wrB_keeps
    | with_reducible refine KeepsMk.of ?_ | with_reducible apply Keeps.ite | lift_lets -underBinder | simp -proj only [Keeps.mk_eq, TierSt.frames_mk]

theorem State.activate_keeps {s0 s : State} (hk : Keeps s0 s) (req : Nat) (x : Place) : Keeps s0 (State.activate s req x) := by
  unfold State.activate
  repeat' first
    | with_reducible assumption | (intro v; clear_value v) | with_reducible apply State.rhCrossing_keeps | with_reducible refine KeepsMk.of ?_
    | with_reducible apply Keeps.ite | lift_lets -underBinder | split | simp -proj only [Keeps.mk_eq, TierSt.frames_mk]

theorem State.throttleWait_keeps {s0 s : State} (hk : Keeps s0 s) (k : Nat) (req : Nat) : Keeps s0 (State.throttleWait s k req) := by
  unfold State.throttleWait
  repeat' first
    | with_reducible assumption | (intro v; have hv : Keeps s0 v := ?_; clear_value v) | (intro v; clear_value v)
    | with_reducible apply State.reach_keeps | with_reducible refine KeepsMk.of ?_ | with_reducible apply Keeps.ite | lift_lets -underBinder | subst v
    | split | simp -proj only [Keeps.mk_eq, TierSt.frames_mk]

theorem State.ctrlServe_keeps {s0 s : State} (hk : Keeps s0 s) (k : Nat) (a : Nat) : Keeps s0 (State.ctrlServe s k a) := by
  induction a generalizing s k with
  | zero =>
    unfold State.ctrlServe
    repeat' first
    | with_reducible assumption
  | succ a ih =>
    unfold State.ctrlServe
    repeat' first
    | with_reducible assumption | (intro v; clear_value v) | with_reducible apply ih | with_reducible apply State.activate_keeps
    | with_reducible apply State.throttleWait_keeps | with_reducible refine KeepsMk.of ?_ | with_reducible apply Keeps.ite | lift_lets -underBinder
    | dsimp -zeta only | split | simp -proj only [Keeps.mk_eq, TierSt.frames_mk]

theorem State.ctrlDrain_keeps {s0 s : State} (hk : Keeps s0 s) (k : Nat) : Keeps s0 (State.ctrlDrain s k) := by
  unfold State.ctrlDrain
  repeat' first
    | with_reducible assumption | (intro v; have hv : Keeps s0 v := ?_; clear_value v) | (intro v; clear_value v)
    | with_reducible apply State.ctrlServe_keeps | with_reducible refine KeepsMk.of ?_ | lift_lets -underBinder
    | simp -proj only [Keeps.mk_eq, TierSt.frames_mk]

theorem State.ctrlPush_keeps {s0 s : State} (hk : Keeps s0 s) (req : Nat) (x : Place) : Keeps s0 (State.ctrlPush s req x) := by
  unfold State.ctrlPush
  repeat' first
    | with_reducible assumption | (intro v; clear_value v) | with_reducible refine KeepsMk.of ?_ | lift_lets -underBinder | dsimp -zeta only
    | simp -proj only [Keeps.mk_eq, TierSt.frames_mk]

theorem State.activateAll_keeps {s0 s : State} (hk : Keeps s0 s) (req : Nat) (l : List Place) : Keeps s0 (State.activateAll s req l) := by
  unfold State.activateAll
  repeat' first
    | with_reducible assumption | intro _ | with_reducible apply State.ctrlDrain_keeps | with_reducible apply State.ctrlPush_keeps
    | with_reducible apply Keeps.foldl

theorem State.activateReads_keeps {s0 s : State} (hk : Keeps s0 s) (req : Nat) (t : Nat) (l : List Nat) : Keeps s0 (State.activateReads s req t l) := by
  unfold State.activateReads
  repeat' first
    | with_reducible assumption | with_reducible apply State.activateAll_keeps | with_reducible apply Keeps.ite

theorem State.activateWrites_keeps {s0 s : State} (hk : Keeps s0 s) (req : Nat) (t : Nat) (l : List Nat) : Keeps s0 (State.activateWrites s req t l) := by
  unfold State.activateWrites
  repeat' first
    | with_reducible assumption | with_reducible apply State.activateAll_keeps | with_reducible apply Keeps.ite

theorem State.storeLines_keeps {s0 s : State} (hk : Keeps s0 s) (p : Nat) (f : Nat) (t : Nat) (sectors : List Nat) : Keeps s0 (State.storeLines s p f t sectors) := by
  unfold State.storeLines
  repeat' first
    | with_reducible assumption | (intro v; clear_value v) | intro _ | with_reducible apply Keeps.foldl | with_reducible refine KeepsMk.of ?_
    | with_reducible apply Keeps.ite | lift_lets -underBinder | split | simp -proj only [Keeps.mk_eq, TierSt.frames_mk]

theorem State.newBase_keeps {s0 s : State} (hk : Keeps s0 s) (t half n : Nat) : Keeps s0 (State.newBase s t half n).2 := by
  unfold State.newBase
  dsimp only
  repeat' split
  all_goals exact State.nextFree_keeps hk

end Sys2Proof.Machine
end

