-- ==== Sys2Proof/Laws/KeepsShip.lean ====
section
/-! SUPPORT. Every operation of Machine/Ship.lean keeps what Keeps says. -/

namespace Sys2Proof.Machine

theorem State.shipRec_keeps {s0 s : State} (hk : Keeps s0 s) (p : Nat) (h : Nat) (r : MirRec) : Keeps s0 (State.shipRec s p h r) := by
  unfold State.shipRec
  repeat' first
    | with_reducible assumption | with_reducible apply State.setMirPart_keeps

theorem State.shipFrame_keeps {s0 s : State} (hk : Keeps s0 s) (p : Nat) (f : Nat) (r : MirRec) : Keeps s0 (State.shipFrame s p f r) := by
  unfold State.shipFrame
  repeat' first
    | with_reducible assumption | with_reducible apply State.shipRec_keeps | with_reducible apply Keeps.ite

theorem State.shipMap_keeps {s0 s : State} (hk : Keeps s0 s) (p : Nat) (f : Nat) (pin : Nat) (lost : List Nat) (add : List (Nat × Nat)) (del : List (Nat × Nat)) (clear : Bool) : Keeps s0 (State.shipMap s p f pin lost add del clear) := by
  unfold State.shipMap
  repeat' first
    | with_reducible assumption | with_reducible apply State.shipFrame_keeps

theorem State.addPoison_keeps {s0 s : State} (hk : Keeps s0 s) (p : Nat) (addr : Nat) (len : Nat) : Keeps s0 (State.addPoison s p addr len) := by
  unfold State.addPoison
  repeat' first
    | with_reducible assumption | with_reducible apply State.setB_keeps | with_reducible apply State.setPart_keeps
    | with_reducible apply State.shipMap_keeps | with_reducible apply Keeps.ite

theorem State.dropPoison_keeps {s0 s : State} (hk : Keeps s0 s) (p : Nat) (f : PoisonEnt → Bool) : Keeps s0 (State.dropPoison s p f) := by
  unfold State.dropPoison
  repeat' first
    | with_reducible assumption | intro _ | with_reducible apply State.clrB_keeps | with_reducible apply State.setPart_keeps
    | with_reducible apply State.shipMap_keeps | with_reducible apply Keeps.foldl | with_reducible apply Keeps.ite

theorem State.addPoisonPage_keeps {s0 s : State} (hk : Keeps s0 s) (p : Nat) (page : Nat) : Keeps s0 (State.addPoisonPage s p page) := by
  unfold State.addPoisonPage
  repeat' first
    | with_reducible assumption | with_reducible apply State.addPoison_keeps

end Sys2Proof.Machine
end

