-- ==== Sys2Proof/Laws/KeepsFtl.lean ====
section
/-! SUPPORT. Every operation of Machine/Ftl.lean keeps what Keeps says. -/

namespace Sys2Proof.Machine

theorem State.nandBegin_keeps {s0 s : State} (hk : Keeps s0 s) (lun : Nat) (erase : Bool) : Keeps s0 (State.nandBegin s lun erase) := by
  unfold State.nandBegin
  repeat' first
    | with_reducible assumption | (intro v; clear_value v) | with_reducible apply State.nextFree_keeps | with_reducible refine KeepsMk.of ?_
    | lift_lets -underBinder | dsimp -zeta only | simp -proj only [Keeps.mk_eq, TierSt.frames_mk]

theorem State.nandSuspend_keeps {s0 s : State} (hk : Keeps s0 s) (lun : Nat) : Keeps s0 (State.nandSuspend s lun) := by
  unfold State.nandSuspend
  repeat' first
    | with_reducible assumption | (intro v; clear_value v) | with_reducible refine KeepsMk.of ?_ | lift_lets -underBinder
    | simp -proj only [Keeps.mk_eq, TierSt.frames_mk]

theorem State.nandResume_keeps {s0 s : State} (hk : Keeps s0 s) (lun : optParam (Option Nat) Option.none) : Keeps s0 (State.nandResume s lun) := by
  unfold State.nandResume
  repeat' first
    | with_reducible assumption | (intro v; clear_value v) | with_reducible refine KeepsMk.of ?_ | lift_lets -underBinder
    | simp -proj only [Keeps.mk_eq, TierSt.frames_mk]

theorem State.programStripe_keeps {s0 s : State} (hk : Keeps s0 s) (units : List (Nat × Nat × Nat)) : Keeps s0 (State.programStripe s units) := by
  unfold State.programStripe
  repeat' first
    | with_reducible assumption | (intro v; clear_value v) | intro _ | with_reducible apply State.nandBegin_keeps
    | with_reducible apply State.nextFree_keeps | with_reducible apply State.setFrame_keeps | with_reducible apply Keeps.foldl
    | with_reducible refine KeepsMk.of ?_ | lift_lets -underBinder | simp -proj only [Keeps.mk_eq, TierSt.frames_mk]

theorem State.program_keeps {s0 s : State} (hk : Keeps s0 s) (units : List (Nat × Nat × Nat)) (a : Nat) : Keeps s0 (State.program s units a) := by
  induction a generalizing s units with
  | zero =>
    unfold State.program
    repeat' first
    | with_reducible assumption
  | succ a ih =>
    unfold State.program
    repeat' first
    | with_reducible assumption | with_reducible apply ih | with_reducible apply State.programStripe_keeps | with_reducible apply Keeps.ite

theorem State.rewriteStripes_keeps {s0 s : State} (hk : Keeps s0 s) (l : List Nat) : Keeps s0 (State.rewriteStripes s l) := by
  unfold State.rewriteStripes
  repeat' first
    | with_reducible assumption | with_reducible apply State.program_keeps

theorem State.keySweep_keeps {s0 s : State} (hk : Keeps s0 s) (p : Nat) : Keeps s0 (State.keySweep s p) := by
  unfold State.keySweep
  repeat' first
    | with_reducible assumption | (intro v; clear_value v) | with_reducible refine KeepsMk.of ?_ | with_reducible apply Keeps.ite
    | lift_lets -underBinder | simp -proj only [Keeps.mk_eq, TierSt.frames_mk]

theorem State.rekey_keeps {s0 s : State} (hk : Keeps s0 s) (p : Nat) (n : Nat) : Keeps s0 (State.rekey s p n) := by
  unfold State.rekey
  repeat' first
    | with_reducible assumption | with_reducible apply State.keySweep_keeps | with_reducible apply State.program_keeps

theorem State.freshKey_keeps {s0 s : State} (hk : Keeps s0 s) : Keeps s0 (State.freshKey s).2 :=
  hk.trans ⟨rfl, le_refl _, List.prefix_rfl, Nat.le_add_right _ _, fun c => { c with }⟩

theorem State.programRun_keeps {s0 s : State} (hk : Keeps s0 s) (p : Nat) (f : Nat) (sectors : List Nat) : Keeps s0 (State.programRun s p f sectors) := by
  unfold State.programRun
  repeat' first
    | with_reducible assumption | with_reducible apply State.keySweep_keeps | with_reducible apply State.program_keeps
    | with_reducible apply State.setFrame_keeps | with_reducible apply Keeps.ite

theorem State.loseMembers_keeps {s0 s : State} (hk : Keeps s0 s) (b : Nat) : Keeps s0 (State.loseMembers s b) := by
  unfold State.loseMembers
  repeat' first
    | with_reducible assumption | (intro v; clear_value v) | with_reducible refine KeepsMk.of ?_ | lift_lets -underBinder
    | simp -proj only [Keeps.mk_eq, TierSt.frames_mk]

theorem State.rebuildMembers_keeps {s0 s : State} (hk : Keeps s0 s) (b : Nat) (l : List Nat) : Keeps s0 (State.rebuildMembers s b l) := by
  unfold State.rebuildMembers
  repeat' first
    | with_reducible assumption | (intro v; clear_value v) | intro _ | with_reducible apply State.nandBegin_keeps
    | with_reducible apply State.nextFree_keeps | with_reducible apply Keeps.foldl | with_reducible refine KeepsMk.of ?_ | lift_lets -underBinder
    | dsimp -zeta only | split | simp -proj only [Keeps.mk_eq, TierSt.frames_mk]

theorem State.flashRead_keeps {s0 s : State} (hk : Keeps s0 s) (p : Nat) (page : Nat) (sectors : List Nat) : Keeps s0 (State.flashRead s p page sectors) := by
  unfold State.flashRead
  repeat' first
    | with_reducible assumption | (intro v; clear_value v) | intro _ | with_reducible apply State.nandSuspend_keeps | with_reducible apply Keeps.foldl
    | with_reducible refine KeepsMk.of ?_ | with_reducible apply Keeps.ite | lift_lets -underBinder | simp -proj only [Keeps.mk_eq, TierSt.frames_mk]

theorem State.flashReadEnd_keeps {s0 s : State} (hk : Keeps s0 s) (f : NandRead → Bool) : Keeps s0 (State.flashReadEnd s f) := by
  unfold State.flashReadEnd
  repeat' first
    | with_reducible assumption | (intro v; clear_value v) | with_reducible apply State.nandResume_keeps | with_reducible refine KeepsMk.of ?_
    | lift_lets -underBinder | simp -proj only [Keeps.mk_eq, TierSt.frames_mk]

end Sys2Proof.Machine
end

