-- ==== Sys2Proof/Laws/KeepsStored.lean ====
section
/-! SUPPORT. Every operation of Machine/Stored.lean keeps what Keeps says. -/

namespace Sys2Proof.Machine

theorem State.flipDone_keeps {s0 s : State} (hk : Keeps s0 s) (n : RegName) (i : Nat) (kind : Nat) (off : Nat) (req : Nat) : Keeps s0 (State.flipDone s n i kind off req) := by
  unfold State.flipDone
  repeat' first
    | with_reducible assumption | with_reducible apply State.setB_keeps | with_reducible apply State.wr_keeps | with_reducible apply State.wrB_keeps

theorem State.flipLens_keeps {s0 s : State} (hk : Keeps s0 s) (unit : Nat) (req : Nat) (len : Nat) : Keeps s0 (State.flipLens s unit req len).1 := by
  unfold State.flipLens
  repeat' first
    | with_reducible assumption | with_reducible apply State.flipDone_keeps | with_reducible apply Keeps.ite_fst

theorem State.flipNand_keeps {s0 s : State} (hk : Keeps s0 s) (p : Nat) (f : Nat) (e : FrameSt) (c : Copy) (req : Nat) (sectors : List Nat) : Keeps s0 (State.flipNand s p f e c req sectors).1 := by
  unfold State.flipNand
  repeat' first
    | with_reducible assumption | intro _ | with_reducible apply State.flipDone_keeps | with_reducible apply State.nextFree_keeps
    | with_reducible apply Keeps.foldl_fst | with_reducible apply Keeps.ite_fst

theorem State.flipWrites_keeps {s0 s : State} (hk : Keeps s0 s) (c : Copy) (lens : List Nat) (req : Nat) (sectors : List Nat) : Keeps s0 (State.flipWrites s c lens req sectors).1 := by
  unfold State.flipWrites
  repeat' first
    | with_reducible assumption | intro _ | with_reducible apply State.flipDone_keeps | with_reducible apply Keeps.foldl_fst
    | with_reducible apply Keeps.ite_fst

theorem State.storeHome_keeps {s0 s : State} (hk : Keeps s0 s) (p : Nat) (f : Nat) (req : Nat) (sectors : List Nat) : Keeps s0 (State.storeHome s p f req sectors).1 := by
  unfold State.storeHome
  repeat' first
    | with_reducible assumption | with_reducible apply State.activateWrites_keeps | with_reducible apply State.flipNand_keeps
    | with_reducible apply State.flipWrites_keeps | with_reducible apply State.programRun_keeps | with_reducible apply State.storeLines_keeps
    | with_reducible apply Keeps.ite_fst

theorem State.readStored_keeps {s0 s : State} (hk : Keeps s0 s) (req : Nat) (c : Copy) (k : Nat) (len : Nat) (e : List ErrByte) (recover : Bool) : Keeps s0 (State.readStored s req c k len e recover).1 := by
  unfold State.readStored
  repeat' first
    | with_reducible assumption | intro _ | with_reducible apply State.activateReads_keeps | with_reducible apply State.incErr_keeps
    | with_reducible apply Keeps.foldl | with_reducible apply Keeps.ite

end Sys2Proof.Machine
end

