-- ==== Sys2Proof/Laws/KeepsChannels.lean ====
section
/-! SUPPORT. Every operation of Machine/Channels.lean keeps what Keeps says. -/

namespace Sys2Proof.Machine

theorem State.hintDeclined_keeps {s0 s : State} (hk : Keeps s0 s) (h : Option (Nat × Nat)) : Keeps s0 (State.hintDeclined s h) := by
  unfold State.hintDeclined
  repeat' first
    | with_reducible assumption | (intro v; have hv : TierSt := v; clear hv; subst v) | with_reducible refine KeepsMk.of ?_ | lift_lets -underBinder
    | split | simp -proj only [Keeps.mk_eq, TierSt.frames_mk]

theorem State.enqueue_keeps {s0 s : State} (hk : Keeps s0 s) (m : Move) : Keeps s0 (State.enqueue s m) := by
  unfold State.enqueue
  repeat' first
    | with_reducible assumption | (intro v; have hv : TierSt := v; clear hv; subst v) | with_reducible apply State.hintDeclined_keeps
    | with_reducible refine KeepsMk.of ?_ | with_reducible apply Keeps.ite | lift_lets -underBinder | split
    | simp -proj only [Keeps.mk_eq, TierSt.frames_mk]

theorem State.dropMove_keeps {s0 s : State} (hk : Keeps s0 s) (p : Nat) (f : Nat) (running : Bool) : Keeps s0 (State.dropMove s p f running) := by
  unfold State.dropMove
  repeat' first
    | with_reducible assumption | (intro v; have hv : TierSt := v; clear hv; subst v) | with_reducible refine KeepsMk.of ?_ | lift_lets -underBinder
    | simp -proj only [Keeps.mk_eq, TierSt.frames_mk]

theorem State.evacuateRuns_keeps {s0 s : State} (hk : Keeps s0 s) (t : Nat) (half : Nat) (sel : FrameSt → Bool) : Keeps s0 (State.evacuateRuns s t half sel) := by
  unfold State.evacuateRuns
  repeat' first
    | with_reducible assumption | intro _ | with_reducible apply State.enqueue_keeps | with_reducible apply Keeps.foldl
    | with_reducible apply Keeps.ite

theorem State.dropReplica_keeps {s0 s : State} (hk : Keeps s0 s) (p : Nat) (f : Nat) : Keeps s0 (State.dropReplica s p f) := by
  unfold State.dropReplica
  repeat' first
    | with_reducible assumption | with_reducible apply State.setFrame_keeps

theorem State.evacuateRepl_keeps {s0 s : State} (hk : Keeps s0 s) (t : Nat) (half : Nat) : Keeps s0 (State.evacuateRepl s t half) := by
  unfold State.evacuateRepl
  repeat' first
    | with_reducible assumption | intro _ | with_reducible apply State.dropReplica_keeps | with_reducible apply State.enqueue_keeps
    | with_reducible apply Keeps.foldl | with_reducible apply Keeps.ite

theorem State.rebuildStart_keeps {s0 s : State} (hk : Keeps s0 s) (h : Nat) : Keeps s0 (State.rebuildStart s h) := by
  unfold State.rebuildStart
  repeat' first
    | with_reducible assumption | (intro v; clear_value v) | with_reducible apply State.clrB_keeps | with_reducible apply State.setB_keeps
    | with_reducible apply State.wr_keeps | with_reducible apply State.wrB_keeps | with_reducible apply State.wrF_keeps
    | with_reducible refine KeepsMk.of ?_ | with_reducible apply Keeps.ite | lift_lets -underBinder | split
    | simp -proj only [Keeps.mk_eq, TierSt.frames_mk]

theorem State.rebuildStripe_keeps {s0 s : State} (hk : Keeps s0 s) (h : Nat) : Keeps s0 (State.rebuildStripe s h) := by
  unfold State.rebuildStripe
  repeat' first
    | with_reducible assumption | with_reducible apply State.background_keeps | with_reducible apply State.wr_keeps | with_reducible apply Keeps.ite

theorem State.idle_keeps {s0 s : State} (hk : Keeps s0 s) : Keeps s0 (State.idle s) := by
  unfold State.idle
  refine State.rebuildStripe_keeps (State.rebuildStripe_keeps ?_ _) _
  exact hk.trans ⟨rfl, Nat.le_succ _, List.prefix_rfl, le_refl _, fun c => { c with }⟩

theorem State.mapLost_keeps {s0 s : State} (hk : Keeps s0 s) (g : Nat) (lo : Nat) : Keeps s0 (State.mapLost s g lo) := by
  unfold State.mapLost
  repeat' first
    | with_reducible assumption | intro _ | with_reducible apply State.setFrame_keeps | with_reducible apply Keeps.foldl
    | with_reducible apply Keeps.ite

theorem State.channelOut_keeps {s0 s : State} (hk : Keeps s0 s) (c : Nat) (st : Nat) : Keeps s0 (State.channelOut s c st) := by
  unfold State.channelOut
  repeat' first
    | with_reducible assumption | (intro v; clear_value v) | with_reducible apply State.clrB_keeps | with_reducible apply State.evacuateRuns_keeps
    | with_reducible apply State.event_keeps | with_reducible apply State.mapLost_keeps | with_reducible apply State.rebuildStart_keeps
    | with_reducible apply State.wrF_keeps | with_reducible refine KeepsMk.of ?_ | with_reducible apply Keeps.ite | lift_lets -underBinder | split
    | simp -proj only [Keeps.mk_eq, TierSt.frames_mk]

theorem State.cacheLost_keeps {s0 s : State} (hk : Keeps s0 s) (h : Nat) (k : Nat) : Keeps s0 (State.cacheLost s h k) := by
  unfold State.cacheLost
  repeat' first
    | with_reducible assumption | (intro v; have hv : Keeps s0 v := ?_; clear_value v) | (intro v; have hv : TierSt := v; clear hv; subst v)
    | (intro v; clear_value v) | intro _ | with_reducible apply State.setFrame_keeps | with_reducible apply Keeps.foldl
    | with_reducible refine KeepsMk.of ?_ | with_reducible apply Keeps.ite | lift_lets -underBinder | simp -proj only [Keeps.mk_eq, TierSt.frames_mk]

theorem State.stackDown_keeps {s0 s : State} (hk : Keeps s0 s) (k : Nat) (st : Nat) : Keeps s0 (State.stackDown s k st) := by
  unfold State.stackDown
  repeat' first
    | with_reducible assumption | with_reducible apply State.cacheLost_keeps | with_reducible apply State.evacuateRepl_keeps
    | with_reducible apply State.evacuateRuns_keeps | with_reducible apply State.event_keeps | with_reducible apply State.wrF_keeps
    | with_reducible apply Keeps.ite

theorem State.saveLanes_keeps {s0 s : State} (hk : Keeps s0 s) (k : Nat) : Keeps s0 (State.saveLanes s k) := by
  unfold State.saveLanes
  repeat' first
    | with_reducible assumption | (intro v; clear_value v) | with_reducible apply State.nextFree_keeps | with_reducible refine KeepsMk.of ?_
    | lift_lets -underBinder | dsimp -zeta only | simp -proj only [Keeps.mk_eq, TierSt.frames_mk]

theorem State.ctrlExpiry_keeps {s0 s : State} (hk : Keeps s0 s) (m : MemCtrl) : Keeps s0 (State.ctrlExpiry s m) := by
  unfold State.ctrlExpiry
  repeat' first
    | with_reducible assumption | (intro v; clear_value v) | with_reducible apply State.channelOut_keeps | with_reducible apply State.stackDown_keeps
    | with_reducible refine KeepsMk.of ?_ | with_reducible apply Keeps.ite | lift_lets -underBinder | dsimp -zeta only | split
    | simp -proj only [Keeps.mk_eq, TierSt.frames_mk]

theorem State.hardFault_keeps {s0 s : State} (hk : Keeps s0 s) (p : Nat) (f : Nat) (x : Place) (recon : Bool) : Keeps s0 (State.hardFault s p f x recon).1 := by
  unfold State.hardFault
  repeat' first
    | with_reducible assumption | (intro v; clear_value v) | with_reducible apply State.channelOut_keeps | with_reducible apply State.enqueue_keeps
    | with_reducible apply State.event_keeps | with_reducible apply State.incErr_keeps | with_reducible apply State.setB_keeps
    | with_reducible apply State.stackDown_keeps | with_reducible apply State.wr_keeps | with_reducible apply State.wrB_keeps
    | with_reducible apply State.wrF_keeps | with_reducible refine KeepsMk.of ?_ | with_reducible apply Keeps.ite | with_reducible apply Keeps.ite_fst
    | lift_lets -underBinder | simp -proj only [Keeps.mk_eq, TierSt.frames_mk]

end Sys2Proof.Machine
end

