-- ==== Sys2Proof/Laws/KeepsSlots.lean ====
section
/-! SUPPORT. Every operation of Machine/Slots.lean keeps what Keeps says. -/

namespace Sys2Proof.Machine

theorem State.setSlot_keeps {s0 s : State} (hk : Keeps s0 s) (v : SlotSt) : Keeps s0 (State.setSlot s v) := by
  unfold State.setSlot
  repeat' first
    | with_reducible assumption | (intro v; clear_value v) | with_reducible refine KeepsMk.of ?_ | lift_lets -underBinder
    | simp -proj only [Keeps.mk_eq, TierSt.frames_mk]

theorem State.freeSlot_keeps {s0 s : State} (hk : Keeps s0 s) (p : Nat) (page : Nat) : Keeps s0 (State.freeSlot s p page) := by
  unfold State.freeSlot
  repeat' first
    | with_reducible assumption | (intro v; have hv : Keeps s0 v := ?_; clear_value v) | (intro v; clear_value v)
    | with_reducible apply State.clrB_keeps | with_reducible refine KeepsMk.of ?_ | with_reducible apply Keeps.ite | lift_lets -underBinder | subst v
    | split | simp -proj only [Keeps.mk_eq, TierSt.frames_mk]

theorem State.sealSlot_keeps {s0 s : State} (hk : Keeps s0 s) (x : SlotSt) : Keeps s0 (State.sealSlot s x) := by
  unfold State.sealSlot
  repeat' first
    | with_reducible assumption | with_reducible apply State.setSlot_keeps

theorem State.sealOldest_keeps {s0 s : State} (hk : Keeps s0 s) (f : SlotSt → Bool) : Keeps s0 (State.sealOldest s f) := by
  unfold State.sealOldest
  repeat' first
    | with_reducible assumption | with_reducible apply State.sealSlot_keeps | split

theorem State.pressure_keeps {s0 s : State} (hk : Keeps s0 s) (h : Nat) (z_ : Nat) : Keeps s0 (State.pressure s h z_) := by
  induction z_ generalizing s h with
  | zero =>
    unfold State.pressure
    repeat' first
    | with_reducible assumption
  | succ z_ ih =>
    unfold State.pressure
    repeat' first
    | with_reducible assumption | (intro v; clear_value v) | with_reducible apply ih | with_reducible apply State.sealOldest_keeps
    | with_reducible apply State.setB_keeps | with_reducible refine KeepsMk.of ?_ | with_reducible apply Keeps.ite | lift_lets -underBinder | split
    | simp -proj only [Keeps.mk_eq, TierSt.frames_mk]

theorem State.checkPressure_keeps {s0 s : State} (hk : Keeps s0 s) (h : Nat) : Keeps s0 (State.checkPressure s h) := by
  unfold State.checkPressure
  repeat' first
    | with_reducible assumption | with_reducible apply State.pressure_keeps | with_reducible apply Keeps.ite

theorem State.storeGone_keeps {s0 s : State} (hk : Keeps s0 s) (who : Holder) : Keeps s0 (State.storeGone s who) := by
  unfold State.storeGone
  repeat' first
    | with_reducible assumption | (intro v; clear_value v) | with_reducible refine KeepsMk.of ?_ | lift_lets -underBinder
    | simp -proj only [Keeps.mk_eq, TierSt.frames_mk]

theorem State.storeHeld_keeps {s0 s : State} (hk : Keeps s0 s) (who : Holder) (p : Nat) (page : Nat) : Keeps s0 (State.storeHeld s who p page) := by
  unfold State.storeHeld
  repeat' first
    | with_reducible assumption | (intro v; clear_value v) | with_reducible apply State.incEvt_keeps | with_reducible apply State.storeGone_keeps
    | with_reducible refine KeepsMk.of ?_ | with_reducible apply Keeps.ite | lift_lets -underBinder | simp -proj only [Keeps.mk_eq, TierSt.frames_mk]

theorem State.openSlot_keeps {s0 s : State} (hk : Keeps s0 s) (p : Nat) (page : Nat) (req : Nat) (level : Nat) : Keeps s0 (State.openSlot s p page req level) := by
  unfold State.openSlot
  repeat' first
    | with_reducible assumption | (intro v; clear_value v) | with_reducible apply State.checkPressure_keeps | with_reducible refine KeepsMk.of ?_
    | lift_lets -underBinder | dsimp -zeta only | split | simp -proj only [Keeps.mk_eq, TierSt.frames_mk]

theorem State.checkDebt_keeps {s0 s : State} (hk : Keeps s0 s) (p : Nat) : Keeps s0 (State.checkDebt s p) := by
  unfold State.checkDebt
  repeat' first
    | with_reducible assumption | intro _ | with_reducible apply State.event_keeps | with_reducible apply State.setPart_keeps
    | with_reducible apply Keeps.foldl | with_reducible apply Keeps.ite

theorem State.rebuildEntry_keeps {s0 s : State} (hk : Keeps s0 s) (p : Nat) (f : Nat) : Keeps s0 (State.rebuildEntry s p f) := by
  unfold State.rebuildEntry
  repeat' first
    | with_reducible assumption | (intro v; have hv : TierSt := v; clear hv; subst v) | intro _ | with_reducible apply State.addPoisonPage_keeps
    | with_reducible apply State.checkDebt_keeps | with_reducible apply State.event_keeps | with_reducible apply State.setFrame_keeps
    | with_reducible apply State.shipMap_keeps | with_reducible apply Keeps.foldl | with_reducible refine KeepsMk.of ?_
    | with_reducible apply Keeps.ite | lift_lets -underBinder | split | simp -proj only [Keeps.mk_eq, TierSt.frames_mk]

theorem State.mapAccess_keeps {s0 s : State} (hk : Keeps s0 s) (p : Nat) (f : Nat) : Keeps s0 (State.mapAccess s p f) := by
  unfold State.mapAccess
  repeat' first
    | with_reducible assumption | (intro v; have hv : TierSt := v; clear hv; subst v) | with_reducible apply State.incErr_keeps
    | with_reducible apply State.rebuildEntry_keeps | with_reducible apply State.setFrame_keeps | with_reducible refine KeepsMk.of ?_
    | with_reducible apply Keeps.ite | lift_lets -underBinder | split | simp -proj only [Keeps.mk_eq, TierSt.frames_mk]

theorem State.touch_keeps {s0 s : State} (hk : Keeps s0 s) (p : Nat) (page : Nat) : Keeps s0 (State.touch s p page) := by
  unfold State.touch
  repeat' first
    | with_reducible assumption | with_reducible apply State.setFrame_keeps | with_reducible apply Keeps.ite

theorem State.hubDecode_keeps {s0 s : State} (hk : Keeps s0 s) (h : Nat) (err : Bool) : Keeps s0 (State.hubDecode s h err) := by
  unfold State.hubDecode
  repeat' first
    | with_reducible assumption | (intro v; clear_value v) | with_reducible apply State.incErr_keeps | with_reducible apply State.incEvt_keeps
    | with_reducible apply State.setB_keeps | with_reducible refine KeepsMk.of ?_ | with_reducible apply Keeps.ite | lift_lets -underBinder
    | simp -proj only [Keeps.mk_eq, TierSt.frames_mk]

theorem State.countUncorr_keeps {s0 s : State} (hk : Keeps s0 s)  : Keeps s0 (State.countUncorr s) := by
  unfold State.countUncorr
  repeat' first
    | with_reducible assumption | with_reducible apply State.incErr_keeps | with_reducible apply State.setB_keeps

theorem State.countCorr_keeps {s0 s : State} (hk : Keeps s0 s) (tier : Nat) (symbols : Nat) (sectors : List (Nat × Bool)) : Keeps s0 (State.countCorr s tier symbols sectors) := by
  unfold State.countCorr
  repeat' first
    | with_reducible assumption | intro _ | with_reducible apply State.incErr_keeps | with_reducible apply State.incEvt_keeps
    | with_reducible apply Keeps.foldl | with_reducible apply Keeps.ite

theorem State.writeBack_keeps {s0 s : State} (hk : Keeps s0 s) (p : Nat) (page : Nat) (req : Nat) (data : Page) (poison : BitVec 64) (sectors : List (Nat × Bool)) : Keeps s0 (State.writeBack s p page req data poison sectors) := by
  unfold State.writeBack
  repeat' first
    | with_reducible assumption | (intro v; clear_value v) | intro _ | with_reducible apply State.checkPressure_keeps
    | with_reducible apply State.incErr_keeps | with_reducible apply State.setB_keeps | with_reducible apply State.setSlot_keeps
    | with_reducible apply State.shipFrame_keeps | with_reducible apply Keeps.foldl | with_reducible refine KeepsMk.of ?_
    | with_reducible apply Keeps.ite | lift_lets -underBinder | split | simp -proj only [Keeps.mk_eq, TierSt.frames_mk]

theorem State.afterRead_keeps {s0 s : State} (hk : Keeps s0 s) (req : Nat) (p : Nat) (page : Nat) (tier : Nat) (r : CopyRead) (q : PageRead) (wb : Bool) : Keeps s0 (State.afterRead s req p page tier r q wb) := by
  unfold State.afterRead
  repeat' first
    | with_reducible assumption | with_reducible apply State.countCorr_keeps | with_reducible apply State.writeBack_keeps
    | with_reducible apply Keeps.ite

theorem State.readFrom_keeps {s0 s : State} (hk : Keeps s0 s) (req : Nat) (p : Nat) (page : Nat) (c : Copy) (home : Bool) : Keeps s0 (State.readFrom s req p page c home).1 := by
  unfold State.readFrom
  repeat' first
    | with_reducible assumption | with_reducible apply State.readStored_keeps

theorem State.readBoth_keeps {s0 s : State} (hk : Keeps s0 s) (req : Nat) (p : Nat) (page : Nat) (c : Copy) (home : Bool) (wb : Bool) : Keeps s0 (State.readBoth s req p page c home wb).1 := by
  unfold State.readBoth
  repeat' first
    | with_reducible assumption | (intro v; clear_value v) | with_reducible apply State.afterRead_keeps | with_reducible apply State.readFrom_keeps
    | with_reducible apply Keeps.ite | lift_lets -underBinder | dsimp -zeta only | split

theorem State.readPage_keeps {s0 s : State} (hk : Keeps s0 s) (req : Nat) (p : Nat) (page : Nat) (wb : Bool) (hub : Bool) : Keeps s0 (State.readPage s req p page wb hub).1 := by
  unfold State.readPage
  repeat' first
    | with_reducible assumption | (intro v; have hf1 : ∀ t a, Keeps s0 t → Keeps s0 (v t a) := ?_; clear_value v)
    | (intro v; have hp0 : ∀ t , Keeps s0 t → Keeps s0 (v t).1 := ?_; clear_value v) | intro _ | with_reducible apply State.afterRead_keeps
    | with_reducible apply State.dropReplica_keeps | with_reducible apply State.hubDecode_keeps | with_reducible apply State.readBoth_keeps
    | with_reducible apply hf1 | with_reducible apply hp0 | with_reducible apply Keeps.ite | with_reducible apply Keeps.ite_fst
    | lift_lets -underBinder | dsimp -zeta only | split

theorem State.viewPage_keeps {s0 s : State} (hk : Keeps s0 s) (req : Nat) (p : Nat) (page : Nat) : Keeps s0 (State.viewPage s req p page).1 := by
  unfold State.viewPage
  repeat' first
    | with_reducible assumption | with_reducible apply State.addPoisonPage_keeps | with_reducible apply State.countUncorr_keeps
    | with_reducible apply State.readPage_keeps | with_reducible apply State.setSlot_keeps | with_reducible apply Keeps.ite_fst | dsimp -zeta only
    | split

end Sys2Proof.Machine
end

