-- ==== Sys2Proof/Laws/KeepsCommit.lean ====
section
/-! SUPPORT. Every operation of Machine/Commit.lean keeps what Keeps says. -/

namespace Sys2Proof.Machine

theorem State.dropReplicas_keeps {s0 s : State} (hk : Keeps s0 s) (p : Nat) (t : Nat) (h : Nat) (n : Nat) (need : Nat) (shut : Option Nat) (a : Nat) : Keeps s0 (State.dropReplicas s p t h n need shut a) := by
  induction a generalizing s p t h n need shut with
  | zero =>
    unfold State.dropReplicas
    repeat' first
    | with_reducible assumption
  | succ a ih =>
    unfold State.dropReplicas
    repeat' first
    | with_reducible assumption | with_reducible apply ih | with_reducible apply State.dropReplica_keeps | with_reducible apply Keeps.ite
    | lift_lets -underBinder | split

theorem State.makeRoom_keeps {s0 s : State} (hk : Keeps s0 s) (p t half n bytes : Nat) (keep : Option Nat) {u : State} {h : Nat}
    (e : State.makeRoom s p t half n bytes keep = some (u, h)) : Keeps s0 u := by
  unfold State.makeRoom at e
  dsimp only at e
  split at e
  · simp only [Option.map_eq_some_iff, Prod.mk.injEq] at e
    obtain ⟨_, _, rfl, _⟩ := e
    exact State.dropReplicas_keeps hk _ _ _ _ _ _ _
  · cases e

theorem State.placeRun_keeps {s0 s : State} (hk : Keeps s0 s) (p f : Nat) (e : FrameSt) : ∀ (l : List Nat) (u : State) (r : Nat × Nat), State.placeRun s p f e l = some (u, r) → Keeps s0 u
  | [], _, _, h => by cases h
  | t :: rest, u, r, h => by
    unfold State.placeRun at h
    dsimp only at h
    split at h
    · rename_i hm
      cases h
      exact State.newBase_keeps (State.makeRoom_keeps hk _ _ _ _ _ _ hm) _ _ _
    · exact State.placeRun_keeps hk p f e rest u r h

theorem State.cleanPush_keeps {s0 s : State} (hk : Keeps s0 s) (l : List (Nat × Nat)) : Keeps s0 (State.cleanPush s l) := by
  unfold State.cleanPush
  repeat' first
    | with_reducible assumption | intro _ | with_reducible apply State.enqueue_keeps | with_reducible apply Keeps.foldl
    | with_reducible apply Keeps.ite

theorem State.checkBudget_keeps {s0 s : State} (hk : Keeps s0 s) : Keeps s0 (State.checkBudget s) := by
  unfold State.checkBudget
  repeat' first
    | with_reducible assumption | (intro v; have hv : TierSt := v; clear hv; subst v) | with_reducible apply State.cleanPush_keeps
    | with_reducible apply State.setB_keeps | with_reducible refine KeepsMk.of ?_ | with_reducible apply Keeps.ite | lift_lets -underBinder
    | simp -proj only [Keeps.mk_eq, TierSt.frames_mk]

theorem State.cleanPoison_keeps {s0 s : State} (hk : Keeps s0 s) (p : Nat) (page : Nat) : Keeps s0 (State.cleanPoison s p page) := by
  unfold State.cleanPoison
  repeat' first
    | with_reducible assumption | with_reducible apply State.dropPoison_keeps

theorem State.writeSectors_keeps {s0 s : State} (hk : Keeps s0 s) (p : Nat) (f : Nat) (k : Nat) (req : Nat) (unit : Nat) (e : FrameSt) (covered : Bool) (sectors : List Nat) : Keeps s0 (State.writeSectors s p f k req unit e covered sectors) := by
  unfold State.writeSectors
  repeat' first
    | with_reducible assumption | with_reducible apply State.flipLens_keeps | with_reducible apply State.setFrame_keeps
    | with_reducible apply State.storeHome_keeps | with_reducible apply Keeps.ite_fst

theorem State.commitContent_keeps {s0 s : State} (hk : Keeps s0 s) (p : Nat) (page : Nat) (req : Nat) (unit : Nat) (d : Page) (poison : BitVec 64) (given : Option (Nat × Nat × Nat × Nat)) : Keeps s0 (State.commitContent s p page req unit d poison given).1 := by
  unfold State.commitContent
  repeat' first
    | with_reducible assumption | (intro v; have hf4 : ∀ t a b c d, Keeps s0 t → Keeps s0 (v t a b c d) := ?_; clear_value v)
    | (intro v; clear_value v) | intro _ | with_reducible apply State.incEvt_keeps | with_reducible apply State.newBase_keeps
    | with_reducible refine State.placeRun_keeps ?_ _ _ _ _ _ _ (by assumption) | with_reducible apply State.raiseGathered_keeps
    | with_reducible apply State.setB_keeps | with_reducible apply State.setFrame_keeps | with_reducible apply State.setPoolPage_keeps
    | with_reducible apply State.writeSectors_keeps | with_reducible apply Keeps.ite | with_reducible apply Keeps.ite_fst | lift_lets -underBinder
    | dsimp -zeta only | with_reducible apply hf4 | split

theorem State.afterCommit_keeps {s0 s : State} (hk : Keeps s0 s) (p : Nat) (page : Nat) (d : Page) (poison : BitVec 64) (direct : Bool) : Keeps s0 (State.afterCommit s p page d poison direct) := by
  unfold State.afterCommit
  repeat' first
    | with_reducible assumption | with_reducible apply State.checkBudget_keeps | with_reducible apply State.checkDebt_keeps
    | with_reducible apply State.cleanPoison_keeps | with_reducible apply State.incEvt_keeps | with_reducible apply State.shipFrame_keeps
    | with_reducible apply Keeps.ite

theorem State.commitCorrection_keeps {s0 s : State} (hk : Keeps s0 s) (x : SlotSt) : Keeps s0 (State.commitCorrection s x) := by
  unfold State.commitCorrection
  repeat' first
    | with_reducible assumption | intro _ | with_reducible apply State.hardFault_keeps | with_reducible apply State.setFrame_keeps
    | with_reducible apply State.writeSectors_keeps | with_reducible apply Keeps.foldl | with_reducible apply Keeps.ite

end Sys2Proof.Machine
end

