-- ==== Sys2Proof/Laws/KeepsPowerCore.lean ====
section
/-! SUPPORT. Every operation of Machine/PowerCore.lean keeps what Keeps says. -/

namespace Sys2Proof.Machine

theorem State.pwrResult_keeps {s0 s : State} (hk : Keeps s0 s) (status : Nat) (req : Nat) : Keeps s0 (State.pwrResult s status req) := by
  unfold State.pwrResult
  repeat' first
    | with_reducible assumption | with_reducible apply State.wr_keeps

theorem State.moveOutRuns_keeps {s0 s : State} (hk : Keeps s0 s) (req : Nat) : Keeps s0 (State.moveOutRuns s req) := by
  unfold State.moveOutRuns
  repeat' first
    | with_reducible assumption | intro _ | with_reducible apply State.enqueue_keeps | with_reducible apply Keeps.foldl
    | with_reducible apply Keeps.ite

theorem State.pwrStart_keeps {s0 s : State} (hk : Keeps s0 s) (req : Nat) : Keeps s0 (State.pwrStart s req) := by
  unfold State.pwrStart
  repeat' first
    | with_reducible assumption | (intro v; have hv : Keeps s0 v := ?_; clear_value v) | (intro v; clear_value v)
    | with_reducible apply State.event_keeps | with_reducible apply State.moveOutRuns_keeps | with_reducible apply State.pwrResult_keeps
    | with_reducible apply State.wrB_keeps | with_reducible apply State.wrF_keeps | with_reducible refine KeepsMk.of ?_
    | with_reducible apply Keeps.ite | lift_lets -underBinder | simp -proj only [Keeps.mk_eq, TierSt.frames_mk]

theorem State.pwrRequest_keeps {s0 s : State} (hk : Keeps s0 s) (req : Nat) : Keeps s0 (State.pwrRequest s req) := by
  unfold State.pwrRequest
  repeat' first
    | with_reducible assumption | with_reducible apply State.pwrStart_keeps | with_reducible apply State.wrB_keeps
    | with_reducible apply State.wrF_keeps | with_reducible apply Keeps.ite

theorem State.pwrEnd_keeps {s0 s : State} (hk : Keeps s0 s)  : Keeps s0 (State.pwrEnd s) := by
  unfold State.pwrEnd
  repeat' first
    | with_reducible assumption | with_reducible apply State.pwrRequest_keeps | with_reducible apply State.wrB_keeps
    | with_reducible apply State.wrF_keeps | with_reducible apply Keeps.ite

theorem State.wakeAbort_keeps {s0 s : State} (hk : Keeps s0 s)  : Keeps s0 (State.wakeAbort s) := by
  unfold State.wakeAbort
  repeat' first
    | with_reducible assumption | with_reducible apply State.pwrEnd_keeps | with_reducible apply State.pwrResult_keeps
    | with_reducible apply State.setB_keeps | with_reducible apply Keeps.ite

theorem State.wake_keeps {s0 s : State} (hk : Keeps s0 s) (target : Nat) : Keeps s0 (State.wake s target) := by
  unfold State.wake
  repeat' first
    | with_reducible assumption | with_reducible apply State.pwrRequest_keeps | with_reducible apply State.wakeAbort_keeps
    | with_reducible apply State.wrB_keeps | with_reducible apply State.wrF_keeps | with_reducible apply Keeps.ite

theorem State.wakeBy_keeps {s0 s : State} (hk : Keeps s0 s) (target : Nat) (cause : Nat) (link : Nat) : Keeps s0 (State.wakeBy s target cause link) := by
  unfold State.wakeBy
  repeat' first
    | with_reducible assumption | with_reducible apply State.wake_keeps | with_reducible apply State.wr_keeps | with_reducible apply Keeps.ite

end Sys2Proof.Machine
end

