-- ==== Sys2Proof/Laws/KeepsMoves.lean ====
section
/-! SUPPORT. Every operation of Machine/Moves.lean keeps what Keeps says. -/

namespace Sys2Proof.Machine

theorem State.askUp_keeps {s0 s : State} (hk : Keeps s0 s) (p : Nat) (f : Nat) (t : Nat) (cls : Nat) (hint : Option (Nat × Nat)) : Keeps s0 (State.askUp s p f t cls hint) := by
  unfold State.askUp
  repeat' first
    | with_reducible assumption | with_reducible apply State.enqueue_keeps | with_reducible apply Keeps.ite

theorem State.abortMove_keeps {s0 s : State} (hk : Keeps s0 s) (p : Nat) (f : Nat) : Keeps s0 (State.abortMove s p f) := by
  unfold State.abortMove
  repeat' first
    | with_reducible assumption | (intro v; have hv : TierSt := v; clear hv; subst v) | (intro v; have hv : Keeps s0 v := ?_; clear_value v)
    | (intro v; clear_value v) | with_reducible apply State.dropMove_keeps | with_reducible apply State.setFrame_keeps
    | with_reducible refine KeepsMk.of ?_ | lift_lets -underBinder | simp -proj only [Keeps.mk_eq, TierSt.frames_mk]

theorem State.heatChanged_keeps {s0 s : State} (hk : Keeps s0 s) (p : Nat) (f : Nat) : Keeps s0 (State.heatChanged s p f) := by
  unfold State.heatChanged
  repeat' first
    | with_reducible assumption | with_reducible apply State.abortMove_keeps | with_reducible apply State.askUp_keeps
    | with_reducible apply State.dropMove_keeps | with_reducible apply Keeps.ite | lift_lets -underBinder | split

theorem State.touchPage_keeps {s0 s : State} (hk : Keeps s0 s) (p : Nat) (page : Nat) : Keeps s0 (State.touchPage s p page) := by
  unfold State.touchPage
  repeat' first
    | with_reducible assumption | with_reducible apply State.heatChanged_keeps | with_reducible apply State.touch_keeps
    | with_reducible apply Keeps.ite

/-- Every state that a destination holds is kept. -/
def KeepsD (s0 : State) : Dest → Prop
  | .at_ u _ _ => Keeps s0 u
  | .victim u _ => Keeps s0 u
  | .none u => Keeps s0 u

theorem KeepsD.at_ {s0 u : State} {d : Dest} {t h : Nat} (k : KeepsD s0 d) (e : d = .at_ u t h) : Keeps s0 u := by subst e; exact k
theorem KeepsD.victim {s0 u : State} {d : Dest} {v : Nat} (k : KeepsD s0 d) (e : d = .victim u v) : Keeps s0 u := by subst e; exact k
theorem KeepsD.none {s0 u : State} {d : Dest} (k : KeepsD s0 d) (e : d = .none u) : Keeps s0 u := by subst e; exact k

theorem State.moveDest_keeps {s0 s : State} (hk : Keeps s0 s) (m : Move) (e : FrameSt) : KeepsD s0 (State.moveDest s m e) := by
  unfold State.moveDest
  dsimp only
  repeat' split
  all_goals first
    | exact hk
    | exact State.dropReplicas_keeps hk _ _ _ _ _ _ _
    | (rename_i h; exact State.makeRoom_keeps hk _ _ _ _ _ _ h)
    | (rename_i h
       obtain ⟨t, _, ht⟩ := List.exists_of_findSome?_eq_some h
       simp only [Option.map_eq_some_iff] at ht
       obtain ⟨⟨u, b⟩, hx, rfl⟩ := ht
       exact State.makeRoom_keeps hk _ _ _ _ _ _ hx)

theorem State.decline_keeps {s0 s : State} (hk : Keeps s0 s) (m : Move) : Keeps s0 (State.decline s m) := by
  unfold State.decline
  repeat' first
    | with_reducible assumption | with_reducible apply State.dropMove_keeps | with_reducible apply State.hintDeclined_keeps
    | with_reducible apply State.incEvt_keeps | with_reducible apply State.setB_keeps

theorem State.declineServed_keeps {s0 s : State} (hk : Keeps s0 s) (m : Move) : Keeps s0 (State.declineServed s m) := by
  unfold State.declineServed
  repeat' first
    | with_reducible assumption | with_reducible apply State.decline_keeps | with_reducible apply Keeps.ite | split

theorem State.launchMove_keeps {s0 s : State} (hk : Keeps s0 s) (m : Move) (e : FrameSt) (t : Nat) (half : Nat) : Keeps s0 (State.launchMove s m e t half) := by
  unfold State.launchMove
  repeat' first
    | with_reducible assumption | (intro v; have hv : TierSt := v; clear hv; subst v) | with_reducible apply State.newBase_keeps
    | with_reducible apply State.setFrame_keeps | with_reducible refine KeepsMk.of ?_ | lift_lets -underBinder
    | simp -proj only [Keeps.mk_eq, TierSt.frames_mk]

theorem State.startMove_keeps {s0 s : State} (hk : Keeps s0 s) (m : Move) : Keeps s0 (State.startMove s m) := by
  unfold State.startMove
  repeat' first
    | with_reducible assumption | (intro v; have hv : TierSt := v; clear hv; subst v) | with_reducible apply State.decline_keeps
    | with_reducible apply State.declineServed_keeps | with_reducible apply State.dropMove_keeps | with_reducible apply State.dropReplica_keeps
    | with_reducible apply State.enqueue_keeps | with_reducible apply State.hintDeclined_keeps | with_reducible apply State.launchMove_keeps
    | with_reducible apply State.mapAccess_keeps | with_reducible refine KeepsD.at_ (State.moveDest_keeps ?_ _ _) (by assumption)
    | with_reducible refine KeepsD.victim (State.moveDest_keeps ?_ _ _) (by assumption)
    | with_reducible refine KeepsD.none (State.moveDest_keeps ?_ _ _) (by assumption) | with_reducible apply State.setFrame_keeps
    | with_reducible refine KeepsMk.of ?_ | with_reducible apply Keeps.ite | lift_lets -underBinder | split
    | simp -proj only [Keeps.mk_eq, TierSt.frames_mk]

theorem State.copyPages_keeps {s0 s : State} (hk : Keeps s0 s) (p f : Nat) (e : FrameSt) (c : Copy) (repl : Bool) : Keeps s0 (State.copyPages s p f e c repl).s := by
  unfold State.copyPages
  refine foldl_inv (P := fun a : Copied => Keeps s0 a.s) (fun a k ha => ?_) _ hk
  dsimp only at ha ⊢
  repeat' first
    | exact ha | with_reducible apply State.readStored_keeps | with_reducible apply State.countCorr_keeps
    | with_reducible apply State.setPoolPage_keeps | dsimp only | split

theorem State.commitMove_keeps {s0 s : State} (hk : Keeps s0 s) (m : Move) (e : FrameSt) (pages : List PageSt) : Keeps s0 (State.commitMove s m e pages) := by
  unfold State.commitMove
  repeat' first
    | with_reducible assumption | (intro v; have hv : Keeps s0 v := ?_; clear_value v) | (intro v; have hv : TierSt := v; clear hv; subst v)
    | (intro v; clear_value v) | with_reducible apply State.activateWrites_keeps | with_reducible apply State.checkBudget_keeps
    | with_reducible apply State.dropMove_keeps | with_reducible apply State.event_keeps | with_reducible apply State.flashReadEnd_keeps
    | with_reducible apply State.flipWrites_keeps | with_reducible apply State.incEvt_keeps | with_reducible apply State.setFrame_keeps
    | with_reducible apply State.storeHome_keeps | with_reducible apply State.storeLines_keeps | with_reducible refine KeepsMk.of ?_
    | with_reducible apply Keeps.ite | lift_lets -underBinder | dsimp -zeta only | subst v | split | simp -proj only [Keeps.mk_eq, TierSt.frames_mk]

theorem State.moveLevel_keeps {s0 s : State} (hk : Keeps s0 s) (m : Move) : Keeps s0 (State.moveLevel s m) := by
  unfold State.moveLevel
  repeat' first
    | with_reducible assumption | (intro v; clear_value v) | with_reducible apply State.atLevel_keeps | with_reducible apply State.background_keeps
    | lift_lets -underBinder | split

theorem State.copyDone_keeps {s0 s : State} (hk : Keeps s0 s) (p : Nat) (f : Nat) : Keeps s0 (State.copyDone s p f) := by
  unfold State.copyDone
  repeat' first
    | with_reducible assumption | (intro v; have hv : Keeps s0 v.1 := ?_; clear_value v) | with_reducible apply State.abortMove_keeps
    | with_reducible apply State.commitMove_keeps | with_reducible apply State.copyPages_keeps | with_reducible apply State.countUncorr_keeps
    | with_reducible apply State.declineServed_keeps | with_reducible apply State.dropReplica_keeps | with_reducible apply State.event_keeps
    | with_reducible apply State.incErr_keeps | with_reducible apply State.moveLevel_keeps | with_reducible apply State.setFrame_keeps
    | with_reducible apply Keeps.ite | lift_lets -underBinder | split

theorem State.checkExcess_keeps {s0 s : State} (hk : Keeps s0 s) (p : Nat) (t : Nat) (z_ : Nat) : Keeps s0 (State.checkExcess s p t z_) := by
  induction z_ generalizing s p t with
  | zero =>
    unfold State.checkExcess
    repeat' first
    | with_reducible assumption
  | succ z_ ih =>
    unfold State.checkExcess
    repeat' first
    | with_reducible assumption | (intro v; have hv : TierSt := v; clear hv; subst v) | with_reducible apply ih
    | with_reducible apply State.enqueue_keeps | with_reducible refine KeepsMk.of ?_ | with_reducible apply Keeps.ite | lift_lets -underBinder | split
    | simp -proj only [Keeps.mk_eq, TierSt.frames_mk]

theorem State.excess_keeps {s0 s : State} (hk : Keeps s0 s) (p : Nat) : Keeps s0 (State.excess s p) := by
  unfold State.excess
  repeat' first
    | with_reducible assumption | with_reducible apply State.checkExcess_keeps

theorem State.sweepFrame_keeps {s0 s : State} (hk : Keeps s0 s) (p : Nat) (f : Nat) : Keeps s0 (State.sweepFrame s p f) := by
  unfold State.sweepFrame
  repeat' first
    | with_reducible assumption | with_reducible apply State.askUp_keeps | with_reducible apply State.dropReplica_keeps
    | with_reducible apply State.enqueue_keeps | with_reducible apply Keeps.ite | lift_lets -underBinder | split

end Sys2Proof.Machine
end

