-- ==== Sys2Proof/Laws/KeepsAccess.lean ====
section
/-! SUPPORT. Every operation of Machine/Access.lean keeps what Keeps says. -/

namespace Sys2Proof.Machine

theorem State.onBar0_keeps {s0 s : State} (hk : Keeps s0 s) (link : LinkId) (ld : LdId) (off : Nat) (f : Nat → State) (hf : ∀ p, Keeps s0 (f p)) : Keeps s0 (State.onBar0 s link ld off f) := by
  unfold State.onBar0
  repeat' first
    | with_reducible assumption | exact hf _ | with_reducible apply State.send_keeps | with_reducible apply Keeps.ite | split

theorem State.lostLog_keeps {s0 s : State} (hk : Keeps s0 s) (link : Nat) (ld : Nat) (tag : Nat) (kind : Nat) (poison : Bool) : Keeps s0 (State.lostLog s link ld tag kind poison) := by
  unfold State.lostLog
  repeat' first
    | with_reducible assumption | with_reducible apply State.incEvt_keeps | with_reducible apply State.setLink_keeps
    | with_reducible apply State.wr_keeps

theorem State.hostData_keeps {s0 s : State} (hk : Keeps s0 s) (link : Nat) (ld : Nat) (tag : Nat) (poison : Bool) (data : Line) (load : DevLoad) : Keeps s0 (State.hostData s link ld tag poison data load) := by
  unfold State.hostData
  repeat' first
    | with_reducible assumption | with_reducible apply State.lostLog_keeps | with_reducible apply State.send_keeps | with_reducible apply Keeps.ite

theorem State.hostCmp_keeps {s0 s : State} (hk : Keeps s0 s) (link : Nat) (ld : Nat) (tag : Nat) (kind : Nat) (load : DevLoad) : Keeps s0 (State.hostCmp s link ld tag kind load) := by
  unfold State.hostCmp
  repeat' first
    | with_reducible assumption | with_reducible apply State.lostLog_keeps | with_reducible apply State.send_keeps | with_reducible apply Keeps.ite

theorem State.ideTell_keeps {s0 s : State} (hk : Keeps s0 s) (link : Nat) : Keeps s0 (State.ideTell s link) := by
  unfold State.ideTell
  repeat' first
    | with_reducible assumption | with_reducible apply State.raise_keeps | with_reducible apply State.setLink_keeps | with_reducible apply Keeps.ite

theorem State.countMatch_keeps {s0 s : State} (hk : Keeps s0 s) (k : Nat) (x : IsoEntry) : Keeps s0 (State.countMatch s k x) := by
  unfold State.countMatch
  repeat' first
    | with_reducible assumption | with_reducible apply Keeps.setIso

theorem State.unmatchedReq_keeps {s0 s : State} (hk : Keeps s0 s) (link : Nat) (ld : Nat) (hpa : Nat) (p : Option Nat) : Keeps s0 (State.unmatchedReq s link ld hpa p) := by
  unfold State.unmatchedReq
  repeat' first
    | with_reducible assumption | with_reducible apply State.incErr_keeps | with_reducible apply State.raiseGathered_keeps
    | with_reducible apply State.wr_keeps | lift_lets -underBinder | split

theorem State.inactiveTell_keeps {s0 s : State} (hk : Keeps s0 s) (link : Nat) (ld : Nat) (p : Nat) (hpa : Nat) : Keeps s0 (State.inactiveTell s link ld p hpa) := by
  unfold State.inactiveTell
  repeat' first
    | with_reducible assumption | with_reducible apply State.raise_keeps | with_reducible apply State.setLd_keeps | with_reducible apply Keeps.ite

theorem State.setShwBuf_keeps {s0 s : State} (hk : Keeps s0 s) (b : ShwBuf) : Keeps s0 (State.setShwBuf s b) := by
  unfold State.setShwBuf
  repeat' first
    | with_reducible assumption | (intro v; clear_value v) | with_reducible refine KeepsMk.of ?_ | with_reducible apply Keeps.ite
    | lift_lets -underBinder | split | simp -proj only [Keeps.mk_eq, TierSt.frames_mk]

theorem State.checkLines_keeps {s0 s : State} (hk : Keeps s0 s) (x : SlotSt) (lines : BitVec 64) : Keeps s0 (State.checkLines s x lines).1 := by
  unfold State.checkLines
  repeat' first
    | with_reducible assumption | with_reducible apply State.countUncorr_keeps | with_reducible apply State.event_keeps
    | with_reducible apply State.readPage_keeps | with_reducible apply State.setSlot_keeps | with_reducible apply Keeps.ite_fst

theorem State.readFlash_keeps {s0 s : State} (hk : Keeps s0 s) (p : Nat) (page : Nat) : Keeps s0 (State.readFlash s p page) := by
  unfold State.readFlash
  repeat' first
    | with_reducible assumption | with_reducible apply State.flashRead_keeps | with_reducible apply Keeps.ite

theorem State.demand_keeps {s0 s : State} (hk : Keeps s0 s) (p : Nat) (f : Nat) : Keeps s0 (State.demand s p f) := by
  unfold State.demand
  repeat' first
    | with_reducible assumption | with_reducible apply State.askUp_keeps | with_reducible apply Keeps.ite | split

theorem State.demandOnce_keeps {s0 s : State} (hk : Keeps s0 s) (p : Nat) (page : Nat) : Keeps s0 (State.demandOnce s p page) := by
  unfold State.demandOnce
  repeat' first
    | with_reducible assumption | with_reducible apply State.demand_keeps | with_reducible apply State.readFlash_keeps
    | with_reducible apply Keeps.ite

theorem State.hostUncorr_keeps {s0 s : State} (hk : Keeps s0 s) (p : Nat) (page : Nat) : Keeps s0 (State.hostUncorr s p page) := by
  unfold State.hostUncorr
  repeat' first
    | with_reducible assumption | with_reducible apply State.addPoisonPage_keeps | with_reducible apply State.countUncorr_keeps
    | with_reducible apply State.raiseGathered_keeps

theorem State.serveRead_keeps {s0 s : State} (hk : Keeps s0 s) (r : HeldRead) (first : Bool) : Keeps s0 (State.serveRead s r first) := by
  unfold State.serveRead
  repeat' first
    | with_reducible assumption | (intro v; have hv : Keeps s0 v := ?_; clear_value v) | (intro v; have hv : TierSt := v; clear hv; subst v)
    | (intro v; clear_value v) | with_reducible apply State.checkLines_keeps | with_reducible apply State.demand_keeps
    | with_reducible apply State.hostData_keeps | with_reducible apply State.hostUncorr_keeps | with_reducible apply State.incEvt_keeps
    | with_reducible apply State.readFlash_keeps | with_reducible apply State.readPage_keeps | with_reducible refine KeepsMk.of ?_
    | with_reducible apply Keeps.ite | lift_lets -underBinder | dsimp -zeta only | split | simp -proj only [Keeps.mk_eq, TierSt.frames_mk]

theorem State.holdEnd_keeps {s0 s : State} (hk : Keeps s0 s) (r : HeldRead) : Keeps s0 (State.holdEnd s r) := by
  unfold State.holdEnd
  repeat' first
    | with_reducible assumption | with_reducible apply State.wrF_keeps | with_reducible apply Keeps.ite

theorem State.deepMiss_keeps {s0 s : State} (hk : Keeps s0 s) (r : HeldRead) : Keeps s0 (State.deepMiss s r) := by
  unfold State.deepMiss
  repeat' first
    | with_reducible assumption | with_reducible apply State.holdEnd_keeps | with_reducible apply State.hostData_keeps
    | with_reducible apply State.incEvt_keeps | with_reducible apply State.raiseGathered_keeps | with_reducible apply State.setB_keeps

theorem State.releaseReads_keeps {s0 s : State} (hk : Keeps s0 s) (f : HeldRead → Bool) : Keeps s0 (State.releaseReads s f) := by
  unfold State.releaseReads
  repeat' first
    | with_reducible assumption | (intro v; have hv : TierSt := v; clear hv; subst v) | (intro v; clear_value v) | intro _
    | with_reducible apply State.atLevel_keeps | with_reducible apply State.deepMiss_keeps | with_reducible apply State.holdEnd_keeps
    | with_reducible apply State.serveRead_keeps | with_reducible apply Keeps.foldl | with_reducible refine KeepsMk.of ?_
    | with_reducible apply Keeps.ite | lift_lets -underBinder | dsimp -zeta only | simp -proj only [Keeps.mk_eq, TierSt.frames_mk]

theorem State.quotaSeal_keeps {s0 s : State} (hk : Keeps s0 s) (p : Nat) (page : Nat) : Keeps s0 (State.quotaSeal s p page) := by
  unfold State.quotaSeal
  repeat' first
    | with_reducible assumption | with_reducible apply State.sealOldest_keeps | with_reducible apply Keeps.ite

theorem State.fillServed_keeps {s0 s : State} (hk : Keeps s0 s) (p : Nat) (page : Nat) : Keeps s0 (State.fillServed s p page) := by
  unfold State.fillServed
  repeat' first
    | with_reducible assumption | with_reducible apply State.releaseReads_keeps

theorem State.slotWrite_keeps {s0 s : State} (hk : Keeps s0 s) (p : Nat) (page : Nat) (line : Nat) (data : Line) (be : BitVec 64) (poison : Bool) (req : Nat) (level : Nat) : Keeps s0 (State.slotWrite s p page line data be poison req level).1 := by
  unfold State.slotWrite
  repeat' first
    | with_reducible assumption | (intro v; have hv : Keeps s0 v := ?_; clear_value v) | with_reducible apply State.checkBudget_keeps
    | with_reducible apply State.fillServed_keeps | with_reducible apply State.openSlot_keeps | with_reducible apply State.quotaSeal_keeps
    | with_reducible apply State.readFlash_keeps | with_reducible apply State.setShwBuf_keeps | with_reducible apply State.setSlot_keeps
    | with_reducible apply Keeps.ite_fst | lift_lets -underBinder | split

theorem State.nospaceRefusal_keeps {s0 s : State} (hk : Keeps s0 s) (p : Nat) (link : Option Nat) (ld : Option Nat) (addr : Nat) : Keeps s0 (State.nospaceRefusal s p link ld addr) := by
  unfold State.nospaceRefusal
  repeat' first
    | with_reducible assumption | with_reducible apply State.incErr_keeps | with_reducible apply State.raiseGathered_keeps
    | with_reducible apply State.setB_keeps

theorem State.getPage_keeps {s0 s : State} (hk : Keeps s0 s) (req : Nat) (p : Nat) (page : Nat) : Keeps s0 (State.getPage s req p page).1 := by
  unfold State.getPage
  repeat' first
    | with_reducible assumption | with_reducible apply State.checkLines_keeps | with_reducible apply State.demandOnce_keeps
    | with_reducible apply State.fillServed_keeps | with_reducible apply State.readPage_keeps | with_reducible apply State.viewPage_keeps
    | with_reducible apply Keeps.ite_fst | lift_lets -underBinder | dsimp -zeta only | split

theorem State.takeUnit_keeps {s0 s : State} (hk : Keeps s0 s) (h : Nat) : Keeps s0 (State.takeUnit s h).2 := by
  unfold State.takeUnit
  repeat' first
    | with_reducible assumption | (intro v; clear_value v) | with_reducible apply State.incEvt_keeps | with_reducible refine KeepsMk.of ?_
    | lift_lets -underBinder | simp -proj only [Keeps.mk_eq, TierSt.frames_mk]

theorem State.putPage_keeps {s0 s : State} (hk : Keeps s0 s) (req : Nat) (level : Nat) (p : Nat) (page : Nat) (d : Page) (poison : BitVec 64) : Keeps s0 (State.putPage s req level p page d poison).1 := by
  unfold State.putPage
  repeat' first
    | with_reducible assumption | (intro v; have hv : Keeps s0 v := ?_; clear_value v)
    | (intro v; have hf0 : ∀ t , Keeps s0 t → Keeps s0 (v t) := ?_; clear_value v)
    | (intro v; have hf1 : ∀ t a, Keeps s0 t → Keeps s0 (v t a) := ?_; clear_value v) | intro _ | with_reducible apply State.afterCommit_keeps
    | with_reducible apply State.commitContent_keeps | with_reducible apply State.fillServed_keeps | with_reducible apply State.openSlot_keeps
    | with_reducible apply State.quotaSeal_keeps | with_reducible apply State.setShwBuf_keeps | with_reducible apply State.setSlot_keeps
    | with_reducible apply State.shipFrame_keeps | with_reducible apply State.takeUnit_keeps | with_reducible apply hf0 | with_reducible apply hf1
    | with_reducible apply Keeps.foldl | with_reducible apply Keeps.ite | with_reducible apply Keeps.ite_fst | lift_lets -underBinder
    | dsimp -zeta only | split

theorem State.putLines_keeps {s0 s : State} (hk : Keeps s0 s) (req : Nat) (level : Nat) (p : Nat) (a : Nat) (n : Nat) (v : Nat) (poison : Bool) (z_ : Nat) : Keeps s0 (State.putLines s req level p a n v poison z_).1 := by
  induction z_ generalizing s req level p a n v poison with
  | zero =>
    unfold State.putLines
    repeat' first
    | with_reducible assumption
  | succ z_ ih =>
    unfold State.putLines
    repeat' first
    | with_reducible assumption | (intro v; clear_value v) | with_reducible apply ih | with_reducible apply State.shipFrame_keeps
    | with_reducible apply State.slotWrite_keeps | with_reducible refine Keeps.fst ?_ (by assumption) | with_reducible apply Keeps.ite
    | with_reducible apply Keeps.ite_fst | lift_lets -underBinder | split

theorem State.putBytes_keeps {s0 s : State} (hk : Keeps s0 s) (req : Nat) (level : Nat) (p : Nat) (a : Nat) (n : Nat) (v : Nat) (poison : Bool) (z_ : Nat) : Keeps s0 (State.putBytes s req level p a n v poison z_).1 := by
  induction z_ generalizing s req level p a n v poison with
  | zero =>
    unfold State.putBytes
    repeat' first
    | with_reducible assumption
  | succ z_ ih =>
    unfold State.putBytes
    repeat' first
    | with_reducible assumption | (intro v; have hv : Keeps s0 v := ?_; clear_value v) | (intro v; have hv : Keeps s0 v.1 := ?_; clear_value v)
    | (intro v; clear_value v) | with_reducible apply ih | with_reducible apply State.putLines_keeps | with_reducible apply State.putPage_keeps
    | with_reducible apply State.touchPage_keeps | with_reducible apply Keeps.ite_fst | lift_lets -underBinder | split

end Sys2Proof.Machine
end

