-- ==== Sys2Proof/Laws/KeepsHostMem.lean ====
section
/-! SUPPORT. Every operation of Machine/HostMem.lean keeps what Keeps says. -/

namespace Sys2Proof.Machine

theorem State.hostReadIn_keeps {s0 s : State} (hk : Keeps s0 s) (link : Nat) (ld : Nat) (tag : Nat) (hpa : Nat) (kind : ReadKind) : Keeps s0 (State.hostReadIn s link ld tag hpa kind) := by
  unfold State.hostReadIn
  repeat' first
    | with_reducible assumption | with_reducible apply State.atLevel_keeps | with_reducible apply State.charge_keeps
    | with_reducible apply State.countMatch_keeps | with_reducible apply State.hostData_keeps | with_reducible apply State.ideTell_keeps
    | with_reducible apply State.inactiveTell_keeps | with_reducible apply State.mapAccess_keeps | with_reducible apply State.serveRead_keeps
    | with_reducible apply State.touchPage_keeps | with_reducible apply State.unmatchedReq_keeps | with_reducible apply State.wakeAbort_keeps
    | with_reducible apply Keeps.ite | lift_lets -underBinder | split

theorem State.hostRead_keeps {s0 s : State} (hk : Keeps s0 s) (link : Nat) (ld : Nat) (tag : Nat) (hpa : Nat) (kind : ReadKind) : Keeps s0 (State.hostRead s link ld tag hpa kind) := by
  unfold State.hostRead
  repeat' first
    | with_reducible assumption | with_reducible apply State.hostReadIn_keeps | with_reducible apply Keeps.ite

theorem State.holdReq_keeps {s0 s : State} (hk : Keeps s0 s) (p : Nat) (i : Instr) : Keeps s0 (State.holdReq s p i) := by
  unfold State.holdReq
  repeat' first
    | with_reducible assumption | with_reducible apply State.setMirPart_keeps

theorem execHostMemRead_keeps {s0 s : State} (hk : Keeps s0 s) (link : LinkId) (ld : LdId) (tag : Nat) (hpa : Nat) (kind : ReadKind) : KeepsR s0 (execHostMemRead link ld tag hpa kind s) := by
  unfold execHostMemRead
  repeat' first
    | with_reducible assumption | with_reducible apply State.holdReq_keeps | with_reducible apply State.hostRead_keeps
    | with_reducible apply KeepsR.next | lift_lets -underBinder | split

theorem State.writeAccepted_keeps {s0 s : State} (hk : Keeps s0 s) (w : HeldWrite) : Keeps s0 (State.writeAccepted s w) := by
  unfold State.writeAccepted
  repeat' first
    | with_reducible assumption | with_reducible apply State.hostCmp_keeps | with_reducible apply State.setMirPart_keeps
    | with_reducible apply State.shipFrame_keeps | with_reducible apply Keeps.ite

theorem State.tryWrite_keeps {s0 s : State} (hk : Keeps s0 s) (w : HeldWrite) : Keeps s0 (State.tryWrite s w).1 := by
  unfold State.tryWrite
  repeat' first
    | with_reducible assumption | (intro v; clear_value v) | with_reducible apply State.atLevel_keeps | with_reducible apply State.charge_keeps
    | with_reducible apply State.hostCmp_keeps | with_reducible apply State.nospaceRefusal_keeps | with_reducible apply State.slotWrite_keeps
    | with_reducible apply State.writeAccepted_keeps | with_reducible apply Keeps.ite | with_reducible apply Keeps.ite_fst | lift_lets -underBinder
    | dsimp -zeta only | split

theorem State.hostWriteIn_keeps {s0 s : State} (hk : Keeps s0 s) (link : Nat) (ld : Nat) (tag : Nat) (hpa : Nat) (data : Line) (be : BitVec 64) (poison : Bool) : Keeps s0 (State.hostWriteIn s link ld tag hpa data be poison) := by
  unfold State.hostWriteIn
  repeat' first
    | with_reducible assumption | (intro v; have hv : Keeps s0 v := ?_; clear_value v) | (intro v; clear_value v)
    | with_reducible apply State.atLevel_keeps | with_reducible apply State.charge_keeps | with_reducible apply State.countMatch_keeps
    | with_reducible apply State.hostCmp_keeps | with_reducible apply State.ideTell_keeps | with_reducible apply State.inactiveTell_keeps
    | with_reducible apply State.incErr_keeps | with_reducible apply State.incEvt_keeps | with_reducible apply State.mapAccess_keeps
    | with_reducible apply State.raiseGathered_keeps | with_reducible apply State.touchPage_keeps | with_reducible apply State.tryWrite_keeps
    | with_reducible apply State.unmatchedReq_keeps | with_reducible apply State.wakeAbort_keeps | with_reducible refine Keeps.fst ?_ (by assumption)
    | with_reducible refine KeepsMk.of ?_ | with_reducible apply Keeps.ite | lift_lets -underBinder | split
    | simp -proj only [Keeps.mk_eq, TierSt.frames_mk]

theorem State.hostWrite_keeps {s0 s : State} (hk : Keeps s0 s) (link : Nat) (ld : Nat) (tag : Nat) (hpa : Nat) (data : Line) (be : BitVec 64) (poison : Bool) : Keeps s0 (State.hostWrite s link ld tag hpa data be poison) := by
  unfold State.hostWrite
  repeat' first
    | with_reducible assumption | with_reducible apply State.hostWriteIn_keeps | with_reducible apply Keeps.ite

theorem execHostMemWrite_keeps {s0 s : State} (hk : Keeps s0 s) (link : LinkId) (ld : LdId) (tag : Nat) (hpa : Nat) (data : Line) (be : BitVec 64) (poison : Bool) : KeepsR s0 (execHostMemWrite link ld tag hpa data be poison s) := by
  unfold execHostMemWrite
  repeat' first
    | with_reducible assumption | with_reducible apply State.holdReq_keeps | with_reducible apply State.hostWrite_keeps
    | with_reducible apply KeepsR.next | lift_lets -underBinder | split

theorem State.hostInv_keeps {s0 s : State} (hk : Keeps s0 s) (link : Nat) (ld : Nat) (tag : Nat) (hpa : Nat) : Keeps s0 (State.hostInv s link ld tag hpa) := by
  unfold State.hostInv
  repeat' first
    | with_reducible assumption | with_reducible apply State.countMatch_keeps | with_reducible apply State.hostCmp_keeps
    | with_reducible apply State.ideTell_keeps | with_reducible apply State.inactiveTell_keeps | with_reducible apply State.unmatchedReq_keeps
    | with_reducible apply State.wakeAbort_keeps | with_reducible apply Keeps.ite | lift_lets -underBinder | split

theorem execHostMemInvalidate_keeps {s0 s : State} (hk : Keeps s0 s) (link : LinkId) (ld : LdId) (tag : Nat) (hpa : Nat) (_nt : Bool) : KeepsR s0 (execHostMemInvalidate link ld tag hpa _nt s) := by
  unfold execHostMemInvalidate
  repeat' first
    | with_reducible assumption | with_reducible apply State.hostInv_keeps | with_reducible apply KeepsR.next

theorem State.runHeld_keeps {s0 s : State} (hk : Keeps s0 s) (i : Instr) : Keeps s0 (State.runHeld s i) := by
  unfold State.runHeld
  repeat' first
    | with_reducible assumption | with_reducible apply State.hostReadIn_keeps | with_reducible apply State.hostWriteIn_keeps | split

theorem execEventGatherWindowEnd_keeps {s0 s : State} (hk : Keeps s0 s) (kind : Nat) (key : Nat) : KeepsR s0 (execEventGatherWindowEnd kind key s) := by
  unfold execEventGatherWindowEnd
  repeat' first
    | with_reducible assumption | with_reducible apply State.gatherEnd_keeps | with_reducible apply KeepsR.next

end Sys2Proof.Machine
end

