-- ==== Sys2Proof/Laws/KeepsLens.lean ====
section
/-! SUPPORT. Every operation of Machine/Lens.lean keeps what Keeps says. -/

namespace Sys2Proof.Machine

theorem State.fillSlot_keeps {s0 s : State} (hk : Keeps s0 s) (p : Nat) (page : Nat) : Keeps s0 (State.fillSlot s p page) := by
  unfold State.fillSlot
  repeat' first
    | with_reducible assumption | with_reducible apply State.atLevel_keeps | with_reducible apply State.flashReadEnd_keeps
    | with_reducible apply State.releaseReads_keeps | with_reducible apply State.viewPage_keeps | with_reducible apply Keeps.ite | split

theorem execMergeFillArrive_keeps {s0 s : State} (hk : Keeps s0 s) (p : PartId) (page : Nat) : KeepsR s0 (execMergeFillArrive p page s) := by
  unfold execMergeFillArrive
  repeat' first
    | with_reducible assumption | with_reducible apply State.fillSlot_keeps | with_reducible apply KeepsR.next | with_reducible apply Keeps.ite

theorem execMergeAgeExpiry_keeps {s0 s : State} (hk : Keeps s0 s) (p : PartId) (page : Nat) : KeepsR s0 (execMergeAgeExpiry p page s) := by
  unfold execMergeAgeExpiry
  repeat' first
    | with_reducible assumption | with_reducible apply State.reach_keeps | with_reducible apply State.sealSlot_keeps
    | with_reducible apply KeepsR.next | with_reducible apply Keeps.ite | lift_lets -underBinder | split

theorem State.snapshotSlot_keeps {s0 s : State} (hk : Keeps s0 s) (x : SlotSt) (u : Nat) : Keeps s0 (State.snapshotSlot s x u) := by
  unfold State.snapshotSlot
  repeat' first
    | with_reducible assumption | with_reducible apply State.checkLines_keeps | with_reducible apply State.setSlot_keeps

theorem State.encodeStart_keeps {s0 s : State} (hk : Keeps s0 s) (h : Nat) : Keeps s0 (State.encodeStart s h) := by
  unfold State.encodeStart
  repeat' first
    | with_reducible assumption | with_reducible apply State.setB_keeps | with_reducible apply State.snapshotSlot_keeps
    | with_reducible apply State.takeUnit_keeps | with_reducible apply Keeps.ite | lift_lets -underBinder | dsimp -zeta only | split

theorem execSlotEncodeStart_keeps {s0 s : State} (hk : Keeps s0 s) (h : HubId) : KeepsR s0 (execSlotEncodeStart h s) := by
  unfold execSlotEncodeStart
  repeat' first
    | with_reducible assumption | with_reducible apply State.encodeStart_keeps | with_reducible apply KeepsR.next

theorem State.slotAfter_keeps {s0 s : State} (hk : Keeps s0 s) (x : SlotSt) : Keeps s0 (State.slotAfter s x) := by
  unfold State.slotAfter
  repeat' first
    | with_reducible assumption | with_reducible apply State.freeSlot_keeps | with_reducible apply State.sealSlot_keeps
    | with_reducible apply State.setSlot_keeps | with_reducible apply Keeps.ite | split

theorem State.flushSeen_keeps {s0 s : State} (hk : Keeps s0 s) (p : Nat) (page : Nat) : Keeps s0 (State.flushSeen s p page) := by
  unfold State.flushSeen
  repeat' first
    | with_reducible assumption | (intro v; clear_value v) | with_reducible refine KeepsMk.of ?_ | lift_lets -underBinder
    | simp -proj only [Keeps.mk_eq, TierSt.frames_mk]

theorem State.commitSlot_keeps {s0 s : State} (hk : Keeps s0 s) (x : SlotSt) : Keeps s0 (State.commitSlot s x) := by
  unfold State.commitSlot
  repeat' first
    | with_reducible assumption | with_reducible apply State.afterCommit_keeps | with_reducible apply State.atLevel_keeps
    | with_reducible apply State.cleanPoison_keeps | with_reducible apply State.clrB_keeps | with_reducible apply State.commitContent_keeps
    | with_reducible apply State.commitCorrection_keeps | with_reducible apply State.flushSeen_keeps | with_reducible apply State.incEvt_keeps
    | with_reducible apply State.setSlot_keeps | with_reducible apply State.slotAfter_keeps | with_reducible apply Keeps.ite | dsimp -zeta only
    | split

theorem execSlotCommit_keeps {s0 s : State} (hk : Keeps s0 s) (p : PartId) (page : Nat) : KeepsR s0 (execSlotCommit p page s) := by
  unfold execSlotCommit
  repeat' first
    | with_reducible assumption | with_reducible apply State.commitSlot_keeps | with_reducible apply KeepsR.next | with_reducible apply Keeps.ite
    | lift_lets -underBinder | split

theorem State.serveMoved_keeps {s0 s : State} (hk : Keeps s0 s) (p : Nat) (f : Nat) : Keeps s0 (State.serveMoved s p f) := by
  unfold State.serveMoved
  repeat' first
    | with_reducible assumption | with_reducible apply State.releaseReads_keeps

theorem State.settleMove_keeps {s0 s : State} (hk : Keeps s0 s) (p : Nat) (f : Nat) : Keeps s0 (State.settleMove s p f) := by
  unfold State.settleMove
  repeat' first
    | with_reducible assumption | with_reducible apply State.copyDone_keeps | with_reducible apply State.serveMoved_keeps
    | with_reducible apply Keeps.ite

theorem State.drainSlot_keeps {s0 s : State} (hk : Keeps s0 s) (p : Nat) (page : Nat) : Keeps s0 (State.drainSlot s p page) := by
  unfold State.drainSlot
  repeat' first
    | with_reducible assumption | (intro v; have hv : Keeps s0 v := ?_; clear_value v) | with_reducible apply State.commitSlot_keeps
    | with_reducible apply State.fillSlot_keeps | with_reducible apply State.settleMove_keeps | with_reducible apply State.snapshotSlot_keeps
    | with_reducible apply State.takeUnit_keeps | with_reducible apply Keeps.ite | lift_lets -underBinder | dsimp -zeta only | split

theorem State.flushSlots_keeps {s0 s : State} (hk : Keeps s0 s) (f : SlotSt → Bool) : Keeps s0 (State.flushSlots s f) := by
  unfold State.flushSlots
  repeat' first
    | with_reducible assumption | intro _ | with_reducible apply State.drainSlot_keeps | with_reducible apply Keeps.foldl

theorem State.releaseWrites_keeps {s0 s : State} (hk : Keeps s0 s) (h : Nat) : Keeps s0 (State.releaseWrites s h) := by
  unfold State.releaseWrites
  repeat' first
    | with_reducible assumption | (intro v; clear_value v) | intro _ | with_reducible apply State.tryWrite_keeps | with_reducible apply Keeps.foldl
    | with_reducible refine Keeps.fst ?_ (by assumption) | with_reducible refine KeepsMk.of ?_ | lift_lets -underBinder | split
    | simp -proj only [Keeps.mk_eq, TierSt.frames_mk]

theorem execHeldWriteRelease_keeps {s0 s : State} (hk : Keeps s0 s) (h : HubId) : KeepsR s0 (execHeldWriteRelease h s) := by
  unfold execHeldWriteRelease
  repeat' first
    | with_reducible assumption | with_reducible apply State.releaseWrites_keeps | with_reducible apply KeepsR.next

theorem State.writeWatermark_keeps {s0 s : State} (hk : Keeps s0 s) (p : Nat) (val : Nat) : Keeps s0 (State.writeWatermark s p val) := by
  unfold State.writeWatermark
  repeat' first
    | with_reducible assumption | intro _ | with_reducible apply State.event_keeps | with_reducible apply State.setPart_keeps
    | with_reducible apply State.wrF_keeps | with_reducible apply Keeps.foldl | with_reducible apply Keeps.ite

theorem execWatermarkWrite_keeps {s0 s : State} (hk : Keeps s0 s) (p : PartId) (val : BitVec 32) : KeepsR s0 (execWatermarkWrite p val s) := by
  unfold execWatermarkWrite
  repeat' first
    | with_reducible assumption | with_reducible apply State.writeWatermark_keeps | with_reducible apply KeepsR.next

theorem State.startFlush_keeps {s0 s : State} (hk : Keeps s0 s) (who : FlushWho) (f : SlotSt → Bool) : Keeps s0 (State.startFlush s who f) := by
  unfold State.startFlush
  repeat' first
    | with_reducible assumption | (intro v; clear_value v) | intro _ | with_reducible apply State.sealSlot_keeps | with_reducible apply Keeps.foldl
    | with_reducible refine KeepsMk.of ?_ | with_reducible apply Keeps.ite | lift_lets -underBinder | simp -proj only [Keeps.mk_eq, TierSt.frames_mk]

theorem State.partFlush_keeps {s0 s : State} (hk : Keeps s0 s) (p : Nat) : Keeps s0 (State.partFlush s p) := by
  unfold State.partFlush
  repeat' first
    | with_reducible assumption | with_reducible apply State.setB_keeps | with_reducible apply State.startFlush_keeps | with_reducible apply Keeps.ite

theorem execPartitionFlush_keeps {s0 s : State} (hk : Keeps s0 s) (p : PartId) : KeepsR s0 (execPartitionFlush p s) := by
  unfold execPartitionFlush
  repeat' first
    | with_reducible assumption | with_reducible apply State.partFlush_keeps | with_reducible apply KeepsR.next

theorem State.flushEnd_keeps {s0 s : State} (hk : Keeps s0 s) (who : FlushWho) : Keeps s0 (State.flushEnd s who) := by
  unfold State.flushEnd
  repeat' first
    | with_reducible assumption | (intro v; clear_value v) | with_reducible refine KeepsMk.of ?_ | lift_lets -underBinder
    | simp -proj only [Keeps.mk_eq, TierSt.frames_mk]

theorem State.moveHome_keeps {s0 s : State} (hk : Keeps s0 s) (p : Nat) (f : Nat) : Keeps s0 (State.moveHome s p f) := by
  unfold State.moveHome
  repeat' first
    | with_reducible assumption | (intro v; have hv : Keeps s0 v.1 := ?_; clear_value v) | (intro v; clear_value v)
    | with_reducible apply State.commitMove_keeps | with_reducible apply State.copyPages_keeps | with_reducible apply State.countUncorr_keeps
    | with_reducible apply State.event_keeps | with_reducible apply State.excess_keeps | with_reducible apply State.incErr_keeps
    | with_reducible refine KeepsD.at_ (State.moveDest_keeps ?_ _ _) (by assumption) | with_reducible apply State.newBase_keeps
    | with_reducible apply State.setFrame_keeps | with_reducible apply Keeps.ite | lift_lets -underBinder | dsimp -zeta only | split

theorem execRelocMoveHome_keeps {s0 s : State} (hk : Keeps s0 s) (p : PartId) (frame : Nat) : KeepsR s0 (execRelocMoveHome p frame s) := by
  unfold execRelocMoveHome
  repeat' first
    | with_reducible assumption | with_reducible apply State.moveHome_keeps | with_reducible apply KeepsR.next

theorem execDeferredWritebackOpen_keeps {s0 s : State} (hk : Keeps s0 s) (h : HubId) : KeepsR s0 (execDeferredWritebackOpen h s) := by
  unfold execDeferredWritebackOpen
  repeat' first
    | with_reducible assumption | (intro v; clear_value v) | with_reducible apply State.readPage_keeps | with_reducible apply KeepsR.next
    | with_reducible refine KeepsMk.of ?_ | with_reducible apply Keeps.ite | lift_lets -underBinder | split
    | simp -proj only [Keeps.mk_eq, TierSt.frames_mk]

theorem execFlipArm_keeps {s0 s : State} (hk : Keeps s0 s) (unit : FlipUnit) : KeepsR s0 (execFlipArm unit s) := by
  unfold execFlipArm
  repeat' first
    | with_reducible assumption | with_reducible apply State.wrB_keeps | with_reducible apply KeepsR.next | with_reducible apply Keeps.ite

theorem execFlipDisarm_keeps {s0 s : State} (hk : Keeps s0 s) (unit : FlipUnit) : KeepsR s0 (execFlipDisarm unit s) := by
  unfold execFlipDisarm
  repeat' first
    | with_reducible assumption | with_reducible apply State.wrB_keeps | with_reducible apply KeepsR.next

end Sys2Proof.Machine
end

