-- ==== Sys2Proof/Laws/KeepsTier.lean ====
section
/-! SUPPORT. Every operation of Machine/Tier.lean keeps what Keeps says. -/

namespace Sys2Proof.Machine

theorem execAgingEpoch_keeps {s0 s : State} (hk : Keeps s0 s)  : KeepsR s0 (execAgingEpoch s) := by
  unfold execAgingEpoch
  repeat' first
    | with_reducible assumption | (intro v; have hv : Keeps s0 v := ?_; clear_value v) | with_reducible apply State.wr_keeps | with_reducible apply State.reach_keeps
    | with_reducible refine KeepsMk.of ?_ | with_reducible apply KeepsR.next | with_reducible apply Keeps.ite | lift_lets -underBinder
    | simp -proj only [Keeps.mk_eq, TierSt.frames_mk]

theorem State.sweepPass_keeps {s0 s : State} (hk : Keeps s0 s) (p : Nat) (f : Nat) : Keeps s0 (State.sweepPass s p f) := by
  unfold State.sweepPass
  repeat' first
    | with_reducible assumption | (intro v; have hv : TierSt := v; clear hv; subst v) | (intro v; have hv : Keeps s0 v := ?_; clear_value v)
    | (intro v; clear_value v) | with_reducible apply State.setB_keeps | with_reducible apply State.wrF_keeps | with_reducible refine KeepsMk.of ?_
    | with_reducible apply Keeps.ite | lift_lets -underBinder | subst v | simp -proj only [Keeps.mk_eq, TierSt.frames_mk]

theorem execSweeperVisit_keeps {s0 s : State} (hk : Keeps s0 s) (p : PartId) (frame : Nat) : KeepsR s0 (execSweeperVisit p frame s) := by
  unfold execSweeperVisit
  repeat' first
    | with_reducible assumption | with_reducible apply State.checkBudget_keeps | with_reducible apply State.dropMove_keeps
    | with_reducible apply State.excess_keeps | with_reducible apply State.mapAccess_keeps | with_reducible apply State.setFrame_keeps
    | with_reducible apply State.sweepFrame_keeps | with_reducible apply State.sweepPass_keeps | with_reducible apply KeepsR.next
    | with_reducible apply Keeps.ite | lift_lets -underBinder | split

theorem execMoveStart_keeps {s0 s : State} (hk : Keeps s0 s) (h : HubId) : KeepsR s0 (execMoveStart h s) := by
  unfold execMoveStart
  repeat' first
    | with_reducible assumption | with_reducible apply State.startMove_keeps | with_reducible apply KeepsR.next | with_reducible apply Keeps.ite
    | lift_lets -underBinder | split

theorem execMoveCopyDone_keeps {s0 s : State} (hk : Keeps s0 s) (p : PartId) (frame : Nat) : KeepsR s0 (execMoveCopyDone p frame s) :=
  KeepsR.next (State.serveMoved_keeps (State.copyDone_keeps hk _ _) _ _)

theorem State.unstage_keeps {s0 s : State} (hk : Keeps s0 s) (p : Nat) (page : Nat) : Keeps s0 (State.unstage s p page) := by
  unfold State.unstage
  repeat' first
    | with_reducible assumption | (intro v; have hv : TierSt := v; clear hv; subst v) | with_reducible refine KeepsMk.of ?_
    | with_reducible apply Keeps.ite | lift_lets -underBinder | simp -proj only [Keeps.mk_eq, TierSt.frames_mk]

theorem State.flashArrive_keeps {s0 s : State} (hk : Keeps s0 s) (p : Nat) (page : Nat) : Keeps s0 (State.flashArrive s p page) := by
  unfold State.flashArrive
  repeat' first
    | with_reducible assumption | (intro v; have hv : TierSt := v; clear hv; subst v) | with_reducible apply State.flashReadEnd_keeps
    | with_reducible apply State.releaseReads_keeps | with_reducible apply State.unstage_keeps | with_reducible refine KeepsMk.of ?_
    | with_reducible apply Keeps.ite | lift_lets -underBinder | simp -proj only [Keeps.mk_eq, TierSt.frames_mk]

theorem execFlashReadDataArrive_keeps {s0 s : State} (hk : Keeps s0 s) (p : PartId) (page : Nat) : KeepsR s0 (execFlashReadDataArrive p page s) := by
  unfold execFlashReadDataArrive
  repeat' first
    | with_reducible assumption | with_reducible apply State.flashArrive_keeps | with_reducible apply KeepsR.next | with_reducible apply Keeps.ite

theorem execDeepMissExpiry_keeps {s0 s : State} (hk : Keeps s0 s) (link : LinkId) (tag : Nat) : KeepsR s0 (execDeepMissExpiry link tag s) := by
  unfold execDeepMissExpiry
  repeat' first
    | with_reducible assumption | (intro v; have hv : TierSt := v; clear hv; subst v) | with_reducible apply State.deepMiss_keeps
    | with_reducible apply State.reach_keeps | with_reducible apply KeepsR.next | with_reducible refine KeepsMk.of ?_ | lift_lets -underBinder | split
    | simp -proj only [Keeps.mk_eq, TierSt.frames_mk]

theorem State.readMap_keeps {s0 s : State} (hk : Keeps s0 s)  : Keeps s0 (State.readMap s) := by
  unfold State.readMap
  repeat' first
    | with_reducible assumption | intro _ | with_reducible apply State.incErr_keeps | with_reducible apply State.rebuildEntry_keeps
    | with_reducible apply State.setFrame_keeps | with_reducible apply State.wr_keeps | with_reducible apply Keeps.foldl
    | with_reducible apply Keeps.ite

theorem execMapRead_keeps {s0 s : State} (hk : Keeps s0 s)  : KeepsR s0 (execMapRead s) := by
  unfold execMapRead
  repeat' first
    | with_reducible assumption | with_reducible apply State.readMap_keeps | with_reducible apply KeepsR.next

theorem State.prefetchFrame_keeps {s0 s : State} (hk : Keeps s0 s) (p : Nat) (f : Nat) (t : Nat) (hint : Nat × Nat) : Keeps s0 (State.prefetchFrame s p f t hint) := by
  unfold State.prefetchFrame
  repeat' first
    | with_reducible assumption | with_reducible apply State.askUp_keeps | with_reducible apply State.heatChanged_keeps
    | with_reducible apply State.mapAccess_keeps | with_reducible apply State.setFrame_keeps | with_reducible apply Keeps.ite

theorem State.pinFrame_keeps {s0 s : State} (hk : Keeps s0 s) (p : Nat) (f : Nat) (level : Nat) (hint : Nat × Nat) : Keeps s0 (State.pinFrame s p f level hint) := by
  unfold State.pinFrame
  repeat' first
    | with_reducible assumption | with_reducible apply State.askUp_keeps | with_reducible apply State.mapAccess_keeps
    | with_reducible apply State.setFrame_keeps | with_reducible apply State.shipMap_keeps | with_reducible apply Keeps.ite

theorem State.unpinFrame_keeps {s0 s : State} (hk : Keeps s0 s) (p : Nat) (f : Nat) : Keeps s0 (State.unpinFrame s p f) := by
  unfold State.unpinFrame
  repeat' first
    | with_reducible assumption | with_reducible apply State.mapAccess_keeps | with_reducible apply State.setFrame_keeps
    | with_reducible apply State.shipMap_keeps | with_reducible apply Keeps.ite

theorem State.demoteFrame_keeps {s0 s : State} (hk : Keeps s0 s) (p : Nat) (f : Nat) (hint : Nat × Nat) : Keeps s0 (State.demoteFrame s p f hint) := by
  unfold State.demoteFrame
  repeat' first
    | with_reducible assumption | with_reducible apply State.dropReplica_keeps | with_reducible apply State.enqueue_keeps
    | with_reducible apply State.mapAccess_keeps | with_reducible apply Keeps.ite

end Sys2Proof.Machine
end

