-- ==== Sys2Proof/Laws/KeepsDram.lean ====
section
/-! SUPPORT. Every operation of Machine/Dram.lean keeps what Keeps says. -/

namespace Sys2Proof.Machine

theorem State.shiftLane_keeps {s0 s : State} (hk : Keeps s0 s) (k : Nat) (x : LaneMove) : Keeps s0 (State.shiftLane s k x) := by
  unfold State.shiftLane
  repeat' first
    | with_reducible assumption | (intro v; clear_value v) | with_reducible apply State.event_keeps | with_reducible refine KeepsMk.of ?_
    | with_reducible apply Keeps.ite | lift_lets -underBinder | split | simp -proj only [Keeps.mk_eq, TierSt.frames_mk]

theorem execTrainingProbe_keeps {s0 s : State} (hk : Keeps s0 s) (m : MemCtrl) (moves : List LaneMove) : KeepsR s0 (execTrainingProbe m moves s) := by
  unfold execTrainingProbe
  repeat' first
    | with_reducible assumption | (intro v; clear_value v) | intro _ | with_reducible apply State.reach_keeps
    | with_reducible apply State.saveLanes_keeps | with_reducible apply State.shiftLane_keeps | with_reducible apply KeepsR.next
    | with_reducible apply Keeps.foldl | with_reducible refine KeepsMk.of ?_ | with_reducible apply Keeps.ite | lift_lets -underBinder
    | simp -proj only [Keeps.mk_eq, TierSt.frames_mk]

theorem execRefreshIssue_keeps {s0 s : State} (hk : Keeps s0 s) (m : MemCtrl) (_kind : RefreshKind) (bank : Nat) : KeepsR s0 (execRefreshIssue m _kind bank s) := by
  unfold execRefreshIssue
  repeat' first
    | with_reducible assumption | with_reducible apply State.ctrlDrain_keeps | with_reducible apply State.refreshPush_keeps
    | with_reducible apply KeepsR.next

theorem execRowhammerWindowEnd_keeps {s0 s : State} (hk : Keeps s0 s) : KeepsR s0 (execRowhammerWindowEnd s) := by
  unfold execRowhammerWindowEnd
  repeat' first
    | with_reducible assumption | (intro v; clear_value v) | intro _ | with_reducible apply State.reach_keeps | with_reducible apply State.wrB_keeps
    | with_reducible apply KeepsR.next | with_reducible apply Keeps.foldl | with_reducible refine KeepsMk.of ?_ | with_reducible apply Keeps.ite
    | lift_lets -underBinder | simp -proj only [Keeps.mk_eq, TierSt.frames_mk]

theorem execLpRebuildStart_keeps {s0 s : State} (hk : Keeps s0 s) (g : Fin 2) : KeepsR s0 (execLpRebuildStart g s) := by
  unfold execLpRebuildStart
  repeat' first
    | with_reducible assumption | with_reducible apply State.rebuildStart_keeps | with_reducible apply KeepsR.next | with_reducible apply Keeps.ite

theorem execLpRebuildDone_keeps {s0 s : State} (hk : Keeps s0 s) (g : Fin 2) : KeepsR s0 (execLpRebuildDone g s) := by
  unfold execLpRebuildDone
  repeat' first
    | with_reducible assumption | with_reducible apply State.clrB_keeps | with_reducible apply State.event_keeps
    | with_reducible apply State.reach_keeps | with_reducible apply State.wr_keeps | with_reducible apply State.wrF_keeps
    | with_reducible apply KeepsR.next | with_reducible apply Keeps.ite

end Sys2Proof.Machine
end

