-- ==== Sys2Proof/Laws/KeepsCarrier.lean ====
section
/-! SUPPORT. Every operation of Machine/Carrier.lean keeps what Keeps says. -/

namespace Sys2Proof.Machine

theorem State.setBayState_keeps {s0 s : State} (hk : Keeps s0 s) (b : Nat) (v : Nat) : Keeps s0 (State.setBayState s b v) := by
  unfold State.setBayState
  repeat' first
    | with_reducible assumption | with_reducible apply State.wrF_keeps

theorem State.setBay_keeps {s0 s : State} (hk : Keeps s0 s) (b : Nat) (v : BaySt) : Keeps s0 (State.setBay s b v) := by
  unfold State.setBay
  repeat' first
    | with_reducible assumption | (intro v; clear_value v) | with_reducible refine KeepsMk.of ?_ | lift_lets -underBinder
    | simp -proj only [Keeps.mk_eq, TierSt.frames_mk]

theorem State.setInd_keeps {s0 s : State} (hk : Keeps s0 s) (b : Nat) (v : Nat) : Keeps s0 (State.setInd s b v) := by
  unfold State.setInd
  repeat' first
    | with_reducible assumption | with_reducible apply State.wrF_keeps

theorem State.setLive_keeps {s0 s : State} (hk : Keeps s0 s) (b : Nat) (n : Nat) : Keeps s0 (State.setLive s b n) := by
  unfold State.setLive
  repeat' first
    | with_reducible assumption | with_reducible apply State.setBay_keeps

theorem State.setExposed_keeps {s0 s : State} (hk : Keeps s0 s) (n : Nat) : Keeps s0 (State.setExposed s n) := by
  unfold State.setExposed
  repeat' first
    | with_reducible assumption | (intro v; clear_value v) | with_reducible refine KeepsMk.of ?_ | lift_lets -underBinder
    | simp -proj only [Keeps.mk_eq, TierSt.frames_mk]

theorem State.arrayUpdate_keeps {s0 s : State} (hk : Keeps s0 s) : Keeps s0 (State.arrayUpdate s) := by
  unfold State.arrayUpdate
  repeat' first
    | with_reducible assumption | intro _ | with_reducible apply State.checkDebt_keeps | with_reducible apply State.raise_keeps
    | with_reducible apply State.setB_keeps | with_reducible apply State.wr_keeps | with_reducible apply Keeps.foldl | with_reducible apply Keeps.ite

theorem State.restripeStart_keeps {s0 s : State} (hk : Keeps s0 s)  : Keeps s0 (State.restripeStart s) := by
  unfold State.restripeStart
  repeat' first
    | with_reducible assumption | (intro v; clear_value v) | with_reducible apply State.clrB_keeps | with_reducible refine KeepsMk.of ?_
    | with_reducible apply Keeps.ite | lift_lets -underBinder | simp -proj only [Keeps.mk_eq, TierSt.frames_mk]

theorem State.membersLost_keeps {s0 s : State} (hk : Keeps s0 s) (b : Nat) : Keeps s0 (State.membersLost s b) := by
  unfold State.membersLost
  repeat' first
    | with_reducible assumption | (intro v; clear_value v) | with_reducible apply State.event_keeps | with_reducible apply State.loseMembers_keeps
    | with_reducible apply State.nextFree_keeps | with_reducible apply State.restripeStart_keeps | with_reducible apply State.setExposed_keeps
    | with_reducible apply State.setLive_keeps | with_reducible refine KeepsMk.of ?_ | with_reducible apply Keeps.ite | lift_lets -underBinder | split
    | simp -proj only [Keeps.mk_eq, TierSt.frames_mk]

theorem State.slotIdle_keeps {s0 s : State} (hk : Keeps s0 s) (b : Nat) : Keeps s0 (State.slotIdle s b) := by
  unfold State.slotIdle
  repeat' first
    | with_reducible assumption | with_reducible apply State.wrB_keeps

theorem State.carrierFailed_keeps {s0 s : State} (hk : Keeps s0 s) (b : Nat) : Keeps s0 (State.carrierFailed s b) := by
  unfold State.carrierFailed
  repeat' first
    | with_reducible assumption | with_reducible apply State.arrayUpdate_keeps | with_reducible apply State.membersLost_keeps
    | with_reducible apply State.setBay_keeps | with_reducible apply State.setBayState_keeps | with_reducible apply State.slotIdle_keeps
    | with_reducible apply Keeps.ite

theorem State.channelsDown_keeps {s0 s : State} (hk : Keeps s0 s) (b : Nat) : Keeps s0 (State.channelsDown s b) := by
  unfold State.channelsDown
  repeat' first
    | with_reducible assumption | intro _ | with_reducible apply State.wrF_keeps | with_reducible apply Keeps.foldl

theorem State.startCarrier_keeps {s0 s : State} (hk : Keeps s0 s) (b : Nat) : Keeps s0 (State.startCarrier s b) := by
  unfold State.startCarrier
  repeat' first
    | with_reducible assumption | intro _ | with_reducible apply State.setBay_keeps | with_reducible apply State.setBayState_keeps
    | with_reducible apply State.setInd_keeps | with_reducible apply State.wrB_keeps | with_reducible apply State.wrF_keeps
    | with_reducible apply Keeps.foldl

theorem State.freshPool_keeps {s0 s : State} (hk : Keeps s0 s) (f : Nat) : Keeps s0 (State.freshPool s f) := by
  unfold State.freshPool
  repeat' first
    | with_reducible assumption | with_reducible apply State.wr_keeps | with_reducible apply State.nextFree_keeps

theorem State.trainFlash_keeps {s0 s : State} (hk : Keeps s0 s) (b : Nat) (bad : Nat → Bool) : Keeps s0 (State.trainFlash s b bad) := by
  unfold State.trainFlash
  repeat' first
    | with_reducible assumption | intro _ | with_reducible apply State.nextFree_keeps | with_reducible apply State.wr_keeps
    | with_reducible apply State.wrF_keeps | with_reducible apply Keeps.foldl | with_reducible apply Keeps.ite

theorem State.adoptOne_keeps {s0 s : State} (hk : Keeps s0 s) (b : Nat) (bad : Nat → Bool) : Keeps s0 (State.adoptOne s b bad) := by
  unfold State.adoptOne
  repeat' first
    | with_reducible assumption | (intro v; clear_value v) | intro _ | with_reducible apply State.carrierFailed_keeps
    | with_reducible apply State.freshPool_keeps | with_reducible apply State.setBay_keeps | with_reducible apply State.setBayState_keeps
    | with_reducible apply State.trainFlash_keeps | with_reducible apply State.wr_keeps | with_reducible apply Keeps.foldl
    | with_reducible refine KeepsMk.of ?_ | with_reducible apply Keeps.ite | lift_lets -underBinder | simp -proj only [Keeps.mk_eq, TierSt.frames_mk]

theorem State.adopt_keeps {s0 s : State} (hk : Keeps s0 s) (b : Nat) (bad : Nat → Bool) : Keeps s0 (State.adopt s b bad) := by
  unfold State.adopt
  repeat' first
    | with_reducible assumption | with_reducible apply State.adoptOne_keeps | with_reducible apply State.arrayUpdate_keeps
    | with_reducible apply State.setB_keeps | with_reducible apply State.wrB_keeps | with_reducible apply Keeps.ite

theorem execCarrierAdopted_keeps {s0 s : State} (hk : Keeps s0 s) (bay : Fin 4) (bad : BitVec 8) : KeepsR s0 (execCarrierAdopted bay bad s) := by
  unfold execCarrierAdopted
  repeat' first
    | with_reducible assumption | with_reducible apply State.adopt_keeps | with_reducible apply KeepsR.next | with_reducible apply Keeps.ite

theorem execCarrierRebuildDone_keeps {s0 s : State} (hk : Keeps s0 s) (bay : Fin 4) : KeepsR s0 (execCarrierRebuildDone bay s) := by
  unfold execCarrierRebuildDone
  repeat' first
    | with_reducible assumption | (intro v; clear_value v) | with_reducible apply State.arrayUpdate_keeps
    | with_reducible apply State.rebuildMembers_keeps | with_reducible apply State.setBayState_keeps | with_reducible apply State.setExposed_keeps
    | with_reducible apply KeepsR.next | with_reducible refine KeepsMk.of ?_ | with_reducible apply Keeps.ite | lift_lets -underBinder
    | simp -proj only [Keeps.mk_eq, TierSt.frames_mk]

theorem State.evacuate_keeps {s0 s : State} (hk : Keeps s0 s) (b : Nat) : Keeps s0 (State.evacuate s b) := by
  unfold State.evacuate
  repeat' first
    | with_reducible assumption | with_reducible apply State.setLive_keeps | with_reducible apply State.nextFree_keeps

theorem State.blockRetire_keeps {s0 s : State} (hk : Keeps s0 s) (f : Nat) : Keeps s0 (State.blockRetire s f) := by
  unfold State.blockRetire
  repeat' first
    | with_reducible assumption | with_reducible apply State.arrayUpdate_keeps | with_reducible apply State.evacuate_keeps
    | with_reducible apply State.event_keeps | with_reducible apply State.incErr_keeps | with_reducible apply State.setBay_keeps
    | with_reducible apply State.setBayState_keeps | with_reducible apply State.wr_keeps | with_reducible apply State.wrF_keeps
    | with_reducible apply Keeps.ite

theorem State.nandExpiry_keeps {s0 s : State} (hk : Keeps s0 s) (f : Nat) (lun : Nat) (a : NandOp) : Keeps s0 (State.nandExpiry s f lun a) := by
  unfold State.nandExpiry
  repeat' first
    | with_reducible assumption | (intro v; clear_value v) | with_reducible apply State.blockRetire_keeps | with_reducible apply State.nandBegin_keeps
    | with_reducible apply State.nandResume_keeps | with_reducible refine KeepsMk.of ?_ | lift_lets -underBinder | split
    | simp -proj only [Keeps.mk_eq, TierSt.frames_mk]

theorem execNandOpTimeout_keeps {s0 s : State} (hk : Keeps s0 s) (f : Fin 32) (lun : Fin 16) (op : NandOp) : KeepsR s0 (execNandOpTimeout f lun op s) := by
  unfold execNandOpTimeout
  repeat' first
    | with_reducible assumption | with_reducible apply State.carrierFailed_keeps | with_reducible apply State.incErr_keeps
    | with_reducible apply State.nandExpiry_keeps | with_reducible apply State.setBay_keeps | with_reducible apply KeepsR.next
    | with_reducible apply Keeps.ite

theorem State.ftlWrites_keeps {s0 s : State} (hk : Keeps s0 s) (n : Nat) : Keeps s0 (State.ftlWrites s n) := by
  unfold State.ftlWrites
  repeat' first
    | with_reducible assumption | with_reducible apply State.background_keeps | with_reducible apply State.bgPipe_keeps

theorem execFtlBackgroundWork_keeps {s0 s : State} (hk : Keeps s0 s) (work : FtlWork) : KeepsR s0 (execFtlBackgroundWork work s) := by
  unfold execFtlBackgroundWork
  repeat' first
    | with_reducible assumption | (intro v; clear_value v) | with_reducible apply State.arrayUpdate_keeps
    | with_reducible apply State.blockRetire_keeps | with_reducible apply State.ftlWrites_keeps | with_reducible apply State.incEvt_keeps
    | with_reducible apply State.nandBegin_keeps | with_reducible apply State.rebuildMembers_keeps | with_reducible apply State.rekey_keeps
    | with_reducible apply State.rewriteStripes_keeps | with_reducible apply State.setExposed_keeps | with_reducible apply State.setLive_keeps
    | with_reducible apply KeepsR.next | with_reducible refine KeepsMk.of ?_ | with_reducible apply Keeps.ite | lift_lets -underBinder
    | dsimp -zeta only | split | simp -proj only [Keeps.mk_eq, TierSt.frames_mk]

theorem State.restripeCmd_keeps {s0 s : State} (hk : Keeps s0 s)  : Keeps s0 (State.restripeCmd s) := by
  unfold State.restripeCmd
  repeat' first
    | with_reducible assumption | with_reducible apply State.restripeStart_keeps | with_reducible apply State.setB_keeps

theorem execRestripe_keeps {s0 s : State} (hk : Keeps s0 s)  : KeepsR s0 (execRestripe s) := by
  unfold execRestripe
  repeat' first
    | with_reducible assumption | with_reducible apply State.restripeCmd_keeps | with_reducible apply KeepsR.next

theorem execRestripeComplete_keeps {s0 s : State} (hk : Keeps s0 s)  : KeepsR s0 (execRestripeComplete s) := by
  unfold execRestripeComplete
  repeat' first
    | with_reducible assumption | (intro v; clear_value v) | with_reducible apply State.arrayUpdate_keeps | with_reducible apply State.clrB_keeps
    | with_reducible apply State.event_keeps | with_reducible apply KeepsR.next | with_reducible refine KeepsMk.of ?_ | with_reducible apply Keeps.ite
    | lift_lets -underBinder | simp -proj only [Keeps.mk_eq, TierSt.frames_mk]

theorem execCarrierInsert_keeps {s0 s : State} (hk : Keeps s0 s) (bay : Fin 4) : KeepsR s0 (execCarrierInsert bay s) := by
  unfold execCarrierInsert
  repeat' first
    | with_reducible assumption | (intro v; clear_value v) | with_reducible apply State.setB_keeps | with_reducible apply State.setBay_keeps
    | with_reducible apply State.setBayState_keeps | with_reducible apply State.startCarrier_keeps | with_reducible apply State.wrB_keeps
    | with_reducible apply KeepsR.next | with_reducible refine KeepsMk.free ?_ _ | with_reducible apply Keeps.ite | lift_lets -underBinder
    | simp -proj only [Keeps.mk_eq, TierSt.frames_mk]

theorem State.removeReq_keeps {s0 s : State} (hk : Keeps s0 s) (b : Nat) (press : Bool) : Keeps s0 (State.removeReq s b press) := by
  unfold State.removeReq
  repeat' first
    | with_reducible assumption | with_reducible apply State.event_keeps | with_reducible apply State.setBay_keeps
    | with_reducible apply State.setInd_keeps | with_reducible apply Keeps.ite

theorem State.slotAbort_keeps {s0 s : State} (hk : Keeps s0 s) (b : Nat) : Keeps s0 (State.slotAbort s b) := by
  unfold State.slotAbort
  repeat' first
    | with_reducible assumption | with_reducible apply State.arrayUpdate_keeps | with_reducible apply State.setB_keeps
    | with_reducible apply State.setBay_keeps | with_reducible apply State.setBayState_keeps | with_reducible apply State.setInd_keeps
    | with_reducible apply State.slotIdle_keeps | with_reducible apply Keeps.ite | split

theorem execBayButtonPress_keeps {s0 s : State} (hk : Keeps s0 s) (bay : Fin 4) : KeepsR s0 (execBayButtonPress bay s) := by
  unfold execBayButtonPress
  repeat' first
    | with_reducible assumption | with_reducible apply State.removeReq_keeps | with_reducible apply State.setB_keeps
    | with_reducible apply State.setBay_keeps | with_reducible apply State.setInd_keeps | with_reducible apply State.slotAbort_keeps
    | with_reducible apply KeepsR.next | with_reducible apply Keeps.ite

theorem State.removeCmd_keeps {s0 s : State} (hk : Keeps s0 s) (b : Nat) : Keeps s0 (State.removeCmd s b) := by
  unfold State.removeCmd
  repeat' first
    | with_reducible assumption | with_reducible apply State.removeReq_keeps | with_reducible apply State.wrB_keeps | with_reducible apply Keeps.ite

theorem execRemove_keeps {s0 s : State} (hk : Keeps s0 s) (bay : Fin 4) : KeepsR s0 (execRemove bay s) := by
  unfold execRemove
  repeat' first
    | with_reducible assumption | with_reducible apply State.removeCmd_keeps | with_reducible apply KeepsR.next

theorem execRemovalAbort_keeps {s0 s : State} (hk : Keeps s0 s) (bay : Fin 4) : KeepsR s0 (execRemovalAbort bay s) := by
  unfold execRemovalAbort
  repeat' first
    | with_reducible assumption | with_reducible apply State.slotAbort_keeps | with_reducible apply KeepsR.next

theorem State.slotOff_keeps {s0 s : State} (hk : Keeps s0 s) (b : Nat) : Keeps s0 (State.slotOff s b) := by
  unfold State.slotOff
  repeat' first
    | with_reducible assumption | with_reducible apply State.channelsDown_keeps | with_reducible apply State.event_keeps
    | with_reducible apply State.setBay_keeps | with_reducible apply State.setBayState_keeps | with_reducible apply State.setInd_keeps
    | with_reducible apply State.setLive_keeps | with_reducible apply State.slotIdle_keeps | with_reducible apply State.wrB_keeps

theorem execRemovalWindowExpiry_keeps {s0 s : State} (hk : Keeps s0 s) (bay : Fin 4) : KeepsR s0 (execRemovalWindowExpiry bay s) := by
  unfold execRemovalWindowExpiry
  repeat' first
    | with_reducible assumption | (intro v; clear_value v) | with_reducible apply State.arrayUpdate_keeps | with_reducible apply State.evacuate_keeps
    | with_reducible apply State.membersLost_keeps | with_reducible apply State.reach_keeps | with_reducible apply State.setBay_keeps
    | with_reducible apply State.setBayState_keeps | with_reducible apply State.slotOff_keeps | with_reducible apply KeepsR.next
    | with_reducible apply Keeps.ite | lift_lets -underBinder | split

theorem execEvacuationComplete_keeps {s0 s : State} (hk : Keeps s0 s) (bay : Fin 4) : KeepsR s0 (execEvacuationComplete bay s) := by
  unfold execEvacuationComplete
  repeat' first
    | with_reducible assumption | (intro v; clear_value v) | with_reducible apply State.arrayUpdate_keeps | with_reducible apply State.event_keeps
    | with_reducible apply State.loseMembers_keeps | with_reducible apply State.setExposed_keeps | with_reducible apply State.slotOff_keeps
    | with_reducible apply KeepsR.next | with_reducible refine KeepsMk.of ?_ | with_reducible apply Keeps.ite | lift_lets -underBinder
    | simp -proj only [Keeps.mk_eq, TierSt.frames_mk]

theorem State.powerOnCmd_keeps {s0 s : State} (hk : Keeps s0 s) (b : Nat) : Keeps s0 (State.powerOnCmd s b) := by
  unfold State.powerOnCmd
  repeat' first
    | with_reducible assumption | with_reducible apply State.startCarrier_keeps | with_reducible apply State.wrB_keeps
    | with_reducible apply Keeps.ite

theorem execCarrierPowerOn_keeps {s0 s : State} (hk : Keeps s0 s) (bay : Fin 4) : KeepsR s0 (execCarrierPowerOn bay s) := by
  unfold execCarrierPowerOn
  repeat' first
    | with_reducible assumption | with_reducible apply State.powerOnCmd_keeps | with_reducible apply KeepsR.next

theorem execPowerOnWindowExpiry_keeps {s0 s : State} (hk : Keeps s0 s) (bay : Fin 4) : KeepsR s0 (execPowerOnWindowExpiry bay s) := by
  unfold execPowerOnWindowExpiry
  repeat' first
    | with_reducible assumption | with_reducible apply State.reach_keeps | with_reducible apply State.startCarrier_keeps
    | with_reducible apply KeepsR.next | lift_lets -underBinder | split

theorem execCarrierSurpriseRemoval_keeps {s0 s : State} (hk : Keeps s0 s) (bay : Fin 4) : KeepsR s0 (execCarrierSurpriseRemoval bay s) := by
  unfold execCarrierSurpriseRemoval
  repeat' first
    | with_reducible assumption | (intro v; clear_value v) | with_reducible apply State.carrierFailed_keeps
    | with_reducible apply State.channelsDown_keeps | with_reducible apply State.setB_keeps | with_reducible apply State.setBay_keeps
    | with_reducible apply State.setBayState_keeps | with_reducible apply State.setInd_keeps | with_reducible apply State.slotIdle_keeps
    | with_reducible apply State.wrB_keeps | with_reducible apply KeepsR.next | with_reducible refine KeepsMk.of ?_ | with_reducible apply Keeps.ite
    | lift_lets -underBinder | simp -proj only [Keeps.mk_eq, TierSt.frames_mk]

theorem execSlotOverCurrent_keeps {s0 s : State} (hk : Keeps s0 s) (bay : Fin 4) : KeepsR s0 (execSlotOverCurrent bay s) := by
  unfold execSlotOverCurrent
  repeat' first
    | with_reducible assumption | with_reducible apply State.carrierFailed_keeps | with_reducible apply State.channelsDown_keeps
    | with_reducible apply State.setB_keeps | with_reducible apply State.setInd_keeps | with_reducible apply State.wrB_keeps
    | with_reducible apply KeepsR.next | with_reducible apply Keeps.ite

end Sys2Proof.Machine
end

