-- ==== Sys2Proof/Laws/KeepsCompute.lean ====
section
/-! SUPPORT. Every operation of Machine/Compute.lean keeps what Keeps says. -/

namespace Sys2Proof.Machine

theorem State.setDesc_keeps {s0 s : State} (hk : Keeps s0 s) (q : Nat) (d : DescSt) : Keeps s0 (State.setDesc s q d) := by
  unfold State.setDesc
  repeat' first
    | with_reducible assumption | with_reducible apply State.setQueue_keeps

theorem State.endDesc_keeps {s0 s : State} (hk : Keeps s0 s) (q : Nat) (d : DescSt) (status : Nat) (detail : Nat) : Keeps s0 (State.endDesc s q d status detail) := by
  unfold State.endDesc
  repeat' first
    | with_reducible assumption | with_reducible apply State.setDesc_keeps | with_reducible apply State.storeGone_keeps

theorem State.setKernel_keeps {s0 s : State} (hk : Keeps s0 s) (k : KernelSt) : Keeps s0 (State.setKernel s k) := by
  unfold State.setKernel
  repeat' first
    | with_reducible assumption | (intro v; clear_value v) | with_reducible refine KeepsMk.of ?_ | lift_lets -underBinder
    | simp -proj only [Keeps.mk_eq, TierSt.frames_mk]

theorem State.compCharge_keeps {s0 s : State} (hk : Keeps s0 s) (p : Nat) (q : Nat) (level : Nat) (cost : Nat) : Keeps s0 (State.compCharge s p q level cost) := by
  unfold State.compCharge
  repeat' first
    | with_reducible assumption | with_reducible apply State.charge_keeps

theorem State.getSpan_keeps {s0 s : State} (hk : Keeps s0 s) (req : Nat) (p : Nat) (a : Nat) (n : Nat) (z_ : Nat) : Keeps s0 (State.getSpan s req p a n z_).1 := by
  induction z_ generalizing s req p a n with
  | zero =>
    unfold State.getSpan
    repeat' first
    | with_reducible assumption
  | succ z_ ih =>
    unfold State.getSpan
    repeat' first
    | with_reducible assumption | (intro v; have hv : Keeps s0 v := ?_; clear_value v) | (intro v; clear_value v) | with_reducible apply ih
    | with_reducible apply State.countUncorr_keeps | with_reducible apply State.getPage_keeps | with_reducible apply State.mapAccess_keeps
    | with_reducible apply State.touchPage_keeps | with_reducible refine Keeps.fst ?_ (by assumption) | with_reducible apply Keeps.ite_fst
    | with_reducible apply Keeps.ite | lift_lets -underBinder | split

theorem State.getBytes_keeps {s0 s : State} (hk : Keeps s0 s) (req : Nat) (p : Nat) (a : Nat) (n : Nat) : Keeps s0 (State.getBytes s req p a n).1 := by
  unfold State.getBytes
  repeat' first
    | with_reducible assumption | with_reducible apply State.getSpan_keeps

theorem State.putRun_keeps {s0 s : State} (hk : Keeps s0 s) (who : Holder) (req : Nat) (level : Nat) (p : Nat) (a : Nat) (n : Nat) (v : Nat) (pos : Nat) (z9_ : Nat) : Keeps s0 (State.putRun s who req level p a n v pos z9_).1 := by
  induction z9_ generalizing s who req level p a n v pos with
  | zero =>
    unfold State.putRun
    repeat' first
    | with_reducible assumption
  | succ z9_ ih =>
    unfold State.putRun
    repeat' first
    | with_reducible assumption | (intro v; have hv : Keeps s0 v := ?_; clear_value v) | (intro v; have hv : Keeps s0 v.1 := ?_; clear_value v)
    | (intro v; clear_value v) | with_reducible apply ih | with_reducible apply State.mapAccess_keeps | with_reducible apply State.putLines_keeps
    | with_reducible apply State.putPage_keeps | with_reducible apply State.storeGone_keeps | with_reducible apply State.storeHeld_keeps
    | with_reducible apply State.touchPage_keeps | with_reducible apply Keeps.ite | with_reducible apply Keeps.ite_fst | lift_lets -underBinder
    | split

theorem State.flashWait_keeps {s0 s : State} (hk : Keeps s0 s) (who : FlashWaiter) (p : Nat) (page : Nat) : Keeps s0 (State.flashWait s who p page) := by
  unfold State.flashWait
  repeat' first
    | with_reducible assumption | (intro v; clear_value v) | with_reducible refine KeepsMk.of ?_ | with_reducible apply Keeps.ite
    | lift_lets -underBinder | simp -proj only [Keeps.mk_eq, TierSt.frames_mk]

theorem State.flashGot_keeps {s0 s : State} (hk : Keeps s0 s) (who : FlashWaiter) (p : Nat) (page : Nat) : Keeps s0 (State.flashGot s who p page) := by
  unfold State.flashGot
  repeat' first
    | with_reducible assumption | (intro v; clear_value v) | with_reducible refine KeepsMk.of ?_ | lift_lets -underBinder
    | simp -proj only [Keeps.mk_eq, TierSt.frames_mk]

theorem State.flashDone_keeps {s0 s : State} (hk : Keeps s0 s) (who : FlashWaiter) : Keeps s0 (State.flashDone s who) := by
  unfold State.flashDone
  repeat' first
    | with_reducible assumption | (intro v; clear_value v) | with_reducible refine KeepsMk.of ?_ | lift_lets -underBinder
    | simp -proj only [Keeps.mk_eq, TierSt.frames_mk]

theorem State.shipTable_keeps {s0 s : State} (hk : Keeps s0 s) (p : Nat) : Keeps s0 (State.shipTable s p) := by
  unfold State.shipTable
  repeat' first
    | with_reducible assumption | with_reducible apply State.shipRec_keeps | with_reducible apply Keeps.ite | lift_lets -underBinder | split

end Sys2Proof.Machine
end

