-- ==== Sys2Proof/Laws/KeepsSync.lean ====
section
/-! SUPPORT. Every operation of Machine/Sync.lean keeps what Keeps says. -/

namespace Sys2Proof.Machine

theorem State.syncDone_keeps {s0 s : State} (hk : Keeps s0 s) (src : SyncSrc) (status : Nat) (value : Nat) : Keeps s0 (State.syncDone s src status value) := by
  unfold State.syncDone
  repeat' first
    | with_reducible assumption | with_reducible apply State.endDesc_keeps | with_reducible apply State.setCore_keeps | split

theorem State.shipObj_keeps {s0 s : State} (hk : Keeps s0 s) (k : Nat) : Keeps s0 (State.shipObj s k) := by
  unfold State.shipObj
  repeat' first
    | with_reducible assumption | with_reducible apply State.shipRec_keeps | with_reducible apply Keeps.ite | split

theorem State.syncChanged_keeps {s0 s : State} (hk : Keeps s0 s) (k : Nat) (src : SyncSrc) (status : Nat) (value : Nat) : Keeps s0 (State.syncChanged s k src status value) := by
  unfold State.syncChanged
  repeat' first
    | with_reducible assumption | (intro v; have hv : Keeps s0 v := ?_; clear_value v) | with_reducible apply State.setCore_keeps
    | with_reducible apply State.setMirPart_keeps | with_reducible apply State.shipObj_keeps | with_reducible apply State.syncDone_keeps
    | with_reducible apply Keeps.ite | lift_lets -underBinder | split

theorem State.wakeWaits_keeps {s0 s : State} (hk : Keeps s0 s) (k : Nat) : Keeps s0 (State.wakeWaits s k) := by
  unfold State.wakeWaits
  repeat' first
    | with_reducible assumption | intro _ | with_reducible apply State.setObj_keeps | with_reducible apply State.syncDone_keeps
    | with_reducible apply Keeps.foldl

theorem State.setValue_keeps {s0 s : State} (hk : Keeps s0 s) (k : Nat) (v : Word) : Keeps s0 (State.setValue s k v) := by
  unfold State.setValue
  repeat' first
    | with_reducible assumption | with_reducible apply State.setObj_keeps | with_reducible apply State.wakeWaits_keeps

theorem State.syncWait_keeps {s0 s : State} (hk : Keeps s0 s) (k : Nat) (r : SyncReq) (kind : WaitKind) : Keeps s0 (State.syncWait s k r kind) := by
  unfold State.syncWait
  repeat' first
    | with_reducible assumption | (intro v; have hv : Keeps s0 v := ?_; clear_value v) | (intro v; clear_value v)
    | with_reducible apply State.setCore_keeps | with_reducible apply State.setObj_keeps | lift_lets -underBinder | split

theorem State.giveLock_keeps {s0 s : State} (hk : Keeps s0 s) (k : Nat) (w : SyncWait) (rest : List SyncWait) (status : Nat) : Keeps s0 (State.giveLock s k w rest status) := by
  unfold State.giveLock
  repeat' first
    | with_reducible assumption | with_reducible apply State.setObj_keeps | with_reducible apply State.syncChanged_keeps

theorem State.syncOp_keeps {s0 s : State} (hk : Keeps s0 s) (k : Nat) (r : SyncReq) : Keeps s0 (State.syncOp s k r) := by
  unfold State.syncOp
  repeat' first
    | with_reducible assumption | (intro v; clear_value v) | with_reducible apply State.giveLock_keeps | with_reducible apply State.setObj_keeps
    | with_reducible apply State.setValue_keeps | with_reducible apply State.syncChanged_keeps | with_reducible apply State.syncDone_keeps
    | with_reducible apply State.syncWait_keeps | with_reducible apply Keeps.ite | lift_lets -underBinder | split

theorem State.compOp_keeps {s0 s : State} (hk : Keeps s0 s) (k : Nat) (op : Nat) (v : Word) : Keeps s0 (State.compOp s k op v) := by
  unfold State.compOp
  repeat' first
    | with_reducible assumption | with_reducible apply State.setValue_keeps | with_reducible apply State.shipObj_keeps
    | with_reducible apply Keeps.ite

theorem State.endWaits_keeps {s0 s : State} (hk : Keeps s0 s) (f : Nat → SyncWait → Bool) (status : Nat) : Keeps s0 (State.endWaits s f status) := by
  unfold State.endWaits
  repeat' first
    | with_reducible assumption | intro _ | with_reducible apply State.setObj_keeps | with_reducible apply State.syncDone_keeps
    | with_reducible apply Keeps.foldl | with_reducible apply Keeps.ite

theorem State.releaseLocks_keeps {s0 s : State} (hk : Keeps s0 s) (p : Nat) : Keeps s0 (State.releaseLocks s p) := by
  unfold State.releaseLocks
  repeat' first
    | with_reducible assumption | (intro v; have hv : Keeps s0 v := ?_; clear_value v) | intro _ | with_reducible apply State.event_keeps
    | with_reducible apply State.giveLock_keeps | with_reducible apply State.setObj_keeps | with_reducible apply State.shipObj_keeps
    | with_reducible apply Keeps.foldl | with_reducible apply Keeps.ite | lift_lets -underBinder | split

theorem State.resetObjs_keeps {s0 s : State} (hk : Keeps s0 s) (f : Nat → Bool) : Keeps s0 (State.resetObjs s f) := by
  unfold State.resetObjs
  repeat' first
    | with_reducible assumption | intro _ | with_reducible apply State.endWaits_keeps | with_reducible apply State.setObj_keeps
    | with_reducible apply State.shipObj_keeps | with_reducible apply Keeps.foldl | with_reducible apply Keeps.ite

theorem State.writeShare_keeps {s0 s : State} (hk : Keeps s0 s) (k : Nat) (mask : Nat) : Keeps s0 (State.writeShare s k mask) := by
  unfold State.writeShare
  repeat' first
    | with_reducible assumption | with_reducible apply State.endWaits_keeps | with_reducible apply State.setObj_keeps
    | with_reducible apply State.shipObj_keeps

theorem execSyncShareWrite_keeps {s0 s : State} (hk : Keeps s0 s) (obj : Fin 8192) (mask : BitVec 32) : KeepsR s0 (execSyncShareWrite obj mask s) := by
  unfold execSyncShareWrite
  repeat' first
    | with_reducible assumption | with_reducible apply State.writeShare_keeps | with_reducible apply KeepsR.next

end Sys2Proof.Machine
end

