-- ==== Sys2Proof/Laws/KeepsQueue.lean ====
section
/-! SUPPORT. Every operation of Machine/Queue.lean keeps what Keeps says. -/

namespace Sys2Proof.Machine

theorem State.enableQueue_keeps {s0 s : State} (hk : Keeps s0 s) (p : Nat) (q : Nat) : Keeps s0 (State.enableQueue s p q) := by
  unfold State.enableQueue
  repeat' first
    | with_reducible assumption | with_reducible apply State.setQueue_keeps | with_reducible apply State.shipTable_keeps
    | with_reducible apply State.wr_keeps | with_reducible apply State.wrB_keeps | with_reducible apply State.wrF_keeps
    | with_reducible apply Keeps.ite

theorem State.disableQueue_keeps {s0 s : State} (hk : Keeps s0 s) (p : Nat) (q : Nat) : Keeps s0 (State.disableQueue s p q) := by
  unfold State.disableQueue
  repeat' first
    | with_reducible assumption | with_reducible apply State.shipTable_keeps | with_reducible apply State.wrB_keeps | with_reducible apply Keeps.ite

theorem execQueueEnable_keeps {s0 s : State} (hk : Keeps s0 s) (q : QueueId) : KeepsR s0 (execQueueEnable q s) := by
  unfold execQueueEnable
  repeat' first
    | with_reducible assumption | with_reducible apply State.enableQueue_keeps | with_reducible apply KeepsR.next | with_reducible apply Keeps.ite
    | lift_lets -underBinder | split

theorem execQueueDisable_keeps {s0 s : State} (hk : Keeps s0 s) (q : QueueId) : KeepsR s0 (execQueueDisable q s) := by
  unfold execQueueDisable
  repeat' first
    | with_reducible assumption | with_reducible apply State.disableQueue_keeps | with_reducible apply KeepsR.next | lift_lets -underBinder | split

theorem State.writeQdCtrl_keeps {s0 s : State} (hk : Keeps s0 s) (p : Nat) (q : Nat) (v : Nat) : Keeps s0 (State.writeQdCtrl s p q v) := by
  unfold State.writeQdCtrl
  repeat' first
    | with_reducible assumption | with_reducible apply State.disableQueue_keeps | with_reducible apply State.enableQueue_keeps
    | with_reducible apply State.wrB_keeps | with_reducible apply State.wrF_keeps | with_reducible apply Keeps.ite

theorem State.writeRingBase_keeps {s0 s : State} (hk : Keeps s0 s) (p : Nat) (q : Nat) (v : Nat) : Keeps s0 (State.writeRingBase s p q v) := by
  unfold State.writeRingBase
  repeat' first
    | with_reducible assumption | with_reducible apply State.shipTable_keeps | with_reducible apply State.wr_keeps
    | with_reducible apply State.wrB_keeps | with_reducible apply Keeps.ite

theorem State.writeSeed_keeps {s0 s : State} (hk : Keeps s0 s) (p : Nat) (q : Nat) (v : Word) : Keeps s0 (State.writeSeed s p q v) := by
  unfold State.writeSeed
  repeat' first
    | with_reducible assumption | with_reducible apply State.shipTable_keeps | with_reducible apply State.wr_keeps

theorem execQdSeedWrite_keeps {s0 s : State} (hk : Keeps s0 s) (q : QueueId) (seed : Word) : KeepsR s0 (execQdSeedWrite q seed s) := by
  unfold execQdSeedWrite
  repeat' first
    | with_reducible assumption | with_reducible apply State.writeSeed_keeps | with_reducible apply KeepsR.next | lift_lets -underBinder | split

theorem State.doorbell_keeps {s0 s : State} (hk : Keeps s0 s) (p : Nat) (q : Nat) (link : Nat) (ld : Nat) (t : Nat) : Keeps s0 (State.doorbell s p q link ld t) := by
  unfold State.doorbell
  repeat' first
    | with_reducible assumption | with_reducible apply State.raise_keeps | with_reducible apply State.setB_keeps
    | with_reducible apply State.setQueue_keeps | with_reducible apply State.shipTable_keeps | with_reducible apply State.wr_keeps
    | with_reducible apply State.wrB_keeps | with_reducible apply Keeps.ite

theorem execDoorbell_keeps {s0 s : State} (hk : Keeps s0 s) (link : LinkId) (ld : LdId) (q : QueueId) (tail : BitVec 32) : KeepsR s0 (execDoorbell link ld q tail s) := by
  unfold execDoorbell
  repeat' first
    | with_reducible assumption | intro _ | with_reducible apply State.doorbell_keeps | with_reducible apply State.onBar0_keeps
    | with_reducible apply KeepsR.next | with_reducible apply Keeps.ite

theorem State.fetchStop_keeps {s0 s : State} (hk : Keeps s0 s) (p : Nat) (q : Nat) (status : Nat) : Keeps s0 (State.fetchStop s p q status) := by
  unfold State.fetchStop
  repeat' first
    | with_reducible assumption | with_reducible apply State.flashDone_keeps | with_reducible apply State.raise_keeps
    | with_reducible apply State.setB_keeps | with_reducible apply State.shipTable_keeps | with_reducible apply State.wrB_keeps
    | with_reducible apply State.wrF_keeps

theorem State.fetchDesc_keeps {s0 s : State} (hk : Keeps s0 s) (p : Nat) (q : Nat) : Keeps s0 (State.fetchDesc s p q) := by
  unfold State.fetchDesc
  repeat' first
    | with_reducible assumption | with_reducible apply State.fetchStop_keeps | with_reducible apply State.flashDone_keeps
    | with_reducible apply State.flashWait_keeps | with_reducible apply State.getBytes_keeps | with_reducible apply State.setQueue_keeps
    | with_reducible apply State.shipTable_keeps | with_reducible apply State.wr_keeps | with_reducible refine Keeps.fst ?_ (by assumption)
    | with_reducible apply Keeps.ite | lift_lets -underBinder | dsimp -zeta only | split

theorem execDescFetch_keeps {s0 s : State} (hk : Keeps s0 s) (q : QueueId) : KeepsR s0 (execDescFetch q s) := by
  unfold execDescFetch
  repeat' first
    | with_reducible assumption | with_reducible apply State.fetchDesc_keeps | with_reducible apply KeepsR.next | lift_lets -underBinder | split

theorem State.startDesc_keeps {s0 s : State} (hk : Keeps s0 s) (q n : Nat) (types : Nat → Bool) {p : Nat} {u : State} {d : Option DescSt} (e : State.startDesc s q n types = some (p, u, d)) : Keeps s0 u := by
  unfold State.startDesc at e
  split at e
  · split at e
    · cases e
    · dsimp only at e
      split at e
      · cases e; exact State.endDesc_keeps hk _ _ _ _
      · cases e; exact State.setDesc_keeps hk _ _
  · cases e

theorem execDescNop_keeps {s0 s : State} (hk : Keeps s0 s) (q : QueueId) (n : Nat) : KeepsR s0 (execDescNop q n s) := by
  unfold execDescNop
  repeat' first
    | with_reducible assumption | with_reducible apply State.endDesc_keeps | with_reducible refine State.startDesc_keeps (e := by assumption) ?_ _ _ _
    | with_reducible apply KeepsR.next | lift_lets -underBinder | split

theorem State.descGone_keeps {s0 s : State} (hk : Keeps s0 s) (p : Nat) (q : Nat) (d : DescSt) : Keeps s0 (State.descGone s p q d) := by
  unfold State.descGone
  repeat' first
    | with_reducible assumption | with_reducible apply State.incErr_keeps | with_reducible apply State.incEvt_keeps
    | with_reducible apply State.msix_keeps | with_reducible apply State.setQueue_keeps | with_reducible apply State.shipTable_keeps
    | with_reducible apply State.storeGone_keeps | with_reducible apply Keeps.ite

theorem State.awaitDesc_keeps {s0 s : State} (hk : Keeps s0 s) (p : Nat) (q : Nat) (h : Nat) (d : DescSt) (stage : Nat) : Keeps s0 (State.awaitDesc s p q h d stage) := by
  unfold State.awaitDesc
  repeat' first
    | with_reducible assumption | with_reducible apply State.setDesc_keeps | with_reducible apply State.setMirPart_keeps

theorem State.descFinish_keeps {s0 s : State} (hk : Keeps s0 s) (p : Nat) (q : Nat) (d : DescSt) : Keeps s0 (State.descFinish s p q d) := by
  unfold State.descFinish
  repeat' first
    | with_reducible assumption | (intro v; have hv : Keeps s0 v := ?_; clear_value v) | (intro v; clear_value v)
    | with_reducible apply State.awaitDesc_keeps | with_reducible apply State.compOp_keeps | with_reducible apply State.descGone_keeps
    | with_reducible apply Keeps.ite | lift_lets -underBinder | split

theorem State.descComplete_keeps {s0 s : State} (hk : Keeps s0 s) (p : Nat) (q : Nat) (d : DescSt) : Keeps s0 (State.descComplete s p q d) := by
  unfold State.descComplete
  repeat' first
    | with_reducible assumption | (intro v; have hv : Keeps s0 v.1 := ?_; clear_value v)
    | (intro v; have hp2 : ∀ t a b, Keeps s0 t → Keeps s0 (v t a b).1 := ?_; clear_value v) | (intro v; clear_value v) | intro _
    | with_reducible apply State.atLevel_keeps | with_reducible apply State.awaitDesc_keeps | with_reducible apply State.compCharge_keeps
    | with_reducible apply State.descFinish_keeps | with_reducible apply State.nospaceRefusal_keeps | with_reducible apply State.putRun_keeps
    | with_reducible apply State.setB_keeps | with_reducible apply State.setDesc_keeps | with_reducible apply State.wrB_keeps
    | with_reducible apply hp2 | with_reducible refine Keeps.fst ?_ (by assumption) | with_reducible apply Keeps.ite | lift_lets -underBinder
    | dsimp -zeta only | subst v | split

theorem State.hintEnd_keeps {s0 s : State} (hk : Keeps s0 s) (q : Nat) (d : DescSt) : Keeps s0 (State.hintEnd s q d) := by
  unfold State.hintEnd
  repeat' first
    | with_reducible assumption | (intro v; have hv : TierSt := v; clear hv; subst v) | with_reducible apply State.endDesc_keeps
    | with_reducible refine KeepsMk.of ?_ | with_reducible apply Keeps.ite | lift_lets -underBinder | simp -proj only [Keeps.mk_eq, TierSt.frames_mk]

theorem execDescComplete_keeps {s0 s : State} (hk : Keeps s0 s) (q : QueueId) (n : Nat) : KeepsR s0 (execDescComplete q n s) := by
  unfold execDescComplete
  repeat' first
    | with_reducible assumption | (intro v; have hv : Keeps s0 v := ?_; clear_value v) | with_reducible apply State.descComplete_keeps
    | with_reducible apply State.hintEnd_keeps | with_reducible apply KeepsR.next | with_reducible apply Keeps.ite | lift_lets -underBinder | split

end Sys2Proof.Machine
end

