-- ==== Sys2Proof/Laws/KeepsQueueWork.lean ====
section
/-! SUPPORT. Every operation of Machine/QueueWork.lean keeps what Keeps says. -/

namespace Sys2Proof.Machine

theorem State.moveEnd_keeps {s0 s : State} (hk : Keeps s0 s) (q : Nat) (d : DescSt) (o : Nat) (status : Nat) (pos : Nat) : Keeps s0 (State.moveEnd s q d o status pos) := by
  unfold State.moveEnd
  repeat' first
    | with_reducible assumption | with_reducible apply State.endDesc_keeps | with_reducible apply State.setDesc_keeps
    | with_reducible apply State.setMirPart_keeps | with_reducible apply Keeps.ite

theorem State.pieceSource_keeps {s0 s : State} (hk : Keeps s0 s) (p : Nat) (d : DescSt) (dst : Nat) (pos : Nat) (m : Nat) : Keeps s0 (State.pieceSource s p d dst pos m).1 := by
  unfold State.pieceSource
  repeat' first
    | with_reducible assumption | with_reducible apply State.getBytes_keeps | with_reducible apply Keeps.ite_fst | lift_lets -underBinder | split

theorem State.moveRun_keeps {s0 s : State} (hk : Keeps s0 s) (p : Nat) (q : Nat) (d : DescSt) (a : Nat) : Keeps s0 (State.moveRun s p q d a) := by
  induction a generalizing s p q d with
  | zero =>
    unfold State.moveRun
    repeat' first
    | with_reducible assumption
  | succ a ih =>
    unfold State.moveRun
    repeat' first
    | with_reducible assumption | (intro v; have hv : Keeps s0 v := ?_; clear_value v) | (intro v; clear_value v) | with_reducible apply ih
    | with_reducible apply State.atLevel_keeps | with_reducible apply State.compCharge_keeps | with_reducible apply State.endDesc_keeps
    | with_reducible apply State.flashDone_keeps | with_reducible apply State.flashWait_keeps | with_reducible apply State.moveEnd_keeps
    | with_reducible apply State.nospaceRefusal_keeps | with_reducible apply State.pieceSource_keeps | with_reducible apply State.putRun_keeps
    | with_reducible apply State.sendUp_keeps | with_reducible apply State.setDesc_keeps | with_reducible refine Keeps.fst ?_ (by assumption)
    | with_reducible apply Keeps.ite | lift_lets -underBinder | dsimp -zeta only | split

theorem State.hostAsk_keeps {s0 s : State} (hk : Keeps s0 s) (q : Nat) (d : DescSt) (a : Nat) : Keeps s0 (State.hostAsk s q d a).1 := by
  induction a generalizing s q d with
  | zero =>
    unfold State.hostAsk
    repeat' first
    | with_reducible assumption
  | succ a ih =>
    unfold State.hostAsk
    repeat' first
    | with_reducible assumption | with_reducible apply ih | with_reducible apply State.sendUp_keeps | with_reducible apply State.setLink_keeps
    | with_reducible apply Keeps.ite_fst

theorem State.askOn_keeps {s0 s : State} (hk : Keeps s0 s) (q : Nat) (d : DescSt) : Keeps s0 (State.askOn s q d) := by
  unfold State.askOn
  repeat' first
    | with_reducible assumption | with_reducible apply State.hostAsk_keeps | with_reducible apply State.setDesc_keeps

theorem State.moveStart_keeps {s0 s : State} (hk : Keeps s0 s) (p : Nat) (q : Nat) (d : DescSt) : Keeps s0 (State.moveStart s p q d) := by
  unfold State.moveStart
  repeat' first
    | with_reducible assumption | with_reducible apply State.askOn_keeps | with_reducible apply State.endDesc_keeps
    | with_reducible apply State.moveRun_keeps | with_reducible apply Keeps.ite

theorem State.moveGoOn_keeps {s0 s : State} (hk : Keeps s0 s) (q : Nat) (n : Nat) (ty : Nat) : Keeps s0 (State.moveGoOn s q n ty) := by
  unfold State.moveGoOn
  repeat' first
    | with_reducible assumption | (intro v; have hv : Keeps s0 v := ?_; clear_value v) | with_reducible apply State.askOn_keeps
    | with_reducible apply State.moveRun_keeps | with_reducible apply Keeps.ite | lift_lets -underBinder | split

theorem State.descMove_keeps {s0 s : State} (hk : Keeps s0 s) (q : Nat) (n : Nat) (ty : Nat) : Keeps s0 (State.descMove s q n ty) := by
  unfold State.descMove
  repeat' first
    | with_reducible assumption | with_reducible apply State.moveGoOn_keeps | with_reducible apply State.moveStart_keeps
    | with_reducible refine State.startDesc_keeps (e := by assumption) ?_ _ _ _ | split

theorem execDescCopy_keeps {s0 s : State} (hk : Keeps s0 s) (q : QueueId) (n : Nat) : KeepsR s0 (execDescCopy q n s) := by
  unfold execDescCopy
  repeat' first
    | with_reducible assumption | with_reducible apply State.descMove_keeps | with_reducible apply KeepsR.next

theorem execDescFill_keeps {s0 s : State} (hk : Keeps s0 s) (q : QueueId) (n : Nat) : KeepsR s0 (execDescFill q n s) := by
  unfold execDescFill
  repeat' first
    | with_reducible assumption | with_reducible apply State.descMove_keeps | with_reducible apply KeepsR.next

theorem State.hostCame_keeps {s0 s : State} (hk : Keeps s0 s) (p : Nat) (x : IoTag) (d : DescSt) (q : Nat) (data : Nat) : Keeps s0 (State.hostCame s p x d q data) := by
  unfold State.hostCame
  repeat' first
    | with_reducible assumption | with_reducible apply State.hostAsk_keeps | with_reducible apply State.moveRun_keeps
    | with_reducible apply State.setDesc_keeps | with_reducible apply Keeps.ite_fst

theorem execCxlioCompletion_keeps {s0 s : State} (hk : Keeps s0 s) (link : LinkId) (tag : Nat) (data : Nat) : KeepsR s0 (execCxlioCompletion link tag data s) := by
  unfold execCxlioCompletion
  repeat' first
    | with_reducible assumption | (intro v; have hv : Keeps s0 v := ?_; clear_value v) | (intro v; clear_value v)
    | with_reducible apply State.hostCame_keeps | with_reducible apply State.incErr_keeps | with_reducible apply State.setLink_keeps
    | with_reducible apply KeepsR.next | with_reducible apply Keeps.ite | lift_lets -underBinder | split

theorem execCxlioCompletionTimeout_keeps {s0 s : State} (hk : Keeps s0 s) (link : LinkId) (tag : Nat) : KeepsR s0 (execCxlioCompletionTimeout link tag s) := by
  unfold execCxlioCompletionTimeout
  repeat' first
    | with_reducible assumption | (intro v; have hv : Keeps s0 v := ?_; clear_value v) | (intro v; clear_value v)
    | with_reducible apply State.endDesc_keeps | with_reducible apply State.incErr_keeps | with_reducible apply State.setLink_keeps
    | with_reducible apply KeepsR.next | with_reducible apply Keeps.ite | lift_lets -underBinder | split

theorem State.hintRun_keeps {s0 s : State} (hk : Keeps s0 s) (q n kind : Nat) (act : State → Nat → Nat → Nat → State) (ha : ∀ t a b c, Keeps s0 t → Keeps s0 (act t a b c)) : Keeps s0 (State.hintRun s q n kind act) := by
  unfold State.hintRun
  repeat' first
    | with_reducible assumption | (intro v; have hf0 : ∀ t , Keeps s0 t → Keeps s0 (v t ) := ?_; clear_value v) | intro _ | with_reducible apply ha
    | with_reducible apply State.hintEnd_keeps | with_reducible apply State.startDesc_keeps (e := by assumption) | with_reducible apply Keeps.foldl
    | with_reducible apply Keeps.ite | lift_lets -underBinder | subst v | dsimp -zeta only | with_reducible apply hf0 | split

theorem execHintPrefetch_keeps {s0 s : State} (hk : Keeps s0 s) (q : QueueId) (n : Nat) : KeepsR s0 (execHintPrefetch q n s) := by
  unfold execHintPrefetch
  repeat' first
    | with_reducible assumption | intro _ | with_reducible apply State.hintRun_keeps | with_reducible apply State.prefetchFrame_keeps
    | with_reducible apply KeepsR.next

theorem execHintPin_keeps {s0 s : State} (hk : Keeps s0 s) (q : QueueId) (n : Nat) : KeepsR s0 (execHintPin q n s) := by
  unfold execHintPin
  repeat' first
    | with_reducible assumption | intro _ | with_reducible apply State.endDesc_keeps | with_reducible apply State.hintRun_keeps
    | with_reducible apply State.pinFrame_keeps | with_reducible refine State.startDesc_keeps (e := by assumption) ?_ _ _ _
    | with_reducible apply KeepsR.next | with_reducible apply Keeps.ite | lift_lets -underBinder | split

theorem execHintUnpin_keeps {s0 s : State} (hk : Keeps s0 s) (q : QueueId) (n : Nat) : KeepsR s0 (execHintUnpin q n s) := by
  unfold execHintUnpin
  repeat' first
    | with_reducible assumption | intro _ | with_reducible apply State.hintRun_keeps | with_reducible apply State.unpinFrame_keeps
    | with_reducible apply KeepsR.next

theorem execHintDemote_keeps {s0 s : State} (hk : Keeps s0 s) (q : QueueId) (n : Nat) : KeepsR s0 (execHintDemote q n s) := by
  unfold execHintDemote
  repeat' first
    | with_reducible assumption | intro _ | with_reducible apply State.demoteFrame_keeps | with_reducible apply State.hintRun_keeps
    | with_reducible apply KeepsR.next

theorem execDescFlush_keeps {s0 s : State} (hk : Keeps s0 s) (q : QueueId) (n : Nat) : KeepsR s0 (execDescFlush q n s) := by
  unfold execDescFlush
  repeat' first
    | with_reducible assumption | with_reducible apply State.endDesc_keeps | with_reducible refine State.startDesc_keeps (e := by assumption) ?_ _ _ _
    | with_reducible apply State.startFlush_keeps | with_reducible apply KeepsR.next | lift_lets -underBinder | split

theorem execFlushComplete_keeps {s0 s : State} (hk : Keeps s0 s) (who : FlushWho) : KeepsR s0 (execFlushComplete who s) := by
  unfold execFlushComplete
  repeat' first
    | with_reducible assumption | (intro v; have hv : Keeps s0 v := ?_; clear_value v) | with_reducible apply State.clrB_keeps
    | with_reducible apply State.endDesc_keeps | with_reducible apply State.flushEnd_keeps | with_reducible apply KeepsR.next
    | with_reducible apply Keeps.ite | lift_lets -underBinder | split

theorem State.scrubPage_keeps {s0 s : State} (hk : Keeps s0 s) (p : Nat) (f : Nat) (k : Nat) (fix : Bool) (replicas : Bool) (x : ScrubSum) : Keeps s0 (State.scrubPage s p f k fix replicas x).1 := by
  unfold State.scrubPage
  repeat' first
    | with_reducible assumption | (intro v; have hv : Keeps s0 v := ?_; clear_value v) | (intro v; clear_value v)
    | with_reducible apply State.background_keeps | with_reducible apply State.countCorr_keeps | with_reducible apply State.countUncorr_keeps
    | with_reducible apply State.drainSlot_keeps | with_reducible apply State.dropReplica_keeps | with_reducible apply State.readStored_keeps
    | with_reducible apply State.touchPage_keeps | with_reducible apply State.writeBack_keeps | with_reducible apply Keeps.ite
    | with_reducible apply Keeps.ite_fst | lift_lets -underBinder | dsimp -zeta only | split

theorem State.scrubSpan_keeps {s0 s : State} (hk : Keeps s0 s) (p : Nat) (a : Nat) (n : Nat) (fix : Bool) (replicas : Bool) : Keeps s0 (State.scrubSpan s p a n fix replicas).1 := by
  unfold State.scrubSpan
  repeat' first
    | with_reducible assumption | intro _ | with_reducible apply State.scrubPage_keeps | with_reducible apply Keeps.foldl_fst

theorem State.putSummary_keeps {s0 s : State} (hk : Keeps s0 s) (p : Nat) (q : Nat) (d : DescSt) (v : Nat) (hostToo : Bool) : Keeps s0 (State.putSummary s p q d v hostToo).1 := by
  unfold State.putSummary
  repeat' first
    | with_reducible assumption | (intro v; clear_value v) | with_reducible apply State.atLevel_keeps
    | with_reducible apply State.nospaceRefusal_keeps | with_reducible apply State.putRun_keeps | with_reducible apply State.sendUp_keeps
    | with_reducible apply Keeps.ite | with_reducible apply Keeps.ite_fst | lift_lets -underBinder | dsimp -zeta only | split

theorem execDescScrub_keeps {s0 s : State} (hk : Keeps s0 s) (q : QueueId) (n : Nat) : KeepsR s0 (execDescScrub q n s) := by
  unfold execDescScrub
  repeat' first
    | with_reducible assumption | with_reducible refine State.startDesc_keeps (e := by assumption) ?_ _ _ _ | with_reducible apply KeepsR.next
    | lift_lets -underBinder | split

theorem execScrubPassComplete_keeps {s0 s : State} (hk : Keeps s0 s) (q : QueueId) (n : Nat) : KeepsR s0 (execScrubPassComplete q n s) := by
  unfold execScrubPassComplete
  repeat' first
    | with_reducible assumption | (intro v; clear_value v) | with_reducible apply State.endDesc_keeps | with_reducible apply State.putSummary_keeps
    | with_reducible apply State.scrubSpan_keeps | with_reducible apply KeepsR.next | with_reducible refine Keeps.fst ?_ (by assumption)
    | with_reducible apply Keeps.ite | lift_lets -underBinder | dsimp -zeta only | split

end Sys2Proof.Machine
end

