-- ==== Sys2Proof/Laws/KeepsKernel.lean ====
section
/-! SUPPORT. Every operation of Machine/Kernel.lean keeps what Keeps says. -/

namespace Sys2Proof.Machine

theorem State.readTable_keeps {s0 s : State} (hk : Keeps s0 s) (p : Nat) (a : Nat) (n : Nat) (off : Nat) (check : Nat → List (Nat × Nat)) : Keeps s0 (State.readTable s p a n off check).1 := by
  unfold State.readTable
  repeat' first
    | with_reducible assumption | with_reducible apply State.getBytes_keeps | with_reducible refine Keeps.fst ?_ (by assumption) | split

theorem State.stepsCheck_keeps {s0 s : State} (hk : Keeps s0 s) (p : Nat) (a : Nat) (n : Nat) (cols : Nat) (off : Nat) : Keeps s0 (State.stepsCheck s p a n cols off).1 := by
  unfold State.stepsCheck
  repeat' first
    | with_reducible assumption | with_reducible apply State.readTable_keeps

theorem TableCheck.next_keeps {s0 : State} {r : State × TableCheck} {f : State → State × TableCheck} (hr : Keeps s0 r.1) (hf : ∀ t, Keeps s0 t → Keeps s0 (f t).1) : Keeps s0 (TableCheck.next r f).1 := by
  unfold TableCheck.next
  split
  · exact hf _ (Keeps.fst hr rfl)
  · exact hr

theorem State.libCheck_keeps {s0 s : State} (hk : Keeps s0 s) (p : Nat) (b : List Byte) : Keeps s0 (State.libCheck s p b).1 := by
  unfold State.libCheck
  repeat' first
    | with_reducible assumption | (intro v; have hp1 : ∀ t a, Keeps s0 t → Keeps s0 (v t a).1 := ?_; clear_value v) | (intro v; clear_value v)
    | intro _ | with_reducible apply TableCheck.next_keeps | with_reducible apply State.readTable_keeps | with_reducible apply State.stepsCheck_keeps
    | lift_lets -underBinder | with_reducible apply hp1 | split

theorem State.descWait_keeps {s0 s : State} (hk : Keeps s0 s) (q : Nat) (n : Nat) (o : Nat) (page : Nat) : Keeps s0 (State.descWait s q n o page) := by
  unfold State.descWait
  repeat' first
    | with_reducible assumption | with_reducible apply State.flashWait_keeps

theorem State.readArgs_keeps {s0 s : State} (hk : Keeps s0 s) (p : Nat) (a : Nat) : Keeps s0 (State.readArgs s p a).1 := by
  unfold State.readArgs
  repeat' first
    | with_reducible assumption | with_reducible apply State.getBytes_keeps | with_reducible refine Keeps.fst ?_ (by assumption)
    | with_reducible apply Keeps.ite_fst | split

theorem State.launchCheck_keeps {s0 s : State} (hk : Keeps s0 s) (p : Nat) (a : Nat) (b : List Byte) : Keeps s0 (State.launchCheck s p a b).1 := by
  unfold State.launchCheck
  repeat' first
    | with_reducible assumption | (intro v; clear_value v) | with_reducible apply State.getBytes_keeps | with_reducible apply State.libCheck_keeps
    | with_reducible refine Keeps.fst ?_ (by assumption) | with_reducible apply Keeps.ite_fst | lift_lets -underBinder | split

theorem execDescLaunch_keeps {s0 s : State} (hk : Keeps s0 s) (q : QueueId) (n : Nat) : KeepsR s0 (execDescLaunch q n s) := by
  unfold execDescLaunch
  repeat' first
    | with_reducible assumption | (intro v; have hv : Keeps s0 v := ?_; clear_value v) | (intro v; clear_value v)
    | with_reducible apply State.descWait_keeps | with_reducible apply State.endDesc_keeps | with_reducible apply State.flashDone_keeps
    | with_reducible apply State.launchCheck_keeps | with_reducible apply State.readArgs_keeps | with_reducible apply State.setDesc_keeps
    | with_reducible apply State.wakeBy_keeps | with_reducible apply KeepsR.next | with_reducible refine Keeps.fst ?_ (by assumption)
    | with_reducible refine KeepsMk.of ?_ | with_reducible apply Keeps.ite | lift_lets -underBinder | split
    | simp -proj only [Keeps.mk_eq, TierSt.frames_mk]

theorem State.startKernel_keeps {s0 s : State} (hk : Keeps s0 s) (k : KernelSt) (cl : List Nat) (code : List Word) (fault : Option EndCause) : Keeps s0 (State.startKernel s k cl code fault) := by
  unfold State.startKernel
  repeat' first
    | with_reducible assumption | (intro v; have hv : Keeps s0 v := ?_; clear_value v) | (intro v; clear_value v) | intro _
    | with_reducible apply State.setCore_keeps | with_reducible apply State.setDesc_keeps | with_reducible apply State.setKernel_keeps
    | with_reducible apply State.shipTable_keeps | with_reducible apply State.wr_keeps | with_reducible apply State.wrB_keeps
    | with_reducible apply State.wrF_keeps | with_reducible apply Keeps.foldl | with_reducible apply Keeps.ite | lift_lets -underBinder | split

theorem State.dropKernel_keeps {s0 s : State} (hk : Keeps s0 s) (id : Nat) : Keeps s0 (State.dropKernel s id) := by
  unfold State.dropKernel
  repeat' first
    | with_reducible assumption | (intro v; have hv : Keeps s0 v := ?_; clear_value v) | (intro v; clear_value v)
    | with_reducible apply State.storeGone_keeps | with_reducible refine KeepsMk.of ?_ | lift_lets -underBinder
    | simp -proj only [Keeps.mk_eq, TierSt.frames_mk]

theorem execKernelDispatch_keeps {s0 s : State} (hk : Keeps s0 s) (p : PartId) : KeepsR s0 (execKernelDispatch p s) := by
  unfold execKernelDispatch
  repeat' first
    | with_reducible assumption | (intro v; clear_value v) | with_reducible apply State.dropKernel_keeps | with_reducible apply State.endDesc_keeps
    | with_reducible apply State.flashDone_keeps | with_reducible apply State.flashWait_keeps | with_reducible apply State.getBytes_keeps
    | with_reducible apply State.startKernel_keeps | with_reducible apply State.wakeBy_keeps | with_reducible apply KeepsR.next
    | with_reducible refine Keeps.fst ?_ (by assumption) | with_reducible refine KeepsMk.of ?_ | with_reducible apply Keeps.ite
    | lift_lets -underBinder | dsimp -zeta only | split | simp -proj only [Keeps.mk_eq, TierSt.frames_mk]

theorem State.dropCoreWaits_keeps {s0 s : State} (hk : Keeps s0 s) (l : List Nat) : Keeps s0 (State.dropCoreWaits s l) := by
  unfold State.dropCoreWaits
  repeat' first
    | with_reducible assumption | intro _ | with_reducible apply State.setMirPart_keeps | with_reducible apply State.setObj_keeps
    | with_reducible apply State.storeGone_keeps | with_reducible apply Keeps.foldl

theorem State.kernelFault_keeps {s0 s : State} (hk : Keeps s0 s) (kid : Nat) (c : EndCause) : Keeps s0 (State.kernelFault s kid c) := by
  unfold State.kernelFault
  repeat' first
    | with_reducible assumption | intro _ | with_reducible apply State.dropCoreWaits_keeps | with_reducible apply State.setKernel_keeps
    | with_reducible apply State.wrF_keeps | with_reducible apply Keeps.foldl | with_reducible apply Keeps.ite | split

theorem State.putRecord_keeps {s0 s : State} (hk : Keeps s0 s) (k : KernelSt) (st : Nat) (us : Nat) : Keeps s0 (State.putRecord s k st us).1 := by
  unfold State.putRecord
  repeat' first
    | with_reducible assumption | (intro v; clear_value v) | with_reducible apply State.atLevel_keeps | with_reducible apply State.compCharge_keeps
    | with_reducible apply State.nospaceRefusal_keeps | with_reducible apply State.putRun_keeps | with_reducible apply Keeps.ite_fst
    | lift_lets -underBinder | dsimp -zeta only | split

theorem State.finishKernel_keeps {s0 s : State} (hk : Keeps s0 s) (k : KernelSt) (c : EndCause) (st : Nat) : Keeps s0 (State.finishKernel s k c st) := by
  unfold State.finishKernel
  repeat' first
    | with_reducible assumption | (intro v; have hv : TierSt := v; clear hv; subst v) | (intro v; have hv : Keeps s0 v := ?_; clear_value v)
    | (intro v; have hf1 : ∀ t a, Keeps s0 t → Keeps s0 (v t a) := ?_; clear_value v) | (intro v; clear_value v) | intro _
    | with_reducible apply State.dropCoreWaits_keeps | with_reducible apply State.dropKernel_keeps | with_reducible apply State.endDesc_keeps
    | with_reducible apply State.flashDone_keeps | with_reducible apply State.incErr_keeps | with_reducible apply State.incEvt_keeps
    | with_reducible apply State.raise_keeps | with_reducible apply State.setB_keeps | with_reducible apply State.setCore_keeps
    | with_reducible apply State.wrB_keeps | with_reducible apply State.wrF_keeps | with_reducible apply Keeps.foldl
    | with_reducible refine KeepsMk.of ?_ | with_reducible apply Keeps.ite | lift_lets -underBinder | subst v | with_reducible apply hf1 | split
    | simp -proj only [Keeps.mk_eq, TierSt.frames_mk]

theorem State.endKernel_keeps {s0 s : State} (hk : Keeps s0 s) (k : KernelSt) (c : EndCause) (force : Bool) : Keeps s0 (State.endKernel s k c force) := by
  unfold State.endKernel
  repeat' first
    | with_reducible assumption | with_reducible apply State.finishKernel_keeps | with_reducible apply State.putRecord_keeps
    | with_reducible refine Keeps.fst ?_ (by assumption) | with_reducible apply Keeps.ite | split

theorem State.stopKernels_keeps {s0 s : State} (hk : Keeps s0 s) (p : Nat) (c : EndCause) : Keeps s0 (State.stopKernels s p c) := by
  unfold State.stopKernels
  repeat' first
    | with_reducible assumption | intro _ | with_reducible apply State.dropKernel_keeps | with_reducible apply State.endDesc_keeps
    | with_reducible apply State.endKernel_keeps | with_reducible apply Keeps.foldl | with_reducible apply Keeps.ite | lift_lets -underBinder | split

theorem execKernelTimeLimit_keeps {s0 s : State} (hk : Keeps s0 s) (kid : Nat) : KeepsR s0 (execKernelTimeLimit kid s) := by
  unfold execKernelTimeLimit
  repeat' first
    | with_reducible assumption | with_reducible apply State.kernelFault_keeps | with_reducible apply State.reach_keeps
    | with_reducible apply KeepsR.next | with_reducible apply Keeps.ite | lift_lets -underBinder | split

theorem execFlashWaitTimeout_keeps {s0 s : State} (hk : Keeps s0 s) (who : FlashWaiter) : KeepsR s0 (execFlashWaitTimeout who s) := by
  unfold execFlashWaitTimeout
  repeat' first
    | with_reducible assumption | (intro v; have hv : Keeps s0 v := ?_; clear_value v) | with_reducible apply State.dropKernel_keeps
    | with_reducible apply State.endDesc_keeps | with_reducible apply State.fetchStop_keeps | with_reducible apply State.flashDone_keeps
    | with_reducible apply State.kernelFault_keeps | with_reducible apply State.reach_keeps | with_reducible apply KeepsR.next
    | with_reducible apply Keeps.ite | lift_lets -underBinder | split

theorem execLibraryActivate_keeps {s0 s : State} (hk : Keeps s0 s)  : KeepsR s0 (execLibraryActivate s) := by
  unfold execLibraryActivate
  repeat' first
    | with_reducible assumption | (intro v; clear_value v) | with_reducible apply State.event_keeps | with_reducible apply State.putDigest_keeps
    | with_reducible apply State.wr_keeps | with_reducible apply KeepsR.next | with_reducible refine KeepsMk.of ?_ | lift_lets -underBinder | split
    | simp -proj only [Keeps.mk_eq, TierSt.frames_mk]

end Sys2Proof.Machine
end

