-- ==== Sys2Proof/Laws/KeepsOperand.lean ====
section
/-! SUPPORT. Every operation of Machine/Operand.lean keeps what Keeps says. -/

namespace Sys2Proof.Machine

theorem State.countSpill_keeps {s0 s : State} (hk : Keeps s0 s) (kid : Nat) : Keeps s0 (State.countSpill s kid) := by
  unfold State.countSpill
  repeat' first
    | with_reducible assumption | with_reducible apply State.incEvt_keeps | with_reducible apply State.setKernel_keeps | split

theorem State.countGlare_keeps {s0 s : State} (hk : Keeps s0 s) (kid : Nat) (n : Nat) : Keeps s0 (State.countGlare s kid n) := by
  unfold State.countGlare
  repeat' first
    | with_reducible assumption | with_reducible apply State.incEvt_keeps | with_reducible apply State.setB_keeps
    | with_reducible apply State.setKernel_keeps | with_reducible apply Keeps.ite | lift_lets -underBinder | split

theorem State.kernelFlags_keeps {s0 s : State} (hk : Keeps s0 s) (kid : Nat) (fl : Nat) : Keeps s0 (State.kernelFlags s kid fl) := by
  unfold State.kernelFlags
  repeat' first
    | with_reducible assumption | with_reducible apply State.setB_keeps | with_reducible apply State.setKernel_keeps | with_reducible apply Keeps.ite
    | split

theorem State.clusterDecode_keeps {s0 s : State} (hk : Keeps s0 s) (cl : Nat) (codec : Nat) (err : Bool) : Keeps s0 (State.clusterDecode s cl codec err) := by
  unfold State.clusterDecode
  repeat' first
    | with_reducible assumption | with_reducible apply State.incErr_keeps | with_reducible apply State.incEvt_keeps
    | with_reducible apply State.setB_keeps | with_reducible apply Keeps.ite

theorem State.tldPage_keeps {s0 s : State} (hk : Keeps s0 s) (k : KernelSt) (cl : Nat) (o : Nat) (page : Nat) (fill : Nat) : Keeps s0 (State.tldPage s k cl o page fill).1 := by
  unfold State.tldPage
  repeat' first
    | with_reducible assumption | with_reducible apply State.addPoisonPage_keeps | with_reducible apply State.atLevel_keeps
    | with_reducible apply State.clusterDecode_keeps | with_reducible apply State.compCharge_keeps | with_reducible apply State.countSpill_keeps
    | with_reducible apply State.countUncorr_keeps | with_reducible apply State.demandOnce_keeps | with_reducible apply State.getPage_keeps
    | with_reducible apply State.mapAccess_keeps | with_reducible apply State.readPage_keeps | with_reducible apply State.touchPage_keeps
    | with_reducible refine Keeps.fst ?_ (by assumption) | with_reducible apply Keeps.ite | with_reducible apply Keeps.ite_fst
    | lift_lets -underBinder | split

theorem State.kernelStore_keeps {s0 s : State} (hk : Keeps s0 s) (who : Holder) (k : KernelSt) (a : Nat) (n : Nat) (v : Nat) (pos : Nat) : Keeps s0 (State.kernelStore s who k a n v pos).1 := by
  unfold State.kernelStore
  repeat' first
    | with_reducible assumption | (intro v; have hv : Keeps s0 v := ?_; clear_value v) | (intro v; clear_value v)
    | with_reducible apply State.atLevel_keeps | with_reducible apply State.compCharge_keeps | with_reducible apply State.nospaceRefusal_keeps
    | with_reducible apply State.putRun_keeps | with_reducible apply Keeps.ite_fst | lift_lets -underBinder | dsimp -zeta only | split

theorem State.kernelRead_keeps {s0 s : State} (hk : Keeps s0 s) (k : KernelSt) (a : Nat) (n : Nat) : Keeps s0 (State.kernelRead s k a n).1 := by
  unfold State.kernelRead
  repeat' first
    | with_reducible assumption | with_reducible apply State.addPoisonPage_keeps | with_reducible apply State.getBytes_keeps
    | with_reducible refine Keeps.fst ?_ (by assumption) | split

end Sys2Proof.Machine
end

