-- ==== Sys2Proof/Laws/KeepsLibrary.lean ====
section
/-! SUPPORT. Every operation of Machine/Library.lean keeps what Keeps says. -/

namespace Sys2Proof.Machine

/-- Every state that a part of a library kernel leaves is kept. -/
def KeepsL {α : Type} (s0 : State) (x : Lib α) : Prop :=
  match x with
  | .ok s _ => Keeps s0 s
  | .stop s _ => Keeps s0 s
  | _ => True

theorem KeepsL.ok {α : Type} {s0 s : State} {v : α} (h : Keeps s0 s) : KeepsL s0 (Lib.ok s v) := h
theorem KeepsL.stop {α : Type} {s0 s : State} {c : EndCause} (h : Keeps s0 s) : KeepsL s0 (Lib.stop s c : Lib α) := h
theorem KeepsL.flash {α : Type} {s0 : State} {o p : Nat} : KeepsL s0 (Lib.flash o p : Lib α) := trivial
theorem KeepsL.slot {α : Type} {s0 : State} {o p : Nat} : KeepsL s0 (Lib.slot o p : Lib α) := trivial
theorem KeepsL.ofOk {α : Type} {s0 s : State} {x : Lib α} {v : α} (h : KeepsL s0 x) (e : x = .ok s v) : Keeps s0 s := by subst e; exact h
theorem KeepsL.ofStop {α : Type} {s0 s : State} {x : Lib α} {c : EndCause} (h : KeepsL s0 x) (e : x = .stop s c) : Keeps s0 s := by subst e; exact h
theorem KeepsL.ite {α : Type} {s0 : State} {a b : Lib α} {c : Prop} [Decidable c] (ha : KeepsL s0 a) (hb : KeepsL s0 b) : KeepsL s0 (if c then a else b) := by
  split <;> assumption

theorem Lib.bind_keeps {α β : Type} {s0 : State} {x : Lib α} {f : State → α → Lib β} (hx : KeepsL s0 x) (hf : ∀ t v, Keeps s0 t → KeepsL s0 (f t v)) : KeepsL s0 (x.bind f) := by
  cases x with
  | ok s v => exact hf s v hx
  | stop s c => exact hx
  | flash o p => trivial
  | slot o p => trivial

theorem Lib.each_keeps {α β : Type} {s0 : State} {f : State → α → Lib β} (hf : ∀ t x, Keeps s0 t → KeepsL s0 (f t x)) : ∀ (l : List α) (s : State), Keeps s0 s → KeepsL s0 (Lib.each f l s)
  | [], _, h => h
  | x :: t, s, h => Lib.bind_keeps (hf s x h) (fun _ _ h1 => Lib.bind_keeps (Lib.each_keeps hf t _ h1) (fun _ _ h2 => h2))

theorem libPages_keeps {s0 : State} (kid o : Nat) : ∀ (n a : Nat) (s : State), Keeps s0 s → KeepsL s0 (libPages kid o a n s)
  | 0, _, _, h => h
  | n + 1, a, s, h => by
    unfold libPages
    split
    · exact h
    · dsimp only
      split
      · trivial
      · rename_i e
        exact Keeps.fst (State.tldPage_keeps (State.nextFree_keeps h) _ _ _ _ _) e
      · rename_i e
        exact Lib.bind_keeps (libPages_keeps kid o n _ _ (Keeps.fst (State.tldPage_keeps (State.nextFree_keeps h) _ _ _ _ _) e)) (fun _ _ h2 => h2)

theorem State.libRead_keeps {s0 s : State} (hk : Keeps s0 s) (kid : Nat) (a : Nat) (n : Nat) : KeepsL s0 (State.libRead s kid a n) := by
  unfold State.libRead
  repeat' first
    | with_reducible assumption | intro _ | with_reducible apply Lib.bind_keeps | with_reducible apply libPages_keeps | with_reducible apply KeepsL.ok
    | with_reducible apply KeepsL.stop | with_reducible apply KeepsL.ite | split

theorem State.libWrite_keeps {s0 s : State} (hk : Keeps s0 s) (kid : Nat) (a : Nat) (n : Nat) (v : Nat) : KeepsL s0 (State.libWrite s kid a n v) := by
  unfold State.libWrite
  repeat' first
    | with_reducible assumption | with_reducible apply State.kernelStore_keeps | with_reducible apply KeepsL.ok | with_reducible apply KeepsL.stop
    | with_reducible exact KeepsL.slot | with_reducible refine Keeps.fst ?_ (by assumption) | split

theorem libStream_keeps {s0 : State} (kid f total : Nat) : ∀ (n a : Nat) (t : WStream) (s : State), Keeps s0 s → KeepsL s0 (libStream kid f total n a t s)
  | 0, _, _, _, h => h
  | n + 1, a, t, s, h => by
    unfold libStream
    refine Lib.bind_keeps (State.libRead_keeps h _ _ _) (fun u v hu => ?_)
    dsimp only
    split
    all_goals first | (split; exact hu; exact libStream_keeps kid f total n _ _ _ hu) | (split; all_goals first | exact hu | exact libStream_keeps kid f total n _ _ _ hu)

theorem State.reflectHit_keeps {s0 s : State} (hk : Keeps s0 s) (kid : Nat) (step : Nat) (tm : Nat) (tk : Nat) (col : Nat) (row : Nat) : Keeps s0 (State.reflectHit s kid step tm tk col row) := by
  unfold State.reflectHit
  repeat' first
    | with_reducible assumption | with_reducible apply State.incErr_keeps | with_reducible apply State.raiseGathered_keeps
    | with_reducible apply State.setB_keeps | with_reducible apply State.setKernel_keeps | with_reducible apply State.wr_keeps | split

theorem State.reflectTile_keeps {s0 s : State} (hk : Keeps s0 s) (kid : Nat) (step : Nat) (tm : Nat) (tk : Nat) (wide : Bool) (row : Nat → WRow) (cols : List (Nat × List Num)) (thresh : Nat) : Keeps s0 (State.reflectTile s kid step tm tk wide row cols thresh) := by
  unfold State.reflectTile
  repeat' first
    | with_reducible assumption | intro _ | with_reducible apply State.reflectHit_keeps | with_reducible apply Keeps.foldl | lift_lets -underBinder
    | split

theorem State.reflectStep_keeps {s0 s : State} (hk : Keeps s0 s) (kid : Nat) (step : Nat) (base : Nat) (x : Step) (row : Nat → Nat → Nat → WRow) (cols : List (List Num)) : Keeps s0 (State.reflectStep s kid step base x row cols) := by
  unfold State.reflectStep
  repeat' first
    | with_reducible assumption | intro _ | with_reducible apply State.reflectTile_keeps | with_reducible apply Keeps.foldl
    | with_reducible apply Keeps.ite | split

theorem State.libMatmul_keeps {s0 s : State} (hk : Keeps s0 s) (kid : Nat) (step : Nat) (base : Nat) (x : Step) (ncol : Nat) : KeepsL s0 (State.libMatmul s kid step base x ncol) := by
  unfold State.libMatmul
  repeat' first
    | with_reducible assumption | intro _ | with_reducible apply Lib.bind_keeps | with_reducible apply State.countGlare_keeps
    | with_reducible apply State.kernelFlags_keeps | with_reducible apply State.libRead_keeps | with_reducible apply libStream_keeps
    | with_reducible apply State.libWrite_keeps | with_reducible apply State.reflectStep_keeps | with_reducible apply State.setB_keeps
    | with_reducible apply KeepsL.ok | with_reducible apply KeepsL.ite | with_reducible apply Keeps.ite | lift_lets -underBinder | dsimp -zeta only
    | split

theorem State.libOther_keeps {s0 s : State} (hk : Keeps s0 s) (kid : Nat) (e : Nat) (x : Step) (ncol : Nat) : KeepsL s0 (State.libOther s kid e x ncol) := by
  unfold State.libOther
  repeat' first
    | with_reducible assumption | intro _ | with_reducible apply Lib.bind_keeps | with_reducible apply State.libRead_keeps
    | with_reducible apply State.libWrite_keeps | with_reducible apply KeepsL.ok | with_reducible apply State.nextFree_keeps

theorem libSteps_keeps {s0 : State} (kid ncol : Nat) : ∀ (l : List Nat) (step base : Nat) (last : List Nat) (s : State), Keeps s0 s → KeepsL s0 (libSteps kid ncol l step base last s)
  | [], _, _, _, _, h => h
  | e :: t, step, base, last, s, h => by
    unfold libSteps
    dsimp only
    split
    · exact Lib.bind_keeps (State.libMatmul_keeps h _ _ _ _ _) (fun _ _ h2 => libSteps_keeps kid ncol t _ _ _ _ h2)
    · exact Lib.bind_keeps (State.libOther_keeps h _ _ _ _) (fun _ _ h2 => libSteps_keeps kid ncol t _ _ _ _ h2)

theorem State.libList_keeps {s0 s : State} (hk : Keeps s0 s) (kid : Nat) (a : Nat) (n : Nat) (ncol : Nat) : KeepsL s0 (State.libList s kid a n ncol) := by
  unfold State.libList
  repeat' first
    | with_reducible assumption | intro _ | with_reducible apply Lib.bind_keeps | with_reducible apply State.libRead_keeps
    | with_reducible apply libSteps_keeps

theorem State.libOut_keeps {s0 s : State} (hk : Keeps s0 s) (kid : Nat) (out : Nat) : KeepsL s0 (State.libOut s kid out) := by
  unfold State.libOut
  repeat' first
    | with_reducible assumption | with_reducible apply State.setKernel_keeps | with_reducible apply KeepsL.ok | lift_lets -underBinder | split

theorem State.libFree_keeps {s0 s : State} (hk : Keeps s0 s) (kid : Nat) (a : Nat) (n : Nat) : KeepsL s0 (State.libFree s kid a n) := by
  unfold State.libFree
  repeat' first
    | with_reducible assumption | with_reducible apply State.libWrite_keeps | with_reducible apply KeepsL.ok
    | with_reducible apply State.nextFree_keeps | dsimp -zeta only | split

theorem State.libRun_keeps {s0 s : State} (hk : Keeps s0 s) (k : KernelSt) : KeepsL s0 (State.libRun s k) := by
  unfold State.libRun
  repeat' first
    | with_reducible assumption | (intro v; clear_value v) | intro _ | with_reducible apply Lib.bind_keeps | with_reducible apply Lib.each_keeps
    | with_reducible apply State.libFree_keeps | with_reducible apply State.libList_keeps | with_reducible apply State.libOut_keeps
    | with_reducible apply State.libRead_keeps | with_reducible apply State.libWrite_keeps | with_reducible apply State.prefetchFrame_keeps
    | with_reducible apply Keeps.foldl | with_reducible apply KeepsL.ok | with_reducible apply KeepsL.ite | with_reducible apply State.nextFree_keeps
    | with_reducible apply Keeps.ite | lift_lets -underBinder | dsimp -zeta only | split

theorem State.libEnd_keeps {s0 s : State} (hk : Keeps s0 s) (kid : Nat) (c : EndCause) : Keeps s0 (State.libEnd s kid c) := by
  unfold State.libEnd
  repeat' first
    | with_reducible assumption | with_reducible apply State.endKernel_keeps | with_reducible apply State.setKernel_keeps | split

theorem execKernelEnd_keeps {s0 s : State} (hk : Keeps s0 s) (kid : Nat) (cause : EndCause) : KeepsR s0 (execKernelEnd kid cause s) := by
  unfold execKernelEnd
  repeat' first
    | with_reducible assumption | with_reducible apply State.demandOnce_keeps | with_reducible apply State.endKernel_keeps
    | with_reducible apply State.flashWait_keeps | with_reducible apply State.libEnd_keeps | with_reducible apply State.libRun_keeps
    | with_reducible apply State.mapAccess_keeps | with_reducible apply State.quotaSeal_keeps | with_reducible apply State.storeHeld_keeps
    | with_reducible apply State.touchPage_keeps | with_reducible refine KeepsL.ofOk ?_ (by assumption)
    | with_reducible refine KeepsL.ofStop ?_ (by assumption) | with_reducible apply KeepsR.next | with_reducible apply Keeps.ite
    | lift_lets -underBinder | split

end Sys2Proof.Machine
end

