-- ==== Sys2Proof/Laws/KeepsTile.lean ====
section
/-! SUPPORT. Every operation of Machine/Tile.lean keeps what Keeps says. -/

namespace Sys2Proof.Machine

theorem State.tile_keeps {s0 s : State} (hk : Keeps s0 s) (c op : Nat) (f : State → KernelSt → CoreSt → Word → State) (hf : ∀ t k x w, Keeps s0 t → Keeps s0 (f t k x w)) : KeepsR s0 (State.tile s c op f) := by
  unfold State.tile
  refine KeepsR.next ?_
  split
  · exact hk
  · split
    · exact hf _ _ _ _ hk
    · exact hk

theorem State.spacePut_keeps {s0 s : State} (hk : Keeps s0 s) (c : Nat) (x : CoreSt) (sp : Nat) (em : Nat) (off : Nat) (n : Nat) (v : Nat) : Keeps s0 (State.spacePut s c x sp em off n v) := by
  unfold State.spacePut
  repeat' first
    | with_reducible assumption | (intro v; clear_value v) | with_reducible apply State.setCore_keeps | with_reducible apply Keeps.setShared
    | lift_lets -underBinder | split

theorem State.storeAwait_keeps {s0 s : State} (hk : Keeps s0 s) (c : Nat) (tag : Nat) (o : Nat) (a : Nat) (n : Nat) : Keeps s0 (State.storeAwait s c tag o a n) := by
  unfold State.storeAwait
  repeat' first
    | with_reducible assumption | with_reducible apply State.setMirPart_keeps | with_reducible apply Keeps.ite

theorem State.lastEnd_keeps {s0 s : State} (hk : Keeps s0 s) (c : Nat) : Keeps s0 (State.lastEnd s c) := by
  unfold State.lastEnd
  repeat' first
    | with_reducible assumption | with_reducible apply State.setKernel_keeps | with_reducible apply Keeps.ite | split

/-- A core that can issue belongs to a kernel that no time limit has stopped. -/
theorem State.lastEnd_of_issue {s : State} {c : Nat} {k : KernelSt} {x : CoreSt} {w : Word} (h : s.issue c = some (k, x, w)) : s.lastEnd c = s := by
  unfold State.issue at h
  unfold State.lastEnd
  cases hid : (s.core c).kid with
  | none => rfl
  | some id =>
    simp only [hid] at h
    cases hk : s.kernel id with
    | none => simp [Option.bind, hk]
    | some k' =>
      simp only [hk] at h
      split at h
      · rename_i hc
        simp only [Bool.and_eq_true, Option.isNone_iff_eq_none] at hc
        simp [Option.bind, hk, hc.1.1.1.2]
      · cases h

theorem execTEnd_keeps {s0 s : State} (hk : Keeps s0 s) (core : CoreId) : KeepsR s0 (execTEnd core s) := by
  unfold execTEnd
  repeat' first
    | with_reducible assumption | with_reducible apply State.lastEnd_keeps | with_reducible apply State.setCore_keeps
    | with_reducible apply State.wrF_keeps | with_reducible apply Keeps.ite | with_reducible apply KeepsR.next | split

theorem execTNop_keeps {s0 s : State} (hk : Keeps s0 s) (core : CoreId) : KeepsR s0 (execTNop core s) := by
  unfold execTNop
  repeat' first
    | with_reducible assumption | intro _ | with_reducible apply State.setCore_keeps | with_reducible apply State.tile_keeps

theorem execTBra_keeps {s0 s : State} (hk : Keeps s0 s) (core : CoreId) : KeepsR s0 (execTBra core s) := by
  unfold execTBra
  repeat' first
    | with_reducible assumption | intro _ | with_reducible apply State.setCore_keeps | with_reducible apply State.tile_keeps

theorem State.branch_keeps {s0 s : State} (hk : Keeps s0 s) (core : Nat) (op : Nat) (c : Word → Word → Bool) : KeepsR s0 (State.branch s core op c) := by
  unfold State.branch
  repeat' first
    | with_reducible assumption | intro _ | with_reducible apply State.setCore_keeps | with_reducible apply State.tile_keeps

theorem execTBeq_keeps {s0 s : State} (hk : Keeps s0 s) (core : CoreId) : KeepsR s0 (execTBeq core s) := by
  unfold execTBeq
  repeat' first
    | with_reducible assumption | with_reducible apply State.branch_keeps

theorem execTBne_keeps {s0 s : State} (hk : Keeps s0 s) (core : CoreId) : KeepsR s0 (execTBne core s) := by
  unfold execTBne
  repeat' first
    | with_reducible assumption | with_reducible apply State.branch_keeps

theorem execTBlt_keeps {s0 s : State} (hk : Keeps s0 s) (core : CoreId) : KeepsR s0 (execTBlt core s) := by
  unfold execTBlt
  repeat' first
    | with_reducible assumption | with_reducible apply State.branch_keeps

theorem execTBge_keeps {s0 s : State} (hk : Keeps s0 s) (core : CoreId) : KeepsR s0 (execTBge core s) := by
  unfold execTBge
  repeat' first
    | with_reducible assumption | with_reducible apply State.branch_keeps

theorem execTBltu_keeps {s0 s : State} (hk : Keeps s0 s) (core : CoreId) : KeepsR s0 (execTBltu core s) := by
  unfold execTBltu
  repeat' first
    | with_reducible assumption | with_reducible apply State.branch_keeps

theorem execTLps_keeps {s0 s : State} (hk : Keeps s0 s) (core : CoreId) : KeepsR s0 (execTLps core s) := by
  unfold execTLps
  repeat' first
    | with_reducible assumption | intro _ | with_reducible apply State.setCore_keeps | with_reducible apply State.tile_keeps

theorem execTLpb_keeps {s0 s : State} (hk : Keeps s0 s) (core : CoreId) : KeepsR s0 (execTLpb core s) := by
  unfold execTLpb
  repeat' first
    | with_reducible assumption | intro _ | with_reducible apply State.setCore_keeps | with_reducible apply State.tile_keeps

theorem execTGet_keeps {s0 s : State} (hk : Keeps s0 s) (core : CoreId) : KeepsR s0 (execTGet core s) := by
  unfold execTGet
  repeat' first
    | with_reducible assumption | intro _ | with_reducible apply State.setCore_keeps | with_reducible apply State.tile_keeps
    | with_reducible apply State.nextFree_keeps | lift_lets -underBinder | split

theorem execTWaitg_keeps {s0 s : State} (hk : Keeps s0 s) (core : CoreId) : KeepsR s0 (execTWaitg core s) := by
  unfold execTWaitg
  repeat' first
    | with_reducible assumption | intro _ | with_reducible apply State.setCore_keeps | with_reducible apply State.tile_keeps
    | with_reducible apply Keeps.ite

theorem execTBar_keeps {s0 s : State} (hk : Keeps s0 s) (core : CoreId) : KeepsR s0 (execTBar core s) := by
  unfold execTBar
  repeat' first
    | with_reducible assumption | intro _ | with_reducible apply State.setCore_keeps | with_reducible apply State.tile_keeps
    | with_reducible apply Keeps.ite

theorem execBarrierRelease_keeps {s0 s : State} (hk : Keeps s0 s) (kid : Nat) (scope : Nat) : KeepsR s0 (execBarrierRelease kid scope s) := by
  unfold execBarrierRelease
  repeat' first
    | with_reducible assumption | intro _ | with_reducible apply State.setCore_keeps | with_reducible apply Keeps.foldl
    | with_reducible apply KeepsR.next | with_reducible apply Keeps.ite | lift_lets -underBinder | split

theorem State.alu_keeps {s0 s : State} (hk : Keeps s0 s) (core : Nat) (op : Nat) (f : Word → Word → Word) : KeepsR s0 (State.alu s core op f) := by
  unfold State.alu
  repeat' first
    | with_reducible assumption | intro _ | with_reducible apply State.setCore_keeps | with_reducible apply State.tile_keeps

theorem execTAdd_keeps {s0 s : State} (hk : Keeps s0 s) (core : CoreId) : KeepsR s0 (execTAdd core s) := by
  unfold execTAdd
  repeat' first
    | with_reducible assumption | with_reducible apply State.alu_keeps

theorem execTSub_keeps {s0 s : State} (hk : Keeps s0 s) (core : CoreId) : KeepsR s0 (execTSub core s) := by
  unfold execTSub
  repeat' first
    | with_reducible assumption | with_reducible apply State.alu_keeps

theorem execTMul_keeps {s0 s : State} (hk : Keeps s0 s) (core : CoreId) : KeepsR s0 (execTMul core s) := by
  unfold execTMul
  repeat' first
    | with_reducible assumption | with_reducible apply State.alu_keeps

theorem execTAnd_keeps {s0 s : State} (hk : Keeps s0 s) (core : CoreId) : KeepsR s0 (execTAnd core s) := by
  unfold execTAnd
  repeat' first
    | with_reducible assumption | with_reducible apply State.alu_keeps

theorem execTOr_keeps {s0 s : State} (hk : Keeps s0 s) (core : CoreId) : KeepsR s0 (execTOr core s) := by
  unfold execTOr
  repeat' first
    | with_reducible assumption | with_reducible apply State.alu_keeps

theorem execTXor_keeps {s0 s : State} (hk : Keeps s0 s) (core : CoreId) : KeepsR s0 (execTXor core s) := by
  unfold execTXor
  repeat' first
    | with_reducible assumption | with_reducible apply State.alu_keeps

theorem execTShl_keeps {s0 s : State} (hk : Keeps s0 s) (core : CoreId) : KeepsR s0 (execTShl core s) := by
  unfold execTShl
  repeat' first
    | with_reducible assumption | with_reducible apply State.alu_keeps

theorem execTShr_keeps {s0 s : State} (hk : Keeps s0 s) (core : CoreId) : KeepsR s0 (execTShr core s) := by
  unfold execTShr
  repeat' first
    | with_reducible assumption | with_reducible apply State.alu_keeps

theorem execTSra_keeps {s0 s : State} (hk : Keeps s0 s) (core : CoreId) : KeepsR s0 (execTSra core s) := by
  unfold execTSra
  repeat' first
    | with_reducible assumption | with_reducible apply State.alu_keeps

theorem execTMin_keeps {s0 s : State} (hk : Keeps s0 s) (core : CoreId) : KeepsR s0 (execTMin core s) := by
  unfold execTMin
  repeat' first
    | with_reducible assumption | with_reducible apply State.alu_keeps

theorem execTMax_keeps {s0 s : State} (hk : Keeps s0 s) (core : CoreId) : KeepsR s0 (execTMax core s) := by
  unfold execTMax
  repeat' first
    | with_reducible assumption | with_reducible apply State.alu_keeps

theorem execTMovhi_keeps {s0 s : State} (hk : Keeps s0 s) (core : CoreId) : KeepsR s0 (execTMovhi core s) := by
  unfold execTMovhi
  repeat' first
    | with_reducible assumption | intro _ | with_reducible apply State.setCore_keeps | with_reducible apply State.tile_keeps

theorem execTMovi_keeps {s0 s : State} (hk : Keeps s0 s) (core : CoreId) : KeepsR s0 (execTMovi core s) := by
  unfold execTMovi
  repeat' first
    | with_reducible assumption | intro _ | with_reducible apply State.setCore_keeps | with_reducible apply State.tile_keeps

theorem State.fpu_keeps {s0 s : State} (hk : Keeps s0 s) (core : Nat) (op : Nat) (f : Nat → Nat → Nat → Nat) : KeepsR s0 (State.fpu s core op f) := by
  unfold State.fpu
  repeat' first
    | with_reducible assumption | intro _ | with_reducible apply State.setCore_keeps | with_reducible apply State.tile_keeps

theorem execTFadd_keeps {s0 s : State} (hk : Keeps s0 s) (core : CoreId) : KeepsR s0 (execTFadd core s) := by
  unfold execTFadd
  repeat' first
    | with_reducible assumption | with_reducible apply State.fpu_keeps

theorem execTFsub_keeps {s0 s : State} (hk : Keeps s0 s) (core : CoreId) : KeepsR s0 (execTFsub core s) := by
  unfold execTFsub
  repeat' first
    | with_reducible assumption | with_reducible apply State.fpu_keeps

theorem execTFmul_keeps {s0 s : State} (hk : Keeps s0 s) (core : CoreId) : KeepsR s0 (execTFmul core s) := by
  unfold execTFmul
  repeat' first
    | with_reducible assumption | with_reducible apply State.fpu_keeps

theorem execTFdiv_keeps {s0 s : State} (hk : Keeps s0 s) (core : CoreId) : KeepsR s0 (execTFdiv core s) := by
  unfold execTFdiv
  repeat' first
    | with_reducible assumption | with_reducible apply State.fpu_keeps

theorem execTFsqrt_keeps {s0 s : State} (hk : Keeps s0 s) (core : CoreId) : KeepsR s0 (execTFsqrt core s) := by
  unfold execTFsqrt
  repeat' first
    | with_reducible assumption | with_reducible apply State.fpu_keeps

theorem execTFfma_keeps {s0 s : State} (hk : Keeps s0 s) (core : CoreId) : KeepsR s0 (execTFfma core s) := by
  unfold execTFfma
  repeat' first
    | with_reducible assumption | with_reducible apply State.fpu_keeps

theorem execTItof_keeps {s0 s : State} (hk : Keeps s0 s) (core : CoreId) : KeepsR s0 (execTItof core s) := by
  unfold execTItof
  repeat' first
    | with_reducible assumption | with_reducible apply State.fpu_keeps

theorem execTFtoi_keeps {s0 s : State} (hk : Keeps s0 s) (core : CoreId) : KeepsR s0 (execTFtoi core s) := by
  unfold execTFtoi
  repeat' first
    | with_reducible assumption | with_reducible apply State.fpu_keeps

theorem execTFlt_keeps {s0 s : State} (hk : Keeps s0 s) (core : CoreId) : KeepsR s0 (execTFlt core s) := by
  unfold execTFlt
  repeat' first
    | with_reducible assumption | with_reducible apply State.fpu_keeps

theorem execTLd_keeps {s0 s : State} (hk : Keeps s0 s) (core : CoreId) : KeepsR s0 (execTLd core s) := by
  unfold execTLd
  repeat' first
    | with_reducible assumption | intro _ | with_reducible apply State.flashGot_keeps | with_reducible apply State.flashWait_keeps
    | with_reducible apply State.kernelFault_keeps | with_reducible apply State.kernelRead_keeps | with_reducible apply State.setCore_keeps
    | with_reducible apply State.tile_keeps | with_reducible refine Keeps.fst ?_ (by assumption) | with_reducible apply Keeps.ite
    | lift_lets -underBinder | dsimp -zeta only | split

theorem State.coreStore_keeps {s0 s : State} (hk : Keeps s0 s) (core : Nat) (k : KernelSt) (x : CoreSt) (a : Nat) (n : Nat) (v : Nat) (group : Nat) : Keeps s0 (State.coreStore s core k x a n v group) := by
  unfold State.coreStore
  repeat' first
    | with_reducible assumption | with_reducible apply State.kernelFault_keeps | with_reducible apply State.kernelStore_keeps
    | with_reducible apply State.setCore_keeps | with_reducible apply State.storeAwait_keeps | dsimp -zeta only | split

theorem execTSt_keeps {s0 s : State} (hk : Keeps s0 s) (core : CoreId) : KeepsR s0 (execTSt core s) := by
  unfold execTSt
  repeat' first
    | with_reducible assumption | intro _ | with_reducible apply State.coreStore_keeps | with_reducible apply State.spacePut_keeps
    | with_reducible apply State.tile_keeps | with_reducible apply Keeps.ite

theorem execTTld_keeps {s0 s : State} (hk : Keeps s0 s) (core : CoreId) : KeepsR s0 (execTTld core s) := by
  unfold execTTld
  repeat' first
    | with_reducible assumption | intro _ | with_reducible apply State.kernelFault_keeps | with_reducible apply State.setCore_keeps
    | with_reducible apply State.tile_keeps | with_reducible apply Keeps.ite

theorem execTldPageArrive_keeps {s0 s : State} (hk : Keeps s0 s) (core : CoreId) (i : Nat) : KeepsR s0 (execTldPageArrive core i s) := by
  unfold execTldPageArrive
  repeat' first
    | with_reducible assumption | (intro v; clear_value v) | with_reducible apply State.flashGot_keeps | with_reducible apply State.flashWait_keeps
    | with_reducible apply State.kernelFault_keeps | with_reducible apply State.spacePut_keeps | with_reducible apply State.tldPage_keeps
    | with_reducible apply KeepsR.next | with_reducible refine Keeps.fst ?_ (by assumption) | with_reducible apply Keeps.ite | lift_lets -underBinder
    | split

theorem execTTst_keeps {s0 s : State} (hk : Keeps s0 s) (core : CoreId) : KeepsR s0 (execTTst core s) := by
  unfold execTTst
  repeat' first
    | with_reducible assumption | intro _ | with_reducible apply State.coreStore_keeps | with_reducible apply State.tile_keeps
    | with_reducible apply Keeps.ite

theorem execTXfer_keeps {s0 s : State} (hk : Keeps s0 s) (core : CoreId) : KeepsR s0 (execTXfer core s) := by
  unfold execTXfer
  repeat' first
    | with_reducible assumption | intro _ | with_reducible apply State.setCore_keeps | with_reducible apply State.spacePut_keeps
    | with_reducible apply State.tile_keeps | with_reducible apply Keeps.foldl | with_reducible apply Keeps.ite

theorem State.coreSync_keeps {s0 s : State} (hk : Keeps s0 s) (c : Nat) (op : Nat) (src : SyncSrc) : Keeps s0 (State.coreSync s c op src) := by
  unfold State.coreSync
  repeat' first
    | with_reducible assumption | with_reducible apply State.kernelFault_keeps | with_reducible apply State.syncOp_keeps
    | with_reducible apply Keeps.ite | lift_lets -underBinder | split

theorem State.syncCmd_keeps {s0 s : State} (hk : Keeps s0 s) (op : Nat) (src : SyncSrc) : Keeps s0 (State.syncCmd s op src) := by
  unfold State.syncCmd
  repeat' first
    | with_reducible assumption | with_reducible apply State.coreSync_keeps | with_reducible apply State.endDesc_keeps
    | with_reducible refine State.startDesc_keeps (e := by assumption) ?_ _ _ _ | with_reducible apply State.syncOp_keeps
    | with_reducible apply Keeps.ite | lift_lets -underBinder | split

theorem execSyncSet_keeps {s0 s : State} (hk : Keeps s0 s) (src : SyncSrc) : KeepsR s0 (execSyncSet src s) := by
  unfold execSyncSet
  repeat' first
    | with_reducible assumption | with_reducible apply State.syncCmd_keeps | with_reducible apply KeepsR.next

theorem execSyncAdd_keeps {s0 s : State} (hk : Keeps s0 s) (src : SyncSrc) : KeepsR s0 (execSyncAdd src s) := by
  unfold execSyncAdd
  repeat' first
    | with_reducible assumption | with_reducible apply State.syncCmd_keeps | with_reducible apply KeepsR.next

theorem execSyncWaitGe_keeps {s0 s : State} (hk : Keeps s0 s) (src : SyncSrc) : KeepsR s0 (execSyncWaitGe src s) := by
  unfold execSyncWaitGe
  repeat' first
    | with_reducible assumption | with_reducible apply State.syncCmd_keeps | with_reducible apply KeepsR.next

theorem execSyncWaitEq_keeps {s0 s : State} (hk : Keeps s0 s) (src : SyncSrc) : KeepsR s0 (execSyncWaitEq src s) := by
  unfold execSyncWaitEq
  repeat' first
    | with_reducible assumption | with_reducible apply State.syncCmd_keeps | with_reducible apply KeepsR.next

theorem execSyncCompareAndSwap_keeps {s0 s : State} (hk : Keeps s0 s) (src : SyncSrc) : KeepsR s0 (execSyncCompareAndSwap src s) := by
  unfold execSyncCompareAndSwap
  repeat' first
    | with_reducible assumption | with_reducible apply State.syncCmd_keeps | with_reducible apply KeepsR.next

theorem execSyncLock_keeps {s0 s : State} (hk : Keeps s0 s) (src : SyncSrc) : KeepsR s0 (execSyncLock src s) := by
  unfold execSyncLock
  repeat' first
    | with_reducible assumption | with_reducible apply State.syncCmd_keeps | with_reducible apply KeepsR.next

theorem execSyncUnlock_keeps {s0 s : State} (hk : Keeps s0 s) (src : SyncSrc) : KeepsR s0 (execSyncUnlock src s) := by
  unfold execSyncUnlock
  repeat' first
    | with_reducible assumption | with_reducible apply State.syncCmd_keeps | with_reducible apply KeepsR.next

theorem execSyncBarrierArrive_keeps {s0 s : State} (hk : Keeps s0 s) (src : SyncSrc) : KeepsR s0 (execSyncBarrierArrive src s) := by
  unfold execSyncBarrierArrive
  repeat' first
    | with_reducible assumption | with_reducible apply State.syncCmd_keeps | with_reducible apply KeepsR.next

theorem execSyncWaitTimeout_keeps {s0 s : State} (hk : Keeps s0 s) (src : SyncSrc) : KeepsR s0 (execSyncWaitTimeout src s) := by
  unfold execSyncWaitTimeout
  repeat' first
    | with_reducible assumption | with_reducible apply State.reach_keeps | with_reducible apply State.setObj_keeps
    | with_reducible apply State.syncDone_keeps | with_reducible apply KeepsR.next | lift_lets -underBinder | split

end Sys2Proof.Machine
end

