-- ==== Sys2Proof/Laws/KeepsVector.lean ====
section
/-! SUPPORT. Every operation of Machine/Vector.lean keeps what Keeps says. -/

namespace Sys2Proof.Machine

theorem execTMma_keeps {s0 s : State} (hk : Keeps s0 s) (core : CoreId) : KeepsR s0 (execTMma core s) := by
  unfold execTMma
  repeat' first
    | with_reducible assumption | intro _ | with_reducible apply State.countGlare_keeps | with_reducible apply State.kernelFlags_keeps
    | with_reducible apply State.reflectTile_keeps | with_reducible apply State.setB_keeps | with_reducible apply State.setCore_keeps
    | with_reducible apply State.tile_keeps | with_reducible apply Keeps.ite

theorem execTCvt_keeps {s0 s : State} (hk : Keeps s0 s) (core : CoreId) : KeepsR s0 (execTCvt core s) := by
  unfold execTCvt
  repeat' first
    | with_reducible assumption | intro _ | with_reducible apply State.setCore_keeps | with_reducible apply State.spacePut_keeps
    | with_reducible apply State.tile_keeps | with_reducible apply Keeps.foldl | with_reducible apply Keeps.ite

theorem State.vop_keeps {s0 s : State} (hk : Keeps s0 s) (core : CoreId) (fn : Nat) (f : State → KernelSt → CoreSt → Vop → State) (hf : ∀ t k x v, Keeps s0 t → Keeps s0 (f t k x v)) : KeepsR s0 (State.vop s core fn f) := by
  unfold State.vop
  refine State.tile_keeps hk _ _ _ (fun t k x w ht => ?_)
  dsimp only
  split
  · exact ht
  · exact hf _ _ _ _ ht

theorem State.vopMap_keeps {s0 s : State} (hk : Keeps s0 s) (core : CoreId) (fn : Nat) (f : Fmt → Nat → Nat → Nat → Nat) : KeepsR s0 (State.vopMap s core fn f) := by
  unfold State.vopMap
  repeat' first
    | with_reducible assumption | intro _ | with_reducible apply State.kernelFlags_keeps | with_reducible apply State.setCore_keeps
    | with_reducible apply State.vop_keeps

theorem State.vopReduce_keeps {s0 s : State} (hk : Keeps s0 s) (core : CoreId) (fn : Nat) (f : CoreSt → Vop → Nat) : KeepsR s0 (State.vopReduce s core fn f) := by
  unfold State.vopReduce
  repeat' first
    | with_reducible assumption | intro _ | with_reducible apply State.setCore_keeps | with_reducible apply State.vop_keeps

theorem execTVopAdd_keeps {s0 s : State} (hk : Keeps s0 s) (core : CoreId) : KeepsR s0 (execTVopAdd core s) := by
  unfold execTVopAdd
  repeat' first
    | with_reducible assumption | with_reducible apply State.vopMap_keeps

theorem execTVopSub_keeps {s0 s : State} (hk : Keeps s0 s) (core : CoreId) : KeepsR s0 (execTVopSub core s) := by
  unfold execTVopSub
  repeat' first
    | with_reducible assumption | with_reducible apply State.vopMap_keeps

theorem execTVopMul_keeps {s0 s : State} (hk : Keeps s0 s) (core : CoreId) : KeepsR s0 (execTVopMul core s) := by
  unfold execTVopMul
  repeat' first
    | with_reducible assumption | with_reducible apply State.vopMap_keeps

theorem execTVopFma_keeps {s0 s : State} (hk : Keeps s0 s) (core : CoreId) : KeepsR s0 (execTVopFma core s) := by
  unfold execTVopFma
  repeat' first
    | with_reducible assumption | with_reducible apply State.vopMap_keeps

theorem execTVopFnma_keeps {s0 s : State} (hk : Keeps s0 s) (core : CoreId) : KeepsR s0 (execTVopFnma core s) := by
  unfold execTVopFnma
  repeat' first
    | with_reducible assumption | with_reducible apply State.vopMap_keeps

theorem execTVopMax_keeps {s0 s : State} (hk : Keeps s0 s) (core : CoreId) : KeepsR s0 (execTVopMax core s) := by
  unfold execTVopMax
  repeat' first
    | with_reducible assumption | with_reducible apply State.vopMap_keeps

theorem execTVopMin_keeps {s0 s : State} (hk : Keeps s0 s) (core : CoreId) : KeepsR s0 (execTVopMin core s) := by
  unfold execTVopMin
  repeat' first
    | with_reducible assumption | with_reducible apply State.vopMap_keeps

theorem execTVopDiv_keeps {s0 s : State} (hk : Keeps s0 s) (core : CoreId) : KeepsR s0 (execTVopDiv core s) := by
  unfold execTVopDiv
  repeat' first
    | with_reducible assumption | with_reducible apply State.vopMap_keeps

theorem execTVopSqrt_keeps {s0 s : State} (hk : Keeps s0 s) (core : CoreId) : KeepsR s0 (execTVopSqrt core s) := by
  unfold execTVopSqrt
  repeat' first
    | with_reducible assumption | with_reducible apply State.vopMap_keeps

theorem execTVopAbs_keeps {s0 s : State} (hk : Keeps s0 s) (core : CoreId) : KeepsR s0 (execTVopAbs core s) := by
  unfold execTVopAbs
  repeat' first
    | with_reducible assumption | with_reducible apply State.vopMap_keeps

theorem execTVopNeg_keeps {s0 s : State} (hk : Keeps s0 s) (core : CoreId) : KeepsR s0 (execTVopNeg core s) := by
  unfold execTVopNeg
  repeat' first
    | with_reducible assumption | with_reducible apply State.vopMap_keeps

theorem execTVopMov_keeps {s0 s : State} (hk : Keeps s0 s) (core : CoreId) : KeepsR s0 (execTVopMov core s) := by
  unfold execTVopMov
  repeat' first
    | with_reducible assumption | with_reducible apply State.vopMap_keeps

theorem execTVopClr_keeps {s0 s : State} (hk : Keeps s0 s) (core : CoreId) : KeepsR s0 (execTVopClr core s) := by
  unfold execTVopClr
  repeat' first
    | with_reducible assumption | intro _ | with_reducible apply State.setCore_keeps | with_reducible apply State.vop_keeps

theorem execTVopDot_keeps {s0 s : State} (hk : Keeps s0 s) (core : CoreId) : KeepsR s0 (execTVopDot core s) := by
  unfold execTVopDot
  repeat' first
    | with_reducible assumption | with_reducible apply State.vopReduce_keeps

theorem execTVopRsum_keeps {s0 s : State} (hk : Keeps s0 s) (core : CoreId) : KeepsR s0 (execTVopRsum core s) := by
  unfold execTVopRsum
  repeat' first
    | with_reducible assumption | with_reducible apply State.vopReduce_keeps

theorem execTVopRmax_keeps {s0 s : State} (hk : Keeps s0 s) (core : CoreId) : KeepsR s0 (execTVopRmax core s) := by
  unfold execTVopRmax
  repeat' first
    | with_reducible assumption | with_reducible apply State.vopReduce_keeps

end Sys2Proof.Machine
end

