-- ==== Sys2Proof/Laws/KeepsPartition.lean ====
section
/-! SUPPORT. Every operation of Machine/Partition.lean keeps what Keeps says. -/

namespace Sys2Proof.Machine

theorem State.resetReg_keeps {s0 s : State} (hk : Keeps s0 s) (n : RegName) (i : Nat) : Keeps s0 (State.resetReg s n i) := by
  unfold State.resetReg
  repeat' first
    | with_reducible assumption | with_reducible apply State.wr_keeps

theorem State.stopQueue_keeps {s0 s : State} (hk : Keeps s0 s) (p : Nat) (q : Nat) (st : Nat) : Keeps s0 (State.stopQueue s p q st) := by
  unfold State.stopQueue
  repeat' first
    | with_reducible assumption | intro _ | with_reducible apply State.descComplete_keeps | with_reducible apply State.endDesc_keeps
    | with_reducible apply State.putSummary_keeps | with_reducible apply Keeps.foldl | with_reducible apply Keeps.ite

theorem State.stopWork_keeps {s0 s : State} (hk : Keeps s0 s) (p : Nat) (c : EndCause) : Keeps s0 (State.stopWork s p c) := by
  unfold State.stopWork
  repeat' first
    | with_reducible assumption | intro _ | with_reducible apply State.stopKernels_keeps | with_reducible apply State.stopQueue_keeps
    | with_reducible apply Keeps.foldl

theorem State.forgetTags_keeps {s0 s : State} (hk : Keeps s0 s) (p : Nat) : Keeps s0 (State.forgetTags s p) := by
  unfold State.forgetTags
  repeat' first
    | with_reducible assumption | (intro v; clear_value v) | with_reducible refine KeepsMk.links ?_ _ | lift_lets -underBinder
    | simp -proj only [Keeps.mk_eq, TierSt.frames_mk]

theorem State.forgetQueue_keeps {s0 s : State} (hk : Keeps s0 s) (p : Nat) (q : Nat) : Keeps s0 (State.forgetQueue s p q) := by
  unfold State.forgetQueue
  repeat' first
    | with_reducible assumption | (intro v; have hv : TierSt := v; clear hv; subst v) | (intro v; clear_value v)
    | with_reducible apply State.setMirPart_keeps | with_reducible refine KeepsMk.of ?_ | lift_lets -underBinder | dsimp -zeta only
    | simp -proj only [Keeps.mk_eq, TierSt.frames_mk]

theorem State.resetQueue_keeps {s0 s : State} (hk : Keeps s0 s) (p : Nat) (q : Nat) : Keeps s0 (State.resetQueue s p q) := by
  unfold State.resetQueue
  repeat' first
    | with_reducible assumption | intro _ | with_reducible apply State.dropAcc_keeps | with_reducible apply State.forgetQueue_keeps
    | with_reducible apply State.resetReg_keeps | with_reducible apply State.setQueue_keeps | with_reducible apply Keeps.foldl

theorem State.resetQueues_keeps {s0 s : State} (hk : Keeps s0 s) (p : Nat) : Keeps s0 (State.resetQueues s p) := by
  unfold State.resetQueues
  repeat' first
    | with_reducible assumption | intro _ | with_reducible apply State.resetQueue_keeps | with_reducible apply State.setLd_keeps
    | with_reducible apply State.shipTable_keeps | with_reducible apply Keeps.foldl

theorem State.zeroCluster_keeps {s0 s : State} (hk : Keeps s0 s) (c : Nat) : Keeps s0 (State.zeroCluster s c) := by
  unfold State.zeroCluster
  repeat' first
    | with_reducible assumption | intro _ | with_reducible apply State.setCore_keeps | with_reducible apply Keeps.foldl
    | with_reducible apply Keeps.setShared

theorem State.newKey_keeps {s0 s : State} (hk : Keeps s0 s) (p : Nat) : Keeps s0 (State.newKey s p) := by
  unfold State.newKey
  repeat' first
    | with_reducible assumption | (intro v; clear_value v) | with_reducible apply State.freshKey_keeps | with_reducible apply State.keySweep_keeps
    | with_reducible apply State.rekey_keeps | with_reducible apply State.wr_keeps | with_reducible refine KeepsMk.of ?_ | lift_lets -underBinder
    | split | simp -proj only [Keeps.mk_eq, TierSt.frames_mk]

theorem State.dropHeld_keeps {s0 s : State} (hk : Keeps s0 s) (p : Nat) (f : Nat → Bool) : Keeps s0 (State.dropHeld s p f) := by
  unfold State.dropHeld
  repeat' first
    | with_reducible assumption | (intro v; have hv : TierSt := v; clear hv; subst v) | (intro v; clear_value v) | intro _
    | with_reducible apply State.hostCmp_keeps | with_reducible apply State.hostData_keeps | with_reducible apply Keeps.foldl
    | with_reducible refine KeepsMk.of ?_ | lift_lets -underBinder | dsimp -zeta only | simp -proj only [Keeps.mk_eq, TierSt.frames_mk]

theorem State.clearFrame_keeps {s0 s : State} (hk : Keeps s0 s) (p : Nat) (f : Nat) : Keeps s0 (State.clearFrame s p f) := by
  unfold State.clearFrame
  repeat' first
    | with_reducible assumption | intro _ | with_reducible apply State.abortMove_keeps | with_reducible apply State.dropMove_keeps
    | with_reducible apply State.freeSlot_keeps | with_reducible apply State.setFrame_keeps | with_reducible apply State.setPoolPage_keeps
    | with_reducible apply State.unstage_keeps | with_reducible apply Keeps.foldl

theorem State.clearMap_keeps {s0 s : State} (hk : Keeps s0 s) (p : Nat) : Keeps s0 (State.clearMap s p) := by
  unfold State.clearMap
  repeat' first
    | with_reducible assumption | (intro v; clear_value v) | intro _ | with_reducible apply State.checkDebt_keeps
    | with_reducible apply State.clearFrame_keeps | with_reducible apply State.dropHeld_keeps | with_reducible apply State.dropPoison_keeps
    | with_reducible apply State.newKey_keeps | with_reducible apply State.shipRec_keeps | with_reducible apply State.zeroCluster_keeps
    | with_reducible apply Keeps.foldl | with_reducible refine KeepsMk.of ?_ | with_reducible apply Keeps.ite | lift_lets -underBinder
    | dsimp -zeta only | simp -proj only [Keeps.mk_eq, TierSt.frames_mk]

theorem State.writeBackBuf_keeps {s0 s : State} (hk : Keeps s0 s) (p : Nat) (b : ShwBuf) : Keeps s0 (State.writeBackBuf s p b).1 := by
  unfold State.writeBackBuf
  repeat' first
    | with_reducible assumption | (intro v; clear_value v) | intro _ | with_reducible apply State.putPage_keeps | with_reducible apply Keeps.foldl_fst
    | with_reducible refine Keeps.fst ?_ (by assumption) | lift_lets -underBinder | split

theorem State.flushBuf_keeps {s0 s : State} (hk : Keeps s0 s) (p : Nat) (b : Option ShwBuf) : Keeps s0 (State.flushBuf s p b).1 := by
  unfold State.flushBuf
  repeat' first
    | with_reducible assumption | with_reducible apply State.writeBackBuf_keeps | dsimp -zeta only | split

theorem State.shwFlush_keeps {s0 s : State} (hk : Keeps s0 s) : Keeps s0 (State.shwFlush s) := by
  unfold State.shwFlush
  repeat' first
    | with_reducible assumption | (intro v; clear_value v) | with_reducible apply State.flushBuf_keeps | with_reducible refine KeepsMk.of ?_
    | lift_lets -underBinder | dsimp -zeta only | split | simp -proj only [Keeps.mk_eq, TierSt.frames_mk]

theorem State.commitAll_keeps {s0 s : State} (hk : Keeps s0 s) : Keeps s0 (State.commitAll s) := by
  unfold State.commitAll
  repeat' first
    | with_reducible assumption | with_reducible apply State.flushSlots_keeps | with_reducible apply State.shwFlush_keeps

theorem State.shwReset_keeps {s0 s : State} (hk : Keeps s0 s) (p : Nat) : Keeps s0 (State.shwReset s p) := by
  unfold State.shwReset
  repeat' first
    | with_reducible assumption | (intro v; have hv : Keeps s0 v := ?_; clear_value v) | with_reducible apply State.shwFlush_keeps
    | with_reducible apply State.wr_keeps | with_reducible refine KeepsMk.of ?_ | with_reducible apply Keeps.ite | lift_lets -underBinder
    | simp -proj only [Keeps.mk_eq, TierSt.frames_mk]

theorem State.shwWriteLo_keeps {s0 s : State} (hk : Keeps s0 s) (v : Nat) : Keeps s0 (State.shwWriteLo s v) := by
  unfold State.shwWriteLo
  repeat' first
    | with_reducible assumption | (intro v; have hv : Keeps s0 v := ?_; clear_value v) | (intro v; clear_value v)
    | with_reducible apply State.wr_keeps | with_reducible refine KeepsMk.of ?_ | lift_lets -underBinder
    | simp -proj only [Keeps.mk_eq, TierSt.frames_mk]

theorem State.shwFetch_keeps {s0 s : State} (hk : Keeps s0 s) (p : Nat) (i : Nat) : Keeps s0 (State.shwFetch s p i).1 := by
  unfold State.shwFetch
  repeat' first
    | with_reducible assumption | intro _ | with_reducible apply State.demand_keeps | with_reducible apply Keeps.foldl_fst
    | with_reducible apply Keeps.ite_fst

theorem State.shwWriteHi_keeps {s0 s : State} (hk : Keeps s0 s) (p : Nat) (v : Nat) : Keeps s0 (State.shwWriteHi s p v) := by
  unfold State.shwWriteHi
  repeat' first
    | with_reducible assumption | (intro v; have hv : Keeps s0 v := ?_; clear_value v) | (intro v; clear_value v)
    | with_reducible apply State.shwFetch_keeps | with_reducible apply State.wr_keeps | with_reducible apply State.wrB_keeps
    | with_reducible apply State.wrF_keeps | with_reducible refine KeepsMk.of ?_ | with_reducible apply Keeps.ite | lift_lets -underBinder | subst v
    | simp -proj only [Keeps.mk_eq, TierSt.frames_mk]

theorem execShwIndexLoWrite_keeps {s0 s : State} (hk : Keeps s0 s) (link : LinkId) (ld : LdId) (val : BitVec 32) : KeepsR s0 (execShwIndexLoWrite link ld val s) := by
  unfold execShwIndexLoWrite
  repeat' first
    | with_reducible assumption | intro _ | with_reducible apply State.onBar0_keeps | with_reducible apply State.shwWriteLo_keeps
    | with_reducible apply KeepsR.next | with_reducible apply Keeps.ite

theorem execShwIndexHiWrite_keeps {s0 s : State} (hk : Keeps s0 s) (link : LinkId) (ld : LdId) (val : BitVec 32) : KeepsR s0 (execShwIndexHiWrite link ld val s) := by
  unfold execShwIndexHiWrite
  repeat' first
    | with_reducible assumption | intro _ | with_reducible apply State.onBar0_keeps | with_reducible apply State.shwWriteHi_keeps
    | with_reducible apply KeepsR.next | with_reducible apply Keeps.ite

theorem State.shwLoad_keeps {s0 s : State} (hk : Keeps s0 s) (p : Nat) (i : Nat) : Keeps s0 (State.shwLoad s p i).1 := by
  unfold State.shwLoad
  repeat' first
    | with_reducible assumption | intro _ | with_reducible apply State.addPoisonPage_keeps | with_reducible apply State.countUncorr_keeps
    | with_reducible apply State.freeSlot_keeps | with_reducible apply State.viewPage_keeps | with_reducible apply Keeps.foldl_fst
    | with_reducible apply Keeps.ite_fst

theorem State.shwOpen_keeps {s0 s : State} (hk : Keeps s0 s) (p : Nat) : Keeps s0 (State.shwOpen s p) := by
  unfold State.shwOpen
  repeat' first
    | with_reducible assumption | (intro v; have hv : Keeps s0 v := ?_; clear_value v) | (intro v; clear_value v)
    | with_reducible apply State.shwFetch_keeps | with_reducible apply State.shwLoad_keeps | with_reducible apply State.wrB_keeps
    | with_reducible apply State.wrF_keeps | with_reducible refine Keeps.fst ?_ (by assumption) | with_reducible refine KeepsMk.of ?_
    | with_reducible apply Keeps.ite | lift_lets -underBinder | dsimp -zeta only | split | simp -proj only [Keeps.mk_eq, TierSt.frames_mk]

theorem State.shwSwitch_keeps {s0 s : State} (hk : Keeps s0 s) (p : Nat) : Keeps s0 (State.shwSwitch s p) := by
  unfold State.shwSwitch
  repeat' first
    | with_reducible assumption | (intro v; clear_value v) | with_reducible apply State.shwFetch_keeps | with_reducible apply State.shwLoad_keeps
    | with_reducible apply State.wr_keeps | with_reducible apply State.wrB_keeps | with_reducible apply State.wrF_keeps
    | with_reducible refine Keeps.fst ?_ (by assumption) | with_reducible refine KeepsMk.of ?_ | with_reducible apply Keeps.ite
    | lift_lets -underBinder | dsimp -zeta only | split | simp -proj only [Keeps.mk_eq, TierSt.frames_mk]

theorem execShadowSwapSwitch_keeps {s0 s : State} (hk : Keeps s0 s) (p : PartId) : KeepsR s0 (execShadowSwapSwitch p s) := by
  unfold execShadowSwapSwitch
  repeat' first
    | with_reducible assumption | with_reducible apply State.shwSwitch_keeps | with_reducible apply KeepsR.next | with_reducible apply Keeps.ite

theorem execShadowWritebackDone_keeps {s0 s : State} (hk : Keeps s0 s) (p : PartId) : KeepsR s0 (execShadowWritebackDone p s) := by
  unfold execShadowWritebackDone
  repeat' first
    | with_reducible assumption | (intro v; clear_value v) | with_reducible apply State.wrB_keeps | with_reducible apply State.writeBackBuf_keeps
    | with_reducible apply KeepsR.next | with_reducible refine Keeps.fst ?_ (by assumption) | with_reducible refine KeepsMk.of ?_
    | with_reducible apply Keeps.ite | lift_lets -underBinder | split | simp -proj only [Keeps.mk_eq, TierSt.frames_mk]

theorem execShadowWindowAccess_keeps {s0 s : State} (hk : Keeps s0 s) (link : LinkId) (ld : LdId) (off : Nat) (size : Nat) (write : Option (Nat × BitVec 64)) : KeepsR s0 (execShadowWindowAccess link ld off size write s) := by
  unfold execShadowWindowAccess
  repeat' first
    | with_reducible assumption | (intro v; clear_value v) | intro _ | with_reducible apply State.onBar0_keeps | with_reducible apply State.send_keeps
    | with_reducible apply KeepsR.next | with_reducible refine KeepsMk.of ?_ | with_reducible apply Keeps.ite | lift_lets -underBinder | split
    | simp -proj only [Keeps.mk_eq, TierSt.frames_mk]

theorem State.quiesceOn_keeps {s0 s : State} (hk : Keeps s0 s) (p : Nat) : Keeps s0 (State.quiesceOn s p) := by
  unfold State.quiesceOn
  repeat' first
    | with_reducible assumption | with_reducible apply State.wrB_keeps

theorem execQuiesceRequest_keeps {s0 s : State} (hk : Keeps s0 s) (p : PartId) : KeepsR s0 (execQuiesceRequest p s) := by
  unfold execQuiesceRequest
  repeat' first
    | with_reducible assumption | with_reducible apply State.quiesceOn_keeps | with_reducible apply KeepsR.next

theorem State.tellQuiesced_keeps {s0 s : State} (hk : Keeps s0 s) (p : Nat) : Keeps s0 (State.tellQuiesced s p) := by
  unfold State.tellQuiesced
  repeat' first
    | with_reducible assumption | with_reducible apply State.raise_keeps | with_reducible apply State.setB_keeps

theorem execPartitionQuiesced_keeps {s0 s : State} (hk : Keeps s0 s) (p : PartId) : KeepsR s0 (execPartitionQuiesced p s) := by
  unfold execPartitionQuiesced
  repeat' first
    | with_reducible assumption | with_reducible apply State.tellQuiesced_keeps | with_reducible apply KeepsR.next | with_reducible apply Keeps.ite

theorem State.quiesceOff_keeps {s0 s : State} (hk : Keeps s0 s) (p : Nat) : Keeps s0 (State.quiesceOff s p) := by
  unfold State.quiesceOff
  repeat' first
    | with_reducible assumption | (intro v; clear_value v) | with_reducible apply State.wrB_keeps | with_reducible refine KeepsMk.of ?_
    | with_reducible apply Keeps.ite | lift_lets -underBinder | simp -proj only [Keeps.mk_eq, TierSt.frames_mk]

theorem execQuiesceLift_keeps {s0 s : State} (hk : Keeps s0 s) (p : PartId) : KeepsR s0 (execQuiesceLift p s) := by
  unfold execQuiesceLift
  repeat' first
    | with_reducible assumption | with_reducible apply State.quiesceOff_keeps | with_reducible apply KeepsR.next

theorem State.quiesceAbort_keeps {s0 s : State} (hk : Keeps s0 s) (p : Nat) : Keeps s0 (State.quiesceAbort s p) := by
  unfold State.quiesceAbort
  repeat' first
    | with_reducible assumption | intro _ | with_reducible apply State.endKernel_keeps | with_reducible apply State.endWaits_keeps
    | with_reducible apply Keeps.foldl

theorem execQuiesceAbort_keeps {s0 s : State} (hk : Keeps s0 s) (p : PartId) : KeepsR s0 (execQuiesceAbort p s) := by
  unfold execQuiesceAbort
  repeat' first
    | with_reducible assumption | with_reducible apply State.quiesceAbort_keeps | with_reducible apply KeepsR.next

theorem State.quarantine_keeps {s0 s : State} (hk : Keeps s0 s) (p : Nat) : Keeps s0 (State.quarantine s p) := by
  unfold State.quarantine
  repeat' first
    | with_reducible assumption | (intro v; clear_value v) | with_reducible apply State.clrB_keeps | with_reducible apply State.endWaits_keeps
    | with_reducible apply State.forgetTags_keeps | with_reducible apply State.raise_keeps | with_reducible apply State.releaseLocks_keeps
    | with_reducible apply State.setB_keeps | with_reducible apply State.setMemActive_keeps | with_reducible apply State.setPart_keeps
    | with_reducible apply State.stopWork_keeps | with_reducible refine KeepsMk.of ?_ | with_reducible apply Keeps.ite | lift_lets -underBinder
    | simp -proj only [Keeps.mk_eq, TierSt.frames_mk]

theorem State.quarantineReq_keeps {s0 s : State} (hk : Keeps s0 s) (p : PartId) : Keeps s0 (State.quarantineReq s p) := by
  unfold State.quarantineReq
  repeat' first
    | with_reducible assumption | with_reducible apply State.fpWait_keeps | with_reducible apply State.quarantine_keeps
    | with_reducible apply State.wrB_keeps | with_reducible apply Keeps.ite

theorem execQuarantine_keeps {s0 s : State} (hk : Keeps s0 s) (p : PartId) : KeepsR s0 (execQuarantine p s) := by
  unfold execQuarantine
  repeat' first
    | with_reducible assumption | with_reducible apply State.quarantineReq_keeps | with_reducible apply KeepsR.next

theorem State.lift_keeps {s0 s : State} (hk : Keeps s0 s) (p : Nat) : Keeps s0 (State.lift s p) := by
  unfold State.lift
  repeat' first
    | with_reducible assumption | with_reducible apply State.clrB_keeps | with_reducible apply State.resetQueues_keeps
    | with_reducible apply State.setMemActive_keeps | with_reducible apply State.tellQuiesced_keeps | with_reducible apply Keeps.ite

theorem execLift_keeps {s0 s : State} (hk : Keeps s0 s) (p : PartId) : KeepsR s0 (execLift p s) := by
  unfold execLift
  repeat' first
    | with_reducible assumption | with_reducible apply State.lift_keeps | with_reducible apply KeepsR.next

theorem State.release_keeps {s0 s : State} (hk : Keeps s0 s) (p : Nat) : Keeps s0 (State.release s p) := by
  unfold State.release
  repeat' first
    | with_reducible assumption | with_reducible apply State.clearMap_keeps | with_reducible apply State.lift_keeps
    | with_reducible apply State.resetObjs_keeps | with_reducible apply State.shwOpen_keeps | with_reducible apply State.shwReset_keeps
    | with_reducible apply Keeps.ite

theorem execRelease_keeps {s0 s : State} (hk : Keeps s0 s) (p : PartId) : KeepsR s0 (execRelease p s) := by
  unfold execRelease
  repeat' first
    | with_reducible assumption | with_reducible apply State.release_keeps | with_reducible apply KeepsR.next

theorem State.liveness_keeps {s0 s : State} (hk : Keeps s0 s) (p : Nat) (v : Nat) : Keeps s0 (State.liveness s p v) := by
  unfold State.liveness
  repeat' first
    | with_reducible assumption | with_reducible apply State.setPart_keeps | with_reducible apply State.wr_keeps | with_reducible apply Keeps.ite

theorem execPrtLivenessWrite_keeps {s0 s : State} (hk : Keeps s0 s) (link : LinkId) (ld : LdId) (val : BitVec 32) : KeepsR s0 (execPrtLivenessWrite link ld val s) := by
  unfold execPrtLivenessWrite
  repeat' first
    | with_reducible assumption | intro _ | with_reducible apply State.liveness_keeps | with_reducible apply State.onBar0_keeps
    | with_reducible apply KeepsR.next

theorem State.livenessTimeout_keeps {s0 s : State} (hk : Keeps s0 s) (p : Nat) (v : Nat) : Keeps s0 (State.livenessTimeout s p v) := by
  unfold State.livenessTimeout
  repeat' first
    | with_reducible assumption | with_reducible apply State.setPart_keeps | with_reducible apply State.wr_keeps | with_reducible apply Keeps.ite

theorem execLivenessTimeout_keeps {s0 s : State} (hk : Keeps s0 s) (p : PartId) : KeepsR s0 (execLivenessTimeout p s) := by
  unfold execLivenessTimeout
  repeat' first
    | with_reducible assumption | with_reducible apply State.quarantineReq_keeps | with_reducible apply State.reach_keeps
    | with_reducible apply KeepsR.next | with_reducible apply Keeps.ite

theorem State.partReset_keeps {s0 s : State} (hk : Keeps s0 s) (p : Nat) : Keeps s0 (State.partReset s p) := by
  unfold State.partReset
  repeat' first
    | with_reducible assumption | with_reducible apply State.endWaits_keeps | with_reducible apply State.forgetTags_keeps
    | with_reducible apply State.releaseLocks_keeps | with_reducible apply State.resetQueues_keeps | with_reducible apply State.stopWork_keeps

theorem State.resetLd_keeps {s0 s : State} (hk : Keeps s0 s) (link : Nat) (ld : Nat) : Keeps s0 (State.resetLd s link ld) := by
  unfold State.resetLd
  repeat' first
    | with_reducible assumption | with_reducible apply State.setLd_keeps

theorem execFlr_keeps {s0 s : State} (hk : Keeps s0 s) (link : LinkId) (ld : LdId) : KeepsR s0 (execFlr link ld s) := by
  unfold execFlr
  repeat' first
    | with_reducible assumption | (intro v; have hv : Keeps s0 v := ?_; clear_value v) | (intro v; clear_value v)
    | with_reducible apply State.partReset_keeps | with_reducible apply State.resetLd_keeps | with_reducible apply State.wr_keeps
    | with_reducible apply State.wrB_keeps | with_reducible apply KeepsR.next | with_reducible refine KeepsMk.of ?_ | with_reducible apply Keeps.ite
    | lift_lets -underBinder | split | simp -proj only [Keeps.mk_eq, TierSt.frames_mk]

theorem State.dropRestore_keeps {s0 s : State} (hk : Keeps s0 s) (p : Nat) : Keeps s0 (State.dropRestore s p) := by
  unfold State.dropRestore
  repeat' first
    | with_reducible assumption | (intro v; clear_value v) | with_reducible refine KeepsMk.of ?_ | lift_lets -underBinder
    | simp -proj only [Keeps.mk_eq, TierSt.frames_mk]

theorem State.ldReset_keeps {s0 s : State} (hk : Keeps s0 s) (link : Nat) (ld : Nat) : Keeps s0 (State.ldReset s link ld) := by
  unfold State.ldReset
  repeat' first
    | with_reducible assumption | with_reducible apply State.clearMap_keeps | with_reducible apply State.dropRestore_keeps
    | with_reducible apply State.partReset_keeps | with_reducible apply State.resetLd_keeps | with_reducible apply State.resetObjs_keeps
    | with_reducible apply State.setMemActive_keeps | with_reducible apply State.shwOpen_keeps | with_reducible apply State.shwReset_keeps
    | with_reducible apply Keeps.ite | split

theorem execLdReset_keeps {s0 s : State} (hk : Keeps s0 s) (link : LinkId) (ld : LdId) : KeepsR s0 (execLdReset link ld s) := by
  unfold execLdReset
  repeat' first
    | with_reducible assumption | with_reducible apply State.ldReset_keeps | with_reducible apply KeepsR.next

end Sys2Proof.Machine
end

