-- ==== Sys2Proof/Laws/KeepsLinks.lean ====
section
/-! SUPPORT. Every operation of Machine/Links.lean keeps what Keeps says. -/

namespace Sys2Proof.Machine

theorem State.armUpdate_keeps {s0 s : State} (hk : Keeps s0 s) (link : Nat) : Keeps s0 (State.armUpdate s link) := by
  unfold State.armUpdate
  repeat' first
    | with_reducible assumption | with_reducible apply State.wrB_keeps

theorem State.rateCaps_keeps {s0 s : State} (hk : Keeps s0 s)  : Keeps s0 (State.rateCaps s) := by
  unfold State.rateCaps
  repeat' first
    | with_reducible assumption | intro _ | with_reducible apply State.armUpdate_keeps | with_reducible apply State.wrB_keeps
    | with_reducible apply Keeps.foldl

theorem State.setLinkState_keeps {s0 s : State} (hk : Keeps s0 s) (link : Nat) (v : Nat) : Keeps s0 (State.setLinkState s link v) := by
  unfold State.setLinkState
  repeat' first
    | with_reducible assumption | with_reducible apply State.wrF_keeps

theorem State.startTraining_keeps {s0 s : State} (hk : Keeps s0 s) (link : Nat) : Keeps s0 (State.startTraining s link) := by
  unfold State.startTraining
  repeat' first
    | with_reducible assumption | with_reducible apply State.setLinkState_keeps | with_reducible apply Keeps.ite

theorem State.setActive_keeps {s0 s : State} (hk : Keeps s0 s) (link : Nat) (w : Nat) : Keeps s0 (State.setActive s link w) := by
  unfold State.setActive
  repeat' first
    | with_reducible assumption | with_reducible apply State.setLinkState_keeps | with_reducible apply State.wrF_keeps
    | with_reducible apply Keeps.ite

theorem State.capWidth_keeps {s0 s : State} (hk : Keeps s0 s) (link : Nat) : Keeps s0 (State.capWidth s link) := by
  unfold State.capWidth
  repeat' first
    | with_reducible assumption | with_reducible apply State.setActive_keeps | with_reducible apply State.setLink_keeps
    | with_reducible apply Keeps.ite

theorem State.fellBack_keeps {s0 s : State} (hk : Keeps s0 s) (link : Nat) : Keeps s0 (State.fellBack s link) := by
  unfold State.fellBack
  repeat' first
    | with_reducible assumption | with_reducible apply State.setB_keeps

theorem execLinkUp_keeps {s0 s : State} (hk : Keeps s0 s) (link : LinkId) (partner : Partner) : KeepsR s0 (execLinkUp link partner s) := by
  unfold execLinkUp
  repeat' first
    | with_reducible assumption | intro _ | with_reducible apply State.event_keeps | with_reducible apply State.fellBack_keeps
    | with_reducible apply State.raise_keeps | with_reducible apply State.setActive_keeps | with_reducible apply State.setLink_keeps
    | with_reducible apply State.wr_keeps | with_reducible apply State.wrB_keeps | with_reducible apply Keeps.foldl | with_reducible apply KeepsR.next
    | with_reducible apply Keeps.ite

theorem State.loseRead_keeps {s0 s : State} (hk : Keeps s0 s) (r : HeldRead) : Keeps s0 (State.loseRead s r) := by
  unfold State.loseRead
  repeat' first
    | with_reducible assumption | (intro v; have hv : TierSt := v; clear hv; subst v) | with_reducible apply State.holdEnd_keeps
    | with_reducible apply State.lostLog_keeps | with_reducible apply State.viewPage_keeps | with_reducible refine KeepsMk.of ?_
    | lift_lets -underBinder | simp -proj only [Keeps.mk_eq, TierSt.frames_mk]

theorem State.loseRequests_keeps {s0 s : State} (hk : Keeps s0 s) (link : Nat) : Keeps s0 (State.loseRequests s link) := by
  unfold State.loseRequests
  repeat' first
    | with_reducible assumption | (intro v; clear_value v) | intro _ | with_reducible apply State.loseRead_keeps
    | with_reducible apply State.lostLog_keeps | with_reducible apply State.runHeld_keeps | with_reducible apply State.setMirPart_keeps
    | with_reducible apply Keeps.foldl | with_reducible refine KeepsMk.of ?_ | lift_lets -underBinder | split | dsimp only
    | simp -proj only [Keeps.mk_eq, TierSt.frames_mk]

theorem State.stopDma_keeps {s0 s : State} (hk : Keeps s0 s) (link : Nat) (lds : Nat → Bool) (status : Nat) (drop : Bool) : Keeps s0 (State.stopDma s link lds status drop) := by
  unfold State.stopDma
  repeat' first
    | with_reducible assumption | intro _ | with_reducible apply State.endDesc_keeps | with_reducible apply State.setLink_keeps
    | with_reducible apply Keeps.foldl | with_reducible apply Keeps.ite | lift_lets -underBinder | split

theorem State.rateReset_keeps {s0 s : State} (hk : Keeps s0 s) (link : Nat) : Keeps s0 (State.rateReset s link) := by
  unfold State.rateReset
  repeat' first
    | with_reducible assumption | with_reducible apply State.armUpdate_keeps | with_reducible apply State.clrB_keeps
    | with_reducible apply State.setLink_keeps | with_reducible apply State.wr_keeps | with_reducible apply State.wrB_keeps

theorem State.linkDown_keeps {s0 s : State} (hk : Keeps s0 s) (link : Nat) (state : Nat) : Keeps s0 (State.linkDown s link state) := by
  unfold State.linkDown
  repeat' first
    | with_reducible assumption | intro _ | with_reducible apply State.event_keeps | with_reducible apply State.loseRequests_keeps
    | with_reducible apply State.rateReset_keeps | with_reducible apply State.setLd_keeps | with_reducible apply State.setLink_keeps
    | with_reducible apply State.setLinkState_keeps | with_reducible apply State.stopDma_keeps | with_reducible apply State.wr_keeps
    | with_reducible apply State.wrB_keeps | with_reducible apply Keeps.foldl | with_reducible apply Keeps.ite

theorem execLinkDown_keeps {s0 s : State} (hk : Keeps s0 s) (link : LinkId) : KeepsR s0 (execLinkDown link s) := by
  unfold execLinkDown
  repeat' first
    | with_reducible assumption | with_reducible apply State.linkDown_keeps | with_reducible apply KeepsR.next | with_reducible apply Keeps.ite

theorem execPerstAssert_keeps {s0 s : State} (hk : Keeps s0 s) (port : Fin 8) (ns : Nat) : KeepsR s0 (execPerstAssert port ns s) := by
  unfold execPerstAssert
  repeat' first
    | with_reducible assumption | intro _ | with_reducible apply State.linkDown_keeps | with_reducible apply State.rateReset_keeps
    | with_reducible apply State.setLink_keeps | with_reducible apply KeepsR.next | with_reducible apply Keeps.foldl | with_reducible apply Keeps.ite

theorem execPerstDeassert_keeps {s0 s : State} (hk : Keeps s0 s) (port : Fin 8) : KeepsR s0 (execPerstDeassert port s) := by
  unfold execPerstDeassert
  repeat' first
    | with_reducible assumption | intro _ | with_reducible apply State.setLink_keeps | with_reducible apply State.startTraining_keeps
    | with_reducible apply Keeps.foldl | with_reducible apply KeepsR.next

theorem State.enterRecovery_keeps {s0 s : State} (hk : Keeps s0 s) (link : Nat) : Keeps s0 (State.enterRecovery s link) := by
  unfold State.enterRecovery
  repeat' first
    | with_reducible assumption | with_reducible apply State.incErr_keeps | with_reducible apply State.setLink_keeps
    | with_reducible apply State.setLinkState_keeps | with_reducible apply Keeps.ite

theorem execLinkEntersRecovery_keeps {s0 s : State} (hk : Keeps s0 s) (link : LinkId) : KeepsR s0 (execLinkEntersRecovery link s) := by
  unfold execLinkEntersRecovery
  repeat' first
    | with_reducible assumption | with_reducible apply State.enterRecovery_keeps | with_reducible apply KeepsR.next

theorem State.retrain_keeps {s0 s : State} (hk : Keeps s0 s) (link : Nat) : Keeps s0 (State.retrain s link) := by
  unfold State.retrain
  repeat' first
    | with_reducible assumption | with_reducible apply State.enterRecovery_keeps | with_reducible apply State.setB_keeps
    | with_reducible apply Keeps.ite

theorem execRetrain_keeps {s0 s : State} (hk : Keeps s0 s) (link : LinkId) : KeepsR s0 (execRetrain link s) := by
  unfold execRetrain
  repeat' first
    | with_reducible assumption | with_reducible apply State.retrain_keeps | with_reducible apply KeepsR.next

theorem State.disableLink_keeps {s0 s : State} (hk : Keeps s0 s) (link : Nat) : Keeps s0 (State.disableLink s link) := by
  unfold State.disableLink
  repeat' first
    | with_reducible assumption | with_reducible apply State.linkDown_keeps | with_reducible apply State.setB_keeps
    | with_reducible apply State.setLinkState_keeps

theorem execLinkDisable_keeps {s0 s : State} (hk : Keeps s0 s) (link : LinkId) : KeepsR s0 (execLinkDisable link s) := by
  unfold execLinkDisable
  repeat' first
    | with_reducible assumption | with_reducible apply State.disableLink_keeps | with_reducible apply KeepsR.next

theorem State.enableLink_keeps {s0 s : State} (hk : Keeps s0 s) (link : Nat) : Keeps s0 (State.enableLink s link) := by
  unfold State.enableLink
  repeat' first
    | with_reducible assumption | with_reducible apply State.clrB_keeps | with_reducible apply State.setLinkState_keeps
    | with_reducible apply State.startTraining_keeps | with_reducible apply Keeps.ite

theorem execLinkEnable_keeps {s0 s : State} (hk : Keeps s0 s) (link : LinkId) : KeepsR s0 (execLinkEnable link s) := by
  unfold execLinkEnable
  repeat' first
    | with_reducible assumption | with_reducible apply State.enableLink_keeps | with_reducible apply KeepsR.next

theorem execEnable128_keeps {s0 s : State} (hk : Keeps s0 s) (link : LinkId) : KeepsR s0 (execEnable128 link s) := by
  unfold execEnable128
  repeat' first
    | with_reducible assumption | with_reducible apply State.armUpdate_keeps | with_reducible apply State.setB_keeps
    | with_reducible apply KeepsR.next

theorem State.rateRetry_keeps {s0 s : State} (hk : Keeps s0 s) (link : Nat) : Keeps s0 (State.rateRetry s link) := by
  unfold State.rateRetry
  repeat' first
    | with_reducible assumption | with_reducible apply State.armUpdate_keeps | with_reducible apply State.retrain_keeps
    | with_reducible apply State.setLink_keeps | with_reducible apply State.wrB_keeps

theorem execRetry_keeps {s0 s : State} (hk : Keeps s0 s) (link : LinkId) : KeepsR s0 (execRetry link s) := by
  unfold execRetry
  repeat' first
    | with_reducible assumption | with_reducible apply State.rateRetry_keeps | with_reducible apply KeepsR.next

theorem execEqFail128_keeps {s0 s : State} (hk : Keeps s0 s) (link : LinkId) : KeepsR s0 (execEqFail128 link s) := by
  unfold execEqFail128
  repeat' first
    | with_reducible assumption | with_reducible apply State.armUpdate_keeps | with_reducible apply State.fellBack_keeps
    | with_reducible apply State.incErr_keeps | with_reducible apply State.raise_keeps | with_reducible apply State.setB_keeps
    | with_reducible apply State.setLink_keeps | with_reducible apply State.wrB_keeps | with_reducible apply KeepsR.next
    | with_reducible apply Keeps.ite

theorem execL0pWidthChange_keeps {s0 s : State} (hk : Keeps s0 s) (link : LinkId) (m : WidthMeasure) : KeepsR s0 (execL0pWidthChange link m s) := by
  unfold execL0pWidthChange
  repeat' first
    | with_reducible assumption | with_reducible apply State.setActive_keeps | with_reducible apply KeepsR.next | with_reducible apply Keeps.ite
    | with_reducible apply State.setLink_keeps | lift_lets -underBinder | split

theorem execAspmL1Entry_keeps {s0 s : State} (hk : Keeps s0 s) (link : LinkId) (substate : Option (Fin 2)) (idleMs : Nat) : KeepsR s0 (execAspmL1Entry link substate idleMs s) := by
  unfold execAspmL1Entry
  repeat' first
    | with_reducible assumption | with_reducible apply State.setLink_keeps | with_reducible apply State.setLinkState_keeps
    | with_reducible apply KeepsR.next | with_reducible apply Keeps.ite | lift_lets -underBinder | split

theorem execAspmL1Exit_keeps {s0 s : State} (hk : Keeps s0 s) (link : LinkId) (_wake : L1Wake) : KeepsR s0 (execAspmL1Exit link _wake s) := by
  unfold execAspmL1Exit
  repeat' first
    | with_reducible assumption | with_reducible apply State.leaveL1_keeps | with_reducible apply KeepsR.next

theorem execIdeKeyExchange_keeps {s0 s : State} (hk : Keeps s0 s) (link : LinkId) (ld : Option LdId) (_fresh : Bool) (ok : Bool) : KeepsR s0 (execIdeKeyExchange link ld _fresh ok s) := by
  unfold execIdeKeyExchange
  repeat' first
    | with_reducible assumption | with_reducible apply State.setLink_keeps | with_reducible apply State.wrF_keeps | with_reducible apply KeepsR.next
    | with_reducible apply Keeps.ite

theorem execIdeCheckFail_keeps {s0 s : State} (hk : Keeps s0 s) (link : LinkId) : KeepsR s0 (execIdeCheckFail link s) := by
  unfold execIdeCheckFail
  repeat' first
    | with_reducible assumption | with_reducible apply State.event_keeps | with_reducible apply State.setLink_keeps
    | with_reducible apply State.wrF_keeps | with_reducible apply KeepsR.next | with_reducible apply Keeps.ite

theorem execBusMasterDisable_keeps {s0 s : State} (hk : Keeps s0 s) (link : LinkId) (ld : LdId) : KeepsR s0 (execBusMasterDisable link ld s) := by
  unfold execBusMasterDisable
  repeat' first
    | with_reducible assumption | with_reducible apply State.setLd_keeps | with_reducible apply State.stopDma_keeps | with_reducible apply KeepsR.next

theorem execBusMasterEnable_keeps {s0 s : State} (hk : Keeps s0 s) (link : LinkId) (ld : LdId) : KeepsR s0 (execBusMasterEnable link ld s) := by
  unfold execBusMasterEnable
  repeat' first
    | with_reducible assumption | intro _ | with_reducible apply State.msix_keeps | with_reducible apply State.setLd_keeps
    | with_reducible apply Keeps.foldl | with_reducible apply KeepsR.next

theorem execGpfPhase2_keeps {s0 s : State} (hk : Keeps s0 s) (link : LinkId) : KeepsR s0 (execGpfPhase2 link s) := by
  unfold execGpfPhase2
  repeat' first
    | with_reducible assumption | with_reducible apply State.commitAll_keeps | with_reducible apply State.flushSlots_keeps
    | with_reducible apply State.releaseWrites_keeps | with_reducible apply State.send_keeps | with_reducible apply KeepsR.next
    | with_reducible apply Keeps.ite

theorem execFmLdBindUnbind_keeps {s0 s : State} (hk : Keeps s0 s) (link : LinkId) (ld : LdId) (part : Option PartId) : KeepsR s0 (execFmLdBindUnbind link ld part s) := by
  unfold execFmLdBindUnbind
  repeat' first
    | with_reducible assumption | with_reducible apply Keeps.setBinding | (intro v; have ha2 : ∀ a b, Keeps s0 (v a b) := ?_; clear_value v)
    | (intro v; clear_value v) | intro _ | with_reducible apply State.ldActive_keeps | with_reducible apply State.send_keeps
    | with_reducible apply ha2 | with_reducible apply KeepsR.next | with_reducible apply Keeps.ite | lift_lets -underBinder | split

theorem execFmLinkStateQuery_keeps {s0 s : State} (hk : Keeps s0 s) (link : LinkId) : KeepsR s0 (execFmLinkStateQuery link s) := by
  unfold execFmLinkStateQuery
  repeat' first
    | with_reducible assumption | with_reducible apply State.send_keeps | with_reducible apply KeepsR.next

theorem State.crossLost_keeps {s0 s : State} (hk : Keeps s0 s) (w : WaitOp) : Keeps s0 (State.crossLost s w) := by
  unfold State.crossLost
  repeat' first
    | with_reducible assumption | (intro v; have hv : TierSt := v; clear hv; subst v) | (intro v; clear_value v)
    | with_reducible apply State.abortMove_keeps | with_reducible apply State.endDesc_keeps | with_reducible apply State.endWaits_keeps
    | with_reducible apply State.flashDone_keeps | with_reducible apply State.holdEnd_keeps | with_reducible apply State.hostCmp_keeps
    | with_reducible apply State.hostData_keeps | with_reducible apply State.kernelFault_keeps | with_reducible apply State.send_keeps
    | with_reducible refine KeepsMk.of ?_ | with_reducible apply Keeps.ite | lift_lets -underBinder | split
    | simp -proj only [Keeps.mk_eq, TierSt.frames_mk]

theorem State.crossUnit_keeps {s0 s : State} (hk : Keeps s0 s) (i : Island) : Keeps s0 (State.crossUnit s i) := by
  unfold State.crossUnit
  repeat' first
    | with_reducible assumption | with_reducible apply State.ctrlExpiry_keeps | with_reducible apply State.setB_keeps | with_reducible apply Keeps.ite
    | split

theorem execCrossingWatchdogExpiry_keeps {s0 s : State} (hk : Keeps s0 s) (a : Island) (b : Island) (since : Nat) (waiting : List WaitOp) : KeepsR s0 (execCrossingWatchdogExpiry a b since waiting s) := by
  unfold execCrossingWatchdogExpiry
  repeat' first
    | with_reducible assumption | (intro v; clear_value v) | intro _ | with_reducible apply State.crossLost_keeps
    | with_reducible apply State.crossUnit_keeps | with_reducible apply State.raise_keeps | with_reducible apply State.reach_keeps
    | with_reducible apply KeepsR.next | with_reducible apply Keeps.foldl | with_reducible refine KeepsMk.of ?_ | with_reducible apply Keeps.ite
    | lift_lets -underBinder | simp -proj only [Keeps.mk_eq, TierSt.frames_mk]

theorem execCrossingAcknowledge_keeps {s0 s : State} (hk : Keeps s0 s) (a : Island) (b : Island) : KeepsR s0 (execCrossingAcknowledge a b s) := by
  unfold execCrossingAcknowledge
  repeat' first
    | with_reducible assumption | (intro v; clear_value v) | with_reducible apply KeepsR.next | with_reducible refine KeepsMk.of ?_
    | lift_lets -underBinder | split | simp -proj only [Keeps.mk_eq, TierSt.frames_mk]

end Sys2Proof.Machine
end

