-- ==== Sys2Proof/Laws/KeepsCxlMbox.lean ====
section
/-! SUPPORT. Every operation of Machine/CxlMbox.lean keeps what Keeps says. -/

namespace Sys2Proof.Machine

theorem State.mbox_keeps {s0 s : State} (hk : Keeps s0 s) (link : Nat) (ld : Nat) (code : Nat) (payload : List Nat) : Keeps s0 (State.mbox s link ld code payload) := by
  unfold State.mbox
  repeat' first
    | with_reducible assumption | with_reducible apply State.send_keeps

theorem State.mboxCmd_keeps {s0 s : State} (hk : Keeps s0 s) (link ld : Nat) (f : Nat → State) (hf : ∀ p, Keeps s0 (f p)) : KeepsR s0 (State.mboxCmd s link ld f) := by
  unfold State.mboxCmd
  refine KeepsR.next ?_
  split
  · exact hk
  · split
    · exact State.mbox_keeps hk _ _ _ _
    · exact hf _

theorem execGetEventRecords_keeps {s0 s : State} (hk : Keeps s0 s) (link : LinkId) (ld : LdId) (log : Nat) : KeepsR s0 (execGetEventRecords link ld log s) := by
  unfold execGetEventRecords
  repeat' first
    | with_reducible assumption | intro _ | with_reducible apply State.mbox_keeps | with_reducible apply State.mboxCmd_keeps
    | with_reducible apply State.send_keeps | with_reducible apply Keeps.ite

theorem execClearEventRecords_keeps {s0 s : State} (hk : Keeps s0 s) (link : LinkId) (ld : LdId) (log : Nat) (all : Bool) (handles : List Nat) : KeepsR s0 (execClearEventRecords link ld log all handles s) := by
  unfold execClearEventRecords
  repeat' first
    | with_reducible assumption | intro _ | with_reducible apply State.mbox_keeps | with_reducible apply State.mboxCmd_keeps
    | with_reducible apply State.setLd_keeps | with_reducible apply Keeps.ite

theorem execGetEventInterruptPolicy_keeps {s0 s : State} (hk : Keeps s0 s) (link : LinkId) (ld : LdId) : KeepsR s0 (execGetEventInterruptPolicy link ld s) := by
  unfold execGetEventInterruptPolicy
  repeat' first
    | with_reducible assumption | intro _ | with_reducible apply State.mbox_keeps | with_reducible apply State.mboxCmd_keeps

theorem execSetEventInterruptPolicy_keeps {s0 s : State} (hk : Keeps s0 s) (link : LinkId) (ld : LdId) (policy : List Nat) : KeepsR s0 (execSetEventInterruptPolicy link ld policy s) := by
  unfold execSetEventInterruptPolicy
  repeat' first
    | with_reducible assumption | intro _ | with_reducible apply State.mbox_keeps | with_reducible apply State.mboxCmd_keeps
    | with_reducible apply State.setLd_keeps | with_reducible apply Keeps.ite

theorem execGetFwInfo_keeps {s0 s : State} (hk : Keeps s0 s) (link : LinkId) (ld : LdId) : KeepsR s0 (execGetFwInfo link ld s) := by
  unfold execGetFwInfo
  repeat' first
    | with_reducible assumption | intro _ | with_reducible apply State.mbox_keeps | with_reducible apply State.mboxCmd_keeps

theorem execGetTimestamp_keeps {s0 s : State} (hk : Keeps s0 s) (link : LinkId) (ld : LdId) : KeepsR s0 (execGetTimestamp link ld s) := by
  unfold execGetTimestamp
  repeat' first
    | with_reducible assumption | intro _ | with_reducible apply State.mbox_keeps | with_reducible apply State.mboxCmd_keeps

theorem execSetTimestamp_keeps {s0 s : State} (hk : Keeps s0 s) (link : LinkId) (ld : LdId) (ns : Nat) : KeepsR s0 (execSetTimestamp link ld ns s) := by
  unfold execSetTimestamp
  repeat' first
    | with_reducible assumption | intro _ | with_reducible apply State.mbox_keeps | with_reducible apply State.mboxCmd_keeps
    | with_reducible apply State.setLd_keeps

theorem execGetSupportedLogs_keeps {s0 s : State} (hk : Keeps s0 s) (link : LinkId) (ld : LdId) : KeepsR s0 (execGetSupportedLogs link ld s) := by
  unfold execGetSupportedLogs
  repeat' first
    | with_reducible assumption | intro _ | with_reducible apply State.mbox_keeps | with_reducible apply State.mboxCmd_keeps

theorem execGetLog_keeps {s0 s : State} (hk : Keeps s0 s) (link : LinkId) (ld : LdId) (log : Nat) (off : Nat) (len : Nat) : KeepsR s0 (execGetLog link ld log off len s) := by
  unfold execGetLog
  repeat' first
    | with_reducible assumption | intro _ | with_reducible apply State.mbox_keeps | with_reducible apply State.mboxCmd_keeps
    | with_reducible apply State.nextFree_keeps | with_reducible apply Keeps.ite

theorem execIdentifyMemoryDevice_keeps {s0 s : State} (hk : Keeps s0 s) (link : LinkId) (ld : LdId) : KeepsR s0 (execIdentifyMemoryDevice link ld s) := by
  unfold execIdentifyMemoryDevice
  repeat' first
    | with_reducible assumption | intro _ | with_reducible apply State.mbox_keeps | with_reducible apply State.mboxCmd_keeps

theorem execGetHealthInfo_keeps {s0 s : State} (hk : Keeps s0 s) (link : LinkId) (ld : LdId) : KeepsR s0 (execGetHealthInfo link ld s) := by
  unfold execGetHealthInfo
  repeat' first
    | with_reducible assumption | intro _ | with_reducible apply State.mbox_keeps | with_reducible apply State.mboxCmd_keeps
    | with_reducible apply State.nextFree_keeps

theorem execGetAlertConfig_keeps {s0 s : State} (hk : Keeps s0 s) (link : LinkId) (ld : LdId) : KeepsR s0 (execGetAlertConfig link ld s) := by
  unfold execGetAlertConfig
  repeat' first
    | with_reducible assumption | intro _ | with_reducible apply State.mbox_keeps | with_reducible apply State.mboxCmd_keeps

theorem execSetAlertConfig_keeps {s0 s : State} (hk : Keeps s0 s) (link : LinkId) (ld : LdId) (cfg : List Nat) : KeepsR s0 (execSetAlertConfig link ld cfg s) := by
  unfold execSetAlertConfig
  repeat' first
    | with_reducible assumption | intro _ | with_reducible apply State.mbox_keeps | with_reducible apply State.mboxCmd_keeps
    | with_reducible apply State.setLd_keeps

theorem execGetPoisonList_keeps {s0 s : State} (hk : Keeps s0 s) (link : LinkId) (ld : LdId) (dpa : Nat) (len : Nat) : KeepsR s0 (execGetPoisonList link ld dpa len s) := by
  unfold execGetPoisonList
  repeat' first
    | with_reducible assumption | intro _ | with_reducible apply State.mbox_keeps | with_reducible apply State.mboxCmd_keeps

theorem State.mboxLine_keeps {s0 s : State} (hk : Keeps s0 s) (p : Nat) (a : Nat) (data : Line) (poison : Bool) : Keeps s0 (State.mboxLine s p a data poison).1 := by
  unfold State.mboxLine
  repeat' first
    | with_reducible assumption | (intro v; have hv : Keeps s0 v := ?_; clear_value v) | with_reducible apply State.mapAccess_keeps
    | with_reducible apply State.nospaceRefusal_keeps | with_reducible apply State.shipFrame_keeps | with_reducible apply State.slotWrite_keeps
    | with_reducible apply State.touchPage_keeps | with_reducible refine Keeps.fst ?_ (by assumption) | with_reducible apply Keeps.ite
    | lift_lets -underBinder | split

theorem execInjectPoison_keeps {s0 s : State} (hk : Keeps s0 s) (link : LinkId) (ld : LdId) (dpa : Nat) : KeepsR s0 (execInjectPoison link ld dpa s) := by
  unfold execInjectPoison
  repeat' first
    | with_reducible assumption | intro _ | with_reducible apply State.addPoisonPage_keeps | with_reducible apply State.mbox_keeps
    | with_reducible apply State.mboxCmd_keeps | with_reducible apply State.mboxLine_keeps | with_reducible refine Keeps.fst ?_ (by assumption)
    | with_reducible apply Keeps.ite | lift_lets -underBinder | split

theorem execClearPoison_keeps {s0 s : State} (hk : Keeps s0 s) (link : LinkId) (ld : LdId) (dpa : Nat) (data : Line) : KeepsR s0 (execClearPoison link ld dpa data s) := by
  unfold execClearPoison
  repeat' first
    | with_reducible assumption | intro _ | with_reducible apply State.dropPoison_keeps | with_reducible apply State.mbox_keeps
    | with_reducible apply State.mboxCmd_keeps | with_reducible apply State.mboxLine_keeps | with_reducible refine Keeps.fst ?_ (by assumption)
    | with_reducible apply Keeps.ite | lift_lets -underBinder | split

theorem execGetScanMediaCapabilities_keeps {s0 s : State} (hk : Keeps s0 s) (link : LinkId) (ld : LdId) : KeepsR s0 (execGetScanMediaCapabilities link ld s) := by
  unfold execGetScanMediaCapabilities
  repeat' first
    | with_reducible assumption | intro _ | with_reducible apply State.mbox_keeps | with_reducible apply State.mboxCmd_keeps
    | with_reducible apply State.nextFree_keeps

theorem execScanMedia_keeps {s0 s : State} (hk : Keeps s0 s) (link : LinkId) (ld : LdId) (dpa : Nat) (len : Nat) : KeepsR s0 (execScanMedia link ld dpa len s) := by
  unfold execScanMedia
  repeat' first
    | with_reducible assumption | intro _ | with_reducible apply State.mbox_keeps | with_reducible apply State.mboxCmd_keeps
    | with_reducible apply State.scrubSpan_keeps | with_reducible apply State.setLd_keeps | with_reducible apply Keeps.ite

theorem execGetScanMediaResults_keeps {s0 s : State} (hk : Keeps s0 s) (link : LinkId) (ld : LdId) : KeepsR s0 (execGetScanMediaResults link ld s) := by
  unfold execGetScanMediaResults
  repeat' first
    | with_reducible assumption | intro _ | with_reducible apply State.mbox_keeps | with_reducible apply State.mboxCmd_keeps

theorem execGetLostResponses_keeps {s0 s : State} (hk : Keeps s0 s) (link : LinkId) (ld : LdId) (skip : Nat) : KeepsR s0 (execGetLostResponses link ld skip s) := by
  unfold execGetLostResponses
  repeat' first
    | with_reducible assumption | intro _ | with_reducible apply State.mbox_keeps | with_reducible apply State.mboxCmd_keeps
    | with_reducible apply Keeps.ite

theorem execCxlMboxUnsupported_keeps {s0 s : State} (hk : Keeps s0 s) (link : LinkId) (ld : LdId) (_opcode : Nat) : KeepsR s0 (execCxlMboxUnsupported link ld _opcode s) := by
  unfold execCxlMboxUnsupported
  repeat' first
    | with_reducible assumption | with_reducible apply State.mbox_keeps | with_reducible apply KeepsR.next | with_reducible apply Keeps.ite

end Sys2Proof.Machine
end

