-- ==== Sys2Proof/Laws/KeepsApply.lean ====
section
/-! SUPPORT. Every operation of Machine/Apply.lean keeps what Keeps says. -/

namespace Sys2Proof.Machine

theorem State.buildIso_keeps {s0 s : State} (hk : Keeps s0 s) (p : Nat) (l : List RangeRec) : Keeps s0 (State.buildIso s p l) :=
  hk.same rfl rfl rfl rfl (fun c => { c with iso := Store.foldl_wf _ (fun _ _ h => Store.set_wf_const h) _ _ (Store.filter_wf _ c.iso) })

theorem State.buildBind_keeps {s0 s : State} (hk : Keeps s0 s) (p : Nat) (l : List (Nat × Nat)) : Keeps s0 (State.buildBind s p l) := by
  unfold State.buildBind
  refine Keeps.foldl ?_ (fun t x ht => State.ldActive_keeps ht _ _ _)
  have h : Keeps s0 ((s.binding.filter (fun e => e.2 == some p)).foldl (fun (s : State) e => s.ldActive (e.1 / 16) (e.1 % 16) false) s) :=
    Keeps.foldl hk (fun t x ht => State.ldActive_keeps ht _ _ _)
  exact ⟨h.queue, h.clock, h.sent, h.fresh, fun c =>
    { h.canonical c with binding := Store.foldl_wf _ (fun _ _ h => Store.set_wf_const h) _ _ (Store.filter_wf _ (hk.canonical c).binding) }⟩

theorem State.partRegs_keeps {s0 s : State} (hk : Keeps s0 s) (p : Nat) : Keeps s0 (State.partRegs s p) := by
  unfold State.partRegs
  repeat' first
    | with_reducible assumption | (intro v; have hv : Keeps s0 v := ?_; clear_value v) | (intro v; clear_value v)
    | with_reducible apply State.wr_keeps | with_reducible apply State.wrB_keeps | with_reducible apply State.wrF_keeps | lift_lets -underBinder
    | split

theorem State.firstKey_keeps {s0 s : State} (hk : Keeps s0 s) (p : Nat) : Keeps s0 (State.firstKey s p) := by
  unfold State.firstKey
  repeat' first
    | with_reducible assumption | (intro v; have hv : Keeps s0 v := ?_; clear_value v) | (intro v; clear_value v)
    | with_reducible apply State.newKey_keeps | with_reducible refine KeepsMk.of ?_ | with_reducible apply Keeps.ite | lift_lets -underBinder
    | simp -proj only [Keeps.mk_eq, TierSt.frames_mk]

theorem State.ownClusters_keeps {s0 s : State} (hk : Keeps s0 s) (was : Nat → Option Nat) : Keeps s0 (State.ownClusters s was) := by
  unfold State.ownClusters
  repeat' first
    | with_reducible assumption | intro _ | with_reducible apply State.wrB_keeps | with_reducible apply State.wrF_keeps
    | with_reducible apply State.zeroCluster_keeps | with_reducible apply Keeps.foldl | with_reducible apply Keeps.ite

theorem State.tellSkipped_keeps {s0 s : State} (hk : Keeps s0 s) (l : List ImgRec) : Keeps s0 (State.tellSkipped s l) := by
  unfold State.tellSkipped
  repeat' first
    | with_reducible assumption | intro _ | with_reducible apply State.raise_keeps | with_reducible apply Keeps.foldl | lift_lets -underBinder | split

theorem State.applyReload_keeps {s0 s : State} (hk : Keeps s0 s) (p : Nat) (i : Image) : Keeps s0 (State.applyReload s p i) := by
  unfold State.applyReload
  repeat' first
    | with_reducible assumption | (intro v; clear_value v) | intro _ | with_reducible apply State.abortMove_keeps
    | with_reducible apply State.arrayUpdate_keeps | with_reducible apply State.boundsUpdate_keeps | with_reducible apply State.buildBind_keeps
    | with_reducible apply State.buildIso_keeps | with_reducible apply State.checkDebt_keeps | with_reducible apply State.clrB_keeps
    | with_reducible apply State.dropReplica_keeps | with_reducible apply State.excess_keeps | with_reducible apply State.firstKey_keeps
    | with_reducible apply State.ownClusters_keeps | with_reducible apply State.partRegs_keeps | with_reducible apply State.resetObjs_keeps
    | with_reducible apply State.resetQueue_keeps | with_reducible apply State.setPart_keeps | with_reducible apply State.shipTable_keeps
    | with_reducible apply State.shwFlush_keeps | with_reducible apply Keeps.foldl | with_reducible refine KeepsMk.of ?_
    | with_reducible apply Keeps.ite | lift_lets -underBinder | split | simp -proj only [Keeps.mk_eq, TierSt.frames_mk]

theorem State.setIsland_keeps {s0 s : State} (hk : Keeps s0 s) (l : List ImgRec) (k : Nat) (f : Nat) (hot : Bool) : Keeps s0 (State.setIsland s l k f hot) := by
  unfold State.setIsland
  repeat' first
    | with_reducible assumption | (intro v; clear_value v) | with_reducible apply State.wrF_keeps | with_reducible refine KeepsMk.of ?_
    | with_reducible apply Keeps.ite | lift_lets -underBinder | split | simp -proj only [Keeps.mk_eq, TierSt.frames_mk]

theorem State.stateBias_keeps {s0 s : State} (hk : Keeps s0 s) (t : Nat) : Keeps s0 (State.stateBias s t) := by
  unfold State.stateBias
  repeat' first
    | with_reducible assumption | (intro v; clear_value v) | with_reducible refine KeepsMk.of ?_ | lift_lets -underBinder | split
    | simp -proj only [Keeps.mk_eq, TierSt.frames_mk]

theorem State.putMasks_keeps {s0 s : State} (hk : Keeps s0 s) (n : RegName) (m : List Nat) : Keeps s0 (State.putMasks s n m) := by
  unfold State.putMasks
  repeat' first
    | with_reducible assumption | intro _ | with_reducible apply State.wr_keeps | with_reducible apply Keeps.foldl

theorem State.applyTiers_keeps {s0 s : State} (hk : Keeps s0 s) (l : List ImgRec) (cold : Bool) : Keeps s0 (State.applyTiers s l cold) := by
  unfold State.applyTiers
  repeat' first
    | with_reducible assumption | with_reducible apply State.event_keeps | with_reducible apply State.putMasks_keeps
    | with_reducible apply State.wr_keeps | with_reducible apply State.wrF_keeps | with_reducible apply Keeps.ite

theorem State.applyMirror_keeps {s0 s : State} (hk : Keeps s0 s) (l : List ImgRec) : Keeps s0 (State.applyMirror s l) := by
  unfold State.applyMirror
  repeat' first
    | with_reducible assumption | (intro v; clear_value v) | intro _ | with_reducible apply State.raise_keeps | with_reducible apply State.wr_keeps
    | with_reducible apply Keeps.foldl | with_reducible refine KeepsMk.of ?_ | with_reducible apply Keeps.ite | lift_lets -underBinder | split
    | simp -proj only [Keeps.mk_eq, TierSt.frames_mk]

theorem State.applyShadow_keeps {s0 s : State} (hk : Keeps s0 s) (l : List ImgRec) : Keeps s0 (State.applyShadow s l) := by
  unfold State.applyShadow
  repeat' first
    | with_reducible assumption | (intro v; have hv : Keeps s0 v := ?_; clear_value v) | (intro v; clear_value v) | intro _
    | with_reducible apply State.raise_keeps | with_reducible apply State.wr_keeps | with_reducible apply Keeps.foldl
    | with_reducible refine KeepsMk.of ?_ | lift_lets -underBinder | split | simp -proj only [Keeps.mk_eq, TierSt.frames_mk]

theorem State.trim_keeps {s0 s : State} (hk : Keeps s0 s) (p : Nat) (top : Nat) : Keeps s0 (State.trim s p top).1 := by
  unfold State.trim
  repeat' first
    | with_reducible assumption | intro _ | with_reducible apply State.clearFrame_keeps | with_reducible apply State.dropPoison_keeps
    | with_reducible apply Keeps.foldl | with_reducible apply Keeps.ite_fst

theorem State.install_keeps {s0 s : State} (hk : Keeps s0 s) (i : Image) (source : Nat) (cold : Bool) (safe : Bool) : Keeps s0 (State.install s i source cold safe) := by
  unfold State.install
  repeat' first
    | with_reducible assumption | (intro v; have hv : Keeps s0 v := ?_; clear_value v) | (intro v; clear_value v) | intro _
    | with_reducible apply State.applyMirror_keeps | with_reducible apply State.applyShadow_keeps | with_reducible apply State.applyTiers_keeps
    | with_reducible apply State.buildBind_keeps | with_reducible apply State.buildIso_keeps | with_reducible apply State.firstKey_keeps
    | with_reducible apply State.ownClusters_keeps | with_reducible apply State.partRegs_keeps | with_reducible apply State.putDigest_keeps
    | with_reducible apply State.rateCaps_keeps | with_reducible apply State.setIsland_keeps | with_reducible apply State.setLink_keeps
    | with_reducible apply State.wr_keeps | with_reducible apply State.wrB_keeps | with_reducible apply State.wrF_keeps
    | with_reducible refine KeepsMk.tablesNil ?_ | with_reducible apply Keeps.foldl | with_reducible refine KeepsMk.of ?_
    | with_reducible apply Keeps.ite | lift_lets -underBinder | subst v | split | simp -proj only [Keeps.mk_eq, TierSt.frames_mk]

theorem State.takeParts_keeps {s0 s : State} (hk : Keeps s0 s) (l : List ImgRec) (safe : Bool) : Keeps s0 (State.takeParts s l safe) := by
  unfold State.takeParts
  repeat' first
    | with_reducible assumption | intro _ | with_reducible apply State.setPart_keeps | with_reducible apply Keeps.foldl

theorem State.applyImage_keeps {s0 s : State} (hk : Keeps s0 s) (i : Image) (source : Nat) (cold : Bool) (safe : Bool) : Keeps s0 (State.applyImage s i source cold safe) := by
  unfold State.applyImage
  repeat' first
    | with_reducible assumption | (intro v; clear_value v) | intro _ | with_reducible apply State.install_keeps
    | with_reducible apply State.raise_keeps | with_reducible apply State.takeParts_keeps | with_reducible apply State.tellSkipped_keeps
    | with_reducible apply State.trim_keeps | with_reducible apply State.wr_keeps | with_reducible apply Keeps.foldl
    | with_reducible refine Keeps.fst ?_ (by assumption) | with_reducible refine KeepsMk.of ?_ | with_reducible apply Keeps.ite
    | lift_lets -underBinder | split | simp -proj only [Keeps.mk_eq, TierSt.frames_mk]

end Sys2Proof.Machine
end

