-- ==== Sys2Proof/Laws/KeepsReset.lean ====
section
/-! SUPPORT. Every operation of Machine/Reset.lean keeps what Keeps says. -/

namespace Sys2Proof.Machine

theorem State.flushFrame_keeps {s0 s : State} (hk : Keeps s0 s) (p : Nat) (f : Nat) : Keeps s0 (State.flushFrame s p f).1 := by
  unfold State.flushFrame
  repeat' first
    | with_reducible assumption | (intro v; have hv : Keeps s0 v.1 := ?_; clear_value v) | with_reducible apply State.commitMove_keeps
    | with_reducible apply State.copyPages_keeps | with_reducible refine State.placeRun_keeps ?_ _ _ _ _ _ _ (by assumption)
    | with_reducible apply Keeps.ite_fst | lift_lets -underBinder | split

theorem State.flushPart_keeps {s0 s : State} (hk : Keeps s0 s) (p : Nat) (left : Option Nat) : Keeps s0 (State.flushPart s p left).1 := by
  unfold State.flushPart
  repeat' first
    | with_reducible assumption | (intro v; have hv : Keeps s0 v := ?_; clear_value v) | (intro v; have hv : Keeps s0 v.1 := ?_; clear_value v)
    | (intro v; clear_value v) | intro _ | with_reducible apply State.flushFrame_keeps | with_reducible apply Keeps.foldl_fst
    | with_reducible refine Keeps.fst ?_ (by assumption) | with_reducible refine KeepsMk.of ?_ | lift_lets -underBinder | subst v | dsimp -zeta only
    | split | simp -proj only [Keeps.mk_eq, TierSt.frames_mk]

theorem State.flushDurable_keeps {s0 s : State} (hk : Keeps s0 s) (left : Option Nat) : Keeps s0 (State.flushDurable s left) := by
  unfold State.flushDurable
  repeat' first
    | with_reducible assumption | intro _ | with_reducible apply State.flushPart_keeps | with_reducible apply Keeps.foldl_fst

theorem State.finishHost_keeps {s0 s : State} (hk : Keeps s0 s)  : Keeps s0 (State.finishHost s) := by
  unfold State.finishHost
  repeat' first
    | with_reducible assumption | intro _ | with_reducible apply State.fillSlot_keeps | with_reducible apply State.flashArrive_keeps
    | with_reducible apply State.flushSlots_keeps | with_reducible apply State.releaseWrites_keeps | with_reducible apply Keeps.foldl
    | with_reducible apply Keeps.ite

theorem State.linksDown_keeps {s0 s : State} (hk : Keeps s0 s)  : Keeps s0 (State.linksDown s) := by
  unfold State.linksDown
  repeat' first
    | with_reducible assumption | intro _ | with_reducible apply State.clrB_keeps | with_reducible apply State.linkDown_keeps
    | with_reducible apply Keeps.foldl

theorem State.stopModule_keeps {s0 s : State} (hk : Keeps s0 s) : Keeps s0 (State.stopModule s) := by
  unfold State.stopModule
  repeat' first
    | with_reducible assumption | intro _ | with_reducible apply State.commitAll_keeps | with_reducible apply State.finishHost_keeps
    | with_reducible apply State.linksDown_keeps | with_reducible apply State.setMemActive_keeps | with_reducible apply State.stopWork_keeps
    | with_reducible apply State.wrF_keeps | with_reducible apply Keeps.foldl

theorem State.keepRegs_wf {s : State} (h : s.regs.wf = true) (l : List RegName) : RegFile.wf (s.keepRegs l) = true := by
  unfold State.keepRegs
  exact RegFile.filter_wf h _

/-- The part of a reset that writes the tables, on a state whose running moves have been aborted. -/
theorem State.afterReset_keeps {s0 s : State} (hk : Keeps s0 s) (cold : Bool) : Keeps s0 (State.afterReset s cold) := by
  have hm : Keeps s0 (if cold then s else s.tier.moves.foldl (fun (s : State) m => if m.running then s.abortMove m.part m.frame else s) s) := by
    refine Keeps.ite hk (Keeps.foldl hk (fun t m ht => ?_))
    exact Keeps.ite (State.abortMove_keeps ht _ _) ht
  refine ⟨hm.queue, hm.clock, hm.sent, hm.fresh, fun c => ?_⟩
  have c1 := hm.canonical c
  have c0 := hk.canonical c
  refine ⟨c1.pool, State.keepRegs_wf c0.regs _, Store.foldl_wf _ (fun t x h => ?_) _ _ rfl, rfl, rfl, rfl, ?_, ?_, rfl, rfl, rfl, rfl⟩
  · split
    · exact Store.set_wf_const h
    · exact h
  · unfold State.afterReset
    dsimp only
    split
    · rfl
    · exact Store.foldl_wf _ (fun t x h => Store.set_wf_const h) _ _ rfl
  · unfold State.afterReset
    dsimp only
    cases cold
    · exact c1.frames
    · rfl

theorem State.sampleStraps_keeps {s0 s : State} (hk : Keeps s0 s) (l : List (BitVec 8)) : Keeps s0 (State.sampleStraps s l) := by
  unfold State.sampleStraps
  repeat' first
    | with_reducible assumption | intro _ | with_reducible apply State.event_keeps | with_reducible apply State.wr_keeps
    | with_reducible apply State.wrB_keeps | with_reducible apply Keeps.foldl | with_reducible apply Keeps.ite

theorem State.bootBank_keeps {s0 s : State} (hk : Keeps s0 s) (first : Nat) (bad : Nat → Bool) : Keeps s0 (State.bootBank s first bad).1 := by
  unfold State.bootBank
  repeat' first
    | with_reducible assumption | (intro v; have hv : Keeps s0 v := ?_; clear_value v) | (intro v; clear_value v)
    | with_reducible apply State.putDigest_keeps | with_reducible apply State.setB_keeps | with_reducible apply State.wr_keeps
    | with_reducible refine KeepsMk.of ?_ | with_reducible apply Keeps.ite | with_reducible apply Keeps.ite_fst | lift_lets -underBinder | split
    | simp -proj only [Keeps.mk_eq, TierSt.frames_mk]

theorem State.bootFirmware_keeps {s0 s : State} (hk : Keeps s0 s) (env : StartEnv) : Keeps s0 (State.bootFirmware s env).1 := by
  unfold State.bootFirmware
  repeat' first
    | with_reducible assumption | (intro v; have hv : Keeps s0 v := ?_; clear_value v) | (intro v; clear_value v)
    | with_reducible apply State.bootBank_keeps | with_reducible apply State.putDigest_keeps | with_reducible apply State.wr_keeps
    | with_reducible refine Keeps.fst ?_ (by assumption) | with_reducible refine KeepsMk.of ?_ | lift_lets -underBinder | dsimp -zeta only | subst v
    | split | simp -proj only [Keeps.mk_eq, TierSt.frames_mk]

theorem State.raiseSecurity_keeps {s0 s : State} (hk : Keeps s0 s)  : Keeps s0 (State.raiseSecurity s) := by
  unfold State.raiseSecurity
  repeat' first
    | with_reducible assumption | (intro v; clear_value v) | with_reducible apply State.wr_keeps | with_reducible refine KeepsMk.of ?_
    | with_reducible apply Keeps.ite | lift_lets -underBinder | simp -proj only [Keeps.mk_eq, TierSt.frames_mk]

theorem State.seatBoot_keeps {s0 s : State} (hk : Keeps s0 s) (present : BitVec 4) : Keeps s0 (State.seatBoot s present) := by
  unfold State.seatBoot
  repeat' first
    | with_reducible assumption | (intro v; clear_value v) | intro _ | with_reducible apply Keeps.foldl | with_reducible refine KeepsMk.of ?_
    | with_reducible refine KeepsMk.free ?_ _ | with_reducible apply Keeps.ite | lift_lets -underBinder
    | simp -proj only [Keeps.mk_eq, TierSt.frames_mk]

theorem State.tryImages_keeps {s0 : State} : ∀ (l : List (Nat × Option ImgBytes)) (s : State), Keeps s0 s → Keeps s0 (State.tryImages s l).1
  | [], _, h => h
  | (_, none) :: t, s, h => by unfold State.tryImages; exact State.tryImages_keeps t s h
  | (c, some b) :: t, s, h => by
    unfold State.tryImages
    split
    · exact h
    · exact State.tryImages_keeps t _ (State.raise_keeps (State.wr_keeps h _ _ _ _) _)

theorem State.statusFlags_keeps {s0 s : State} (hk : Keeps s0 s) (safe : Bool) (fallback : Bool) : Keeps s0 (State.statusFlags s safe fallback) := by
  unfold State.statusFlags
  repeat' first
    | with_reducible assumption | with_reducible apply State.wr_keeps | with_reducible apply State.wrB_keeps

theorem State.applyOr_keeps {s0 s : State} (hk : Keeps s0 s) (i : Option Image) (source : Nat) (cold : Bool) (safe : Bool) : Keeps s0 (State.applyOr s i source cold safe) := by
  unfold State.applyOr
  repeat' first
    | with_reducible assumption | (intro v; have hv : Keeps s0 v := ?_; clear_value v) | (intro v; clear_value v)
    | with_reducible apply State.applyImage_keeps | with_reducible apply State.wrB_keeps | with_reducible refine KeepsMk.of ?_
    | lift_lets -underBinder | simp -proj only [Keeps.mk_eq, TierSt.frames_mk]

theorem State.specialMode_keeps {s0 s : State} (hk : Keeps s0 s) (on : Bool) (test : Bool) : Keeps s0 (State.specialMode s on test) := by
  unfold State.specialMode
  repeat' first
    | with_reducible assumption | (intro v; clear_value v) | with_reducible refine KeepsMk.of ?_ | lift_lets -underBinder
    | simp -proj only [Keeps.mk_eq, TierSt.frames_mk]

theorem State.chooseCold_keeps {s0 s : State} (hk : Keeps s0 s) : Keeps s0 (State.chooseCold s) := by
  unfold State.chooseCold
  repeat' first
    | with_reducible assumption | (intro v; have hv : Keeps s0 v := ?_; clear_value v) | (intro v; clear_value v)
    | with_reducible apply State.applyOr_keeps | with_reducible apply State.specialMode_keeps | with_reducible apply State.statusFlags_keeps
    | with_reducible apply State.tryImages_keeps | with_reducible refine KeepsMk.of ?_ | with_reducible apply Keeps.ite | lift_lets -underBinder
    | dsimp -zeta only | subst v | split | simp -proj only [Keeps.mk_eq, TierSt.frames_mk]

theorem State.chooseWarm_keeps {s0 s : State} (hk : Keeps s0 s) (source : Nat) (fallback : Bool) : Keeps s0 (State.chooseWarm s source fallback) := by
  unfold State.chooseWarm
  repeat' first
    | with_reducible assumption | (intro v; clear_value v) | with_reducible apply State.applyOr_keeps | with_reducible apply State.install_keeps
    | with_reducible apply State.specialMode_keeps | with_reducible apply State.statusFlags_keeps | with_reducible apply State.takeParts_keeps
    | with_reducible apply State.tryImages_keeps | with_reducible apply State.wrB_keeps | with_reducible refine Keeps.fst ?_ (by assumption)
    | with_reducible refine KeepsMk.of ?_ | with_reducible apply Keeps.ite | lift_lets -underBinder | split
    | simp -proj only [Keeps.mk_eq, TierSt.frames_mk]

theorem State.openPorts_keeps {s0 s : State} (hk : Keeps s0 s) (env : StartEnv) : Keeps s0 (State.openPorts s env) := by
  unfold State.openPorts
  repeat' first
    | with_reducible assumption | intro _ | with_reducible apply State.raise_keeps | with_reducible apply State.setB_keeps
    | with_reducible apply State.startTraining_keeps | with_reducible apply State.wr_keeps | with_reducible apply Keeps.foldl
    | with_reducible apply Keeps.ite

theorem State.putTraining_keeps {s0 s : State} (hk : Keeps s0 s) (c : Nat) (lanes : List LaneSt) (saved : Bool) : Keeps s0 (State.putTraining s c lanes saved) := by
  unfold State.putTraining
  repeat' first
    | with_reducible assumption | (intro v; clear_value v) | with_reducible apply State.wr_keeps | with_reducible refine KeepsMk.of ?_
    | lift_lets -underBinder | simp -proj only [Keeps.mk_eq, TierSt.frames_mk]

theorem State.sweepCtrl_keeps {s0 s : State} (hk : Keeps s0 s) (c : Nat) (weak : List (Nat × Bool)) : Keeps s0 (State.sweepCtrl s c weak) := by
  unfold State.sweepCtrl
  repeat' first
    | with_reducible assumption | intro _ | with_reducible apply State.event_keeps | with_reducible apply State.nextFree_keeps
    | with_reducible apply State.putTraining_keeps | with_reducible apply State.saveLanes_keeps | with_reducible apply Keeps.foldl

theorem State.trainOne_keeps {s0 s : State} (hk : Keeps s0 s) (c : Nat) (reuse : Bool) (weak : List (Nat × Bool)) : Keeps s0 (State.trainOne s c reuse weak) := by
  unfold State.trainOne
  repeat' first
    | with_reducible assumption | with_reducible apply State.putTraining_keeps | with_reducible apply State.sweepCtrl_keeps | split

theorem State.recallSpares_keeps {s0 s : State} (hk : Keeps s0 s)  : Keeps s0 (State.recallSpares s) := by
  unfold State.recallSpares
  repeat' first
    | with_reducible assumption | intro _ | with_reducible apply State.wrF_keeps | with_reducible apply Keeps.foldl | with_reducible apply Keeps.ite

theorem State.coldReplace_keeps {s0 s : State} (hk : Keeps s0 s) (c : Nat) (fails : List Nat) : Keeps s0 (State.coldReplace s c fails) := by
  unfold State.coldReplace
  repeat' first
    | with_reducible assumption | with_reducible apply State.channelOut_keeps | with_reducible apply State.event_keeps
    | with_reducible apply State.wrB_keeps | with_reducible apply State.wrF_keeps | with_reducible apply Keeps.ite

theorem State.trainAll_keeps {s0 s : State} (hk : Keeps s0 s) (env : StartEnv) (cold : Bool) : Keeps s0 (State.trainAll s env cold) := by
  unfold State.trainAll
  repeat' first
    | with_reducible assumption | (intro v; clear_value v) | intro _ | with_reducible apply State.channelOut_keeps
    | with_reducible apply State.coldReplace_keeps | with_reducible apply State.recallSpares_keeps | with_reducible apply State.stackDown_keeps
    | with_reducible apply State.trainOne_keeps | with_reducible apply State.wrB_keeps | with_reducible apply Keeps.foldl
    | with_reducible refine KeepsMk.of ?_ | with_reducible apply Keeps.ite | lift_lets -underBinder | simp -proj only [Keeps.mk_eq, TierSt.frames_mk]

theorem State.mountCarriers_keeps {s0 s : State} (hk : Keeps s0 s) (present : BitVec 4) : Keeps s0 (State.mountCarriers s present) := by
  unfold State.mountCarriers
  repeat' first
    | with_reducible assumption | intro _ | with_reducible apply State.adoptOne_keeps | with_reducible apply State.arrayUpdate_keeps
    | with_reducible apply State.membersLost_keeps | with_reducible apply State.setBay_keeps | with_reducible apply State.setBayState_keeps
    | with_reducible apply State.setInd_keeps | with_reducible apply State.trainFlash_keeps | with_reducible apply State.wr_keeps
    | with_reducible apply State.wrB_keeps | with_reducible apply Keeps.foldl | with_reducible apply Keeps.ite

theorem State.metaKey_keeps {s0 s : State} (hk : Keeps s0 s) : Keeps s0 (State.metaKey s) := by
  unfold State.metaKey
  repeat' first
    | with_reducible assumption | (intro v; clear_value v) | with_reducible apply State.freshKey_keeps | with_reducible refine KeepsMk.of ?_
    | with_reducible apply Keeps.ite | lift_lets -underBinder | dsimp -zeta only | simp -proj only [Keeps.mk_eq, TierSt.frames_mk]

theorem State.setCause_keeps {s0 s : State} (hk : Keeps s0 s) (cause : Nat) : Keeps s0 (State.setCause s cause) := by
  unfold State.setCause
  repeat' first
    | with_reducible assumption | (intro v; have hv : Keeps s0 v := ?_; clear_value v) | (intro v; clear_value v)
    | with_reducible apply State.wr_keeps | with_reducible refine KeepsMk.of ?_ | lift_lets -underBinder
    | simp -proj only [Keeps.mk_eq, TierSt.frames_mk]

theorem State.restorePart_keeps {s0 s : State} (hk : Keeps s0 s) (p : Nat) (clean : Bool) : Keeps s0 (State.restorePart s p clean) := by
  unfold State.restorePart
  repeat' first
    | with_reducible assumption | (intro v; clear_value v) | intro _ | with_reducible apply State.addPoison_keeps
    | with_reducible apply State.event_keeps | with_reducible apply State.setFrame_keeps | with_reducible apply State.setMemActive_keeps
    | with_reducible apply State.trim_keeps | with_reducible apply Keeps.foldl | with_reducible refine KeepsMk.of ?_ | with_reducible apply Keeps.ite
    | lift_lets -underBinder | simp -proj only [Keeps.mk_eq, TierSt.frames_mk]

theorem State.keepRestored_keeps {s0 s : State} (hk : Keeps s0 s) : Keeps s0 (State.keepRestored s) :=
  hk.same rfl rfl rfl rfl (fun c => { c with pool := Memory.filter_wf _ c.pool })

theorem State.openWindow_keeps {s0 s : State} (hk : Keeps s0 s) : Keeps s0 (State.openWindow s) := by
  unfold State.openWindow
  repeat' first
    | with_reducible assumption | with_reducible apply State.shwOpen_keeps | with_reducible apply Keeps.ite | split

theorem State.putPending_keeps {s0 s : State} (hk : Keeps s0 s) (t : Option Nat) : Keeps s0 (State.putPending s t) := by
  unfold State.putPending
  repeat' first
    | with_reducible assumption | with_reducible apply State.wrB_keeps | with_reducible apply State.wrF_keeps | split

theorem State.takePending_keeps {s0 s : State} (hk : Keeps s0 s)  : Keeps s0 (State.takePending s) := by
  unfold State.takePending
  repeat' first
    | with_reducible assumption | with_reducible apply State.pwrRequest_keeps | with_reducible apply State.wrB_keeps | with_reducible apply Keeps.ite

theorem State.running_keeps {s0 s : State} (hk : Keeps s0 s)  : Keeps s0 (State.running s) := by
  unfold State.running
  repeat' first
    | with_reducible assumption | with_reducible apply State.raiseSecurity_keeps | with_reducible apply State.takePending_keeps
    | with_reducible apply State.wrF_keeps

theorem State.coldStart_keeps {s0 s : State} (hk : Keeps s0 s) (env : StartEnv) : Keeps s0 (State.coldStart s env) := by
  unfold State.coldStart
  repeat' first
    | with_reducible assumption | (intro v; have hv : Keeps s0 v := ?_; clear_value v) | (intro v; clear_value v) | intro _
    | with_reducible apply State.afterReset_keeps | with_reducible apply State.bootFirmware_keeps | with_reducible apply State.chooseCold_keeps
    | with_reducible apply State.keepRestored_keeps | with_reducible apply State.metaKey_keeps | with_reducible apply State.mountCarriers_keeps
    | with_reducible apply State.newKey_keeps | with_reducible apply State.openPorts_keeps | with_reducible apply State.openWindow_keeps
    | with_reducible apply State.putPending_keeps | with_reducible apply State.restorePart_keeps | with_reducible apply State.running_keeps
    | with_reducible apply State.sampleStraps_keeps | with_reducible apply State.seatBoot_keeps | with_reducible apply State.setCause_keeps
    | with_reducible apply State.setMemActive_keeps | with_reducible apply State.trainAll_keeps | with_reducible apply State.wrB_keeps
    | with_reducible apply State.wrF_keeps | with_reducible apply Keeps.foldl | with_reducible refine Keeps.fst ?_ (by assumption)
    | with_reducible apply Keeps.ite | lift_lets -underBinder | split

theorem State.warmStart_keeps {s0 s : State} (hk : Keeps s0 s) (env : StartEnv) (cause : Nat) : Keeps s0 (State.warmStart s env cause) := by
  unfold State.warmStart
  repeat' first
    | with_reducible assumption | (intro v; have hv : Keeps s0 v := ?_; clear_value v) | (intro v; clear_value v) | intro _
    | with_reducible apply State.afterReset_keeps | with_reducible apply State.bootFirmware_keeps | with_reducible apply State.chooseWarm_keeps
    | with_reducible apply State.mountCarriers_keeps | with_reducible apply State.openPorts_keeps | with_reducible apply State.openWindow_keeps
    | with_reducible apply State.running_keeps | with_reducible apply State.sampleStraps_keeps | with_reducible apply State.setCause_keeps
    | with_reducible apply State.setMemActive_keeps | with_reducible apply State.trainAll_keeps | with_reducible apply State.wrF_keeps
    | with_reducible apply Keeps.foldl | with_reducible refine Keeps.fst ?_ (by assumption) | lift_lets -underBinder | split

theorem State.calmEnv_keeps {s0 s : State} (hk : Keeps s0 s) : Keeps s0 (State.calmEnv s).2 := by
  unfold State.calmEnv
  repeat' first
    | with_reducible assumption | (intro v; clear_value v) | with_reducible refine KeepsMk.free ?_ _ | lift_lets -underBinder | dsimp -zeta only
    | simp -proj only [Keeps.mk_eq, TierSt.frames_mk]

theorem State.coldReset_keeps {s0 s : State} (hk : Keeps s0 s) (cause : Nat) : Keeps s0 (State.coldReset s cause) := by
  unfold State.coldReset
  repeat' first
    | with_reducible assumption | (intro v; have hv : Keeps s0 v := ?_; clear_value v) | (intro v; clear_value v)
    | with_reducible apply State.afterReset_keeps | with_reducible refine KeepsMk.of ?_ | lift_lets -underBinder
    | simp -proj only [Keeps.mk_eq, TierSt.frames_mk]

theorem State.coldFollows_keeps {s0 s : State} (hk : Keeps s0 s)  : Keeps s0 (State.coldFollows s) := by
  unfold State.coldFollows
  repeat' first
    | with_reducible assumption | with_reducible apply State.coldReset_keeps | with_reducible apply State.coldStart_keeps | split

theorem execModRstAssert_keeps {s0 s : State} (hk : Keeps s0 s) (ns : Nat) : KeepsR s0 (execModRstAssert ns s) := by
  unfold execModRstAssert
  repeat' first
    | with_reducible assumption | (intro v; clear_value v) | with_reducible apply State.coldReset_keeps
    | with_reducible apply State.flushDurable_keeps | with_reducible apply State.stopModule_keeps | with_reducible apply KeepsR.next
    | with_reducible refine KeepsMk.of ?_ | with_reducible apply Keeps.ite | lift_lets -underBinder | simp -proj only [Keeps.mk_eq, TierSt.frames_mk]

theorem execModRstDeassert_keeps {s0 s : State} (hk : Keeps s0 s) (env : StartEnv) : KeepsR s0 (execModRstDeassert env s) := by
  unfold execModRstDeassert
  repeat' first
    | with_reducible assumption | (intro v; clear_value v) | with_reducible apply State.coldStart_keeps | with_reducible apply KeepsR.next
    | with_reducible refine KeepsMk.of ?_ | with_reducible apply Keeps.ite | lift_lets -underBinder | simp -proj only [Keeps.mk_eq, TierSt.frames_mk]

theorem State.warmReset_keeps {s0 s : State} (hk : Keeps s0 s) (env : StartEnv) (cause : Nat) : Keeps s0 (State.warmReset s env cause) := by
  unfold State.warmReset
  repeat' first
    | with_reducible assumption | with_reducible apply State.stopModule_keeps | with_reducible apply State.warmStart_keeps

theorem State.warmCmd_keeps {s0 s : State} (hk : Keeps s0 s) (env : StartEnv) : Keeps s0 (State.warmCmd s env) := by
  unfold State.warmCmd
  repeat' first
    | with_reducible assumption | (intro v; have hv : Keeps s0 v := ?_; clear_value v) | (intro v; clear_value v)
    | with_reducible apply State.setB_keeps | with_reducible apply State.warmReset_keeps | with_reducible refine KeepsMk.of ?_
    | with_reducible apply Keeps.ite | lift_lets -underBinder | simp -proj only [Keeps.mk_eq, TierSt.frames_mk]

theorem State.warmAnew_keeps {s0 s : State} (hk : Keeps s0 s) (cause : Nat) : Keeps s0 (State.warmAnew s cause) := by
  unfold State.warmAnew
  repeat' first
    | with_reducible assumption | with_reducible apply State.calmEnv_keeps | with_reducible apply State.warmReset_keeps

theorem State.coldAnew_keeps {s0 s : State} (hk : Keeps s0 s) : Keeps s0 (State.coldAnew s) := by
  unfold State.coldAnew
  repeat' first
    | with_reducible assumption | with_reducible apply State.calmEnv_keeps | with_reducible apply State.coldStart_keeps

theorem State.warmWrite_keeps {s0 s : State} (hk : Keeps s0 s) : Keeps s0 (State.warmWrite s) := by
  unfold State.warmWrite
  repeat' first
    | with_reducible assumption | with_reducible apply State.calmEnv_keeps | with_reducible apply State.warmCmd_keeps

theorem execWarmReset_keeps {s0 s : State} (hk : Keeps s0 s) (env : StartEnv) : KeepsR s0 (execWarmReset env s) := by
  unfold execWarmReset
  repeat' first
    | with_reducible assumption | with_reducible apply State.warmCmd_keeps | with_reducible apply KeepsR.next

theorem State.shutdownCmd_keeps {s0 s : State} (hk : Keeps s0 s) : Keeps s0 (State.shutdownCmd s) := by
  unfold State.shutdownCmd
  repeat' first
    | with_reducible assumption | (intro v; have hv : Keeps s0 v := ?_; clear_value v) | (intro v; clear_value v)
    | with_reducible apply State.clrB_keeps | with_reducible apply State.setB_keeps | with_reducible apply State.stopModule_keeps
    | with_reducible refine KeepsMk.of ?_ | with_reducible apply Keeps.ite | lift_lets -underBinder | simp -proj only [Keeps.mk_eq, TierSt.frames_mk]

theorem execShutdown_keeps {s0 s : State} (hk : Keeps s0 s)  : KeepsR s0 (execShutdown s) := by
  unfold execShutdown
  repeat' first
    | with_reducible assumption | with_reducible apply State.shutdownCmd_keeps | with_reducible apply KeepsR.next

theorem execShutdownComplete_keeps {s0 s : State} (hk : Keeps s0 s)  : KeepsR s0 (execShutdownComplete s) := by
  unfold execShutdownComplete
  repeat' first
    | with_reducible assumption | (intro v; clear_value v) | intro _ | with_reducible apply State.channelsDown_keeps
    | with_reducible apply State.clrB_keeps | with_reducible apply State.coldFollows_keeps | with_reducible apply State.flushDurable_keeps
    | with_reducible apply State.setInd_keeps | with_reducible apply State.wrB_keeps | with_reducible apply State.wrF_keeps
    | with_reducible apply Keeps.foldl | with_reducible apply KeepsR.next | with_reducible refine KeepsMk.of ?_ | with_reducible apply Keeps.ite
    | lift_lets -underBinder | simp -proj only [Keeps.mk_eq, TierSt.frames_mk]

theorem State.stageWrite_keeps {s0 s : State} (hk : Keeps s0 s) (off : Nat) (size : Nat) (val : Nat) : Keeps s0 (State.stageWrite s off size val) := by
  unfold State.stageWrite
  repeat' first
    | with_reducible assumption | (intro v; clear_value v) | with_reducible refine KeepsMk.of ?_ | with_reducible apply Keeps.ite
    | lift_lets -underBinder | simp -proj only [Keeps.mk_eq, TierSt.frames_mk]

theorem execStagingWrite_keeps {s0 s : State} (hk : Keeps s0 s) (off : Nat) (size : Nat) (val : Nat) : KeepsR s0 (execStagingWrite off size val s) := by
  unfold execStagingWrite
  repeat' first
    | with_reducible assumption | with_reducible apply State.send_keeps | with_reducible apply State.stageWrite_keeps
    | with_reducible apply KeepsR.next | with_reducible apply Keeps.ite

theorem State.loadStart_keeps {s0 s : State} (hk : Keeps s0 s)  : Keeps s0 (State.loadStart s) := by
  unfold State.loadStart
  repeat' first
    | with_reducible assumption | (intro v; have hv : Keeps s0 v := ?_; clear_value v) | (intro v; clear_value v)
    | with_reducible apply State.setB_keeps | with_reducible refine KeepsMk.of ?_ | with_reducible apply Keeps.ite | lift_lets -underBinder
    | simp -proj only [Keeps.mk_eq, TierSt.frames_mk]

theorem execImageLoadStart_keeps {s0 s : State} (hk : Keeps s0 s)  : KeepsR s0 (execImageLoadStart s) := by
  unfold execImageLoadStart
  repeat' first
    | with_reducible assumption | with_reducible apply State.loadStart_keeps | with_reducible apply KeepsR.next

theorem State.clearPend_keeps {s0 s : State} (hk : Keeps s0 s)  : Keeps s0 (State.clearPend s) := by
  unfold State.clearPend
  repeat' first
    | with_reducible assumption | (intro v; clear_value v) | with_reducible apply State.clrB_keeps | with_reducible apply State.setB_keeps
    | with_reducible apply State.wr_keeps | with_reducible refine KeepsMk.of ?_ | with_reducible apply Keeps.ite | lift_lets -underBinder
    | simp -proj only [Keeps.mk_eq, TierSt.frames_mk]

theorem execClearPending_keeps {s0 s : State} (hk : Keeps s0 s)  : KeepsR s0 (execClearPending s) := by
  unfold execClearPending
  repeat' first
    | with_reducible assumption | with_reducible apply State.clearPend_keeps | with_reducible apply KeepsR.next

theorem State.revoke_keeps {s0 s : State} (hk : Keeps s0 s) (m : Nat) : Keeps s0 (State.revoke s m) := by
  unfold State.revoke
  repeat' first
    | with_reducible assumption | with_reducible apply State.wrF_keeps

theorem execKeyRevoke_keeps {s0 s : State} (hk : Keeps s0 s) (mask : BitVec 4) : KeepsR s0 (execKeyRevoke mask s) := by
  unfold execKeyRevoke
  repeat' first
    | with_reducible assumption | with_reducible apply State.revoke_keeps | with_reducible apply KeepsR.next

theorem State.loadEnd_keeps {s0 s : State} (hk : Keeps s0 s)  : Keeps s0 (State.loadEnd s) := by
  unfold State.loadEnd
  repeat' first
    | with_reducible assumption | (intro v; have hv : Keeps s0 v := ?_; clear_value v) | (intro v; clear_value v)
    | with_reducible apply State.clrB_keeps | with_reducible apply State.setB_keeps | with_reducible apply State.shutdownCmd_keeps
    | with_reducible apply State.takePending_keeps | with_reducible apply State.warmCmd_keeps | with_reducible refine KeepsMk.of ?_
    | lift_lets -underBinder | subst v | split | simp -proj only [Keeps.mk_eq, TierSt.frames_mk]

theorem State.loadRefused_keeps {s0 s : State} (hk : Keeps s0 s) (st : Nat) (k : Nat) : Keeps s0 (State.loadRefused s st k) := by
  unfold State.loadRefused
  repeat' first
    | with_reducible assumption | with_reducible apply State.event_keeps | with_reducible apply State.loadEnd_keeps
    | with_reducible apply State.wr_keeps

theorem execImageLoadComplete_keeps {s0 s : State} (hk : Keeps s0 s)  : KeepsR s0 (execImageLoadComplete s) := by
  unfold execImageLoadComplete
  repeat' first
    | with_reducible assumption | (intro v; clear_value v) | with_reducible apply State.applyReload_keeps | with_reducible apply State.loadEnd_keeps
    | with_reducible apply State.loadRefused_keeps | with_reducible apply State.raise_keeps | with_reducible apply State.setB_keeps
    | with_reducible apply State.tellSkipped_keeps | with_reducible apply State.wr_keeps | with_reducible apply KeepsR.next
    | with_reducible refine KeepsMk.of ?_ | with_reducible apply Keeps.ite | lift_lets -underBinder | split
    | simp -proj only [Keeps.mk_eq, TierSt.frames_mk]

end Sys2Proof.Machine
end

