-- ==== Sys2Proof/Laws/KeepsQos.lean ====
section
/-! SUPPORT. Every operation of Machine/Qos.lean keeps what Keeps says. -/

namespace Sys2Proof.Machine

theorem State.qosMiss_keeps {s0 s : State} (hk : Keeps s0 s) (p : Nat) (c : Nat) (kind : Nat) (value : Nat) (top : Nat) : Keeps s0 (State.qosMiss s p c kind value top) := by
  unfold State.qosMiss
  repeat' first
    | with_reducible assumption | (intro v; clear_value v) | with_reducible apply State.incErr_keeps | with_reducible apply State.raiseGathered_keeps
    | with_reducible apply State.setB_keeps | with_reducible apply State.wr_keeps | with_reducible refine KeepsMk.of ?_ | lift_lets -underBinder
    | simp -proj only [Keeps.mk_eq, TierSt.frames_mk]

theorem State.qosWindow_keeps {s0 s : State} (hk : Keeps s0 s) (p : Nat) (c : Nat) (x : QosSample) : Keeps s0 (State.qosWindow s p c x) := by
  unfold State.qosWindow
  repeat' first
    | with_reducible assumption | with_reducible apply State.qosMiss_keeps | with_reducible apply State.wr_keeps | with_reducible apply Keeps.ite

theorem State.windowEnd_keeps {s0 s : State} (hk : Keeps s0 s) (p : Nat) : Keeps s0 (State.windowEnd s p) := by
  unfold State.windowEnd
  repeat' first
    | with_reducible assumption | (intro v; have hv : Keeps s0 v := ?_; clear_value v) | with_reducible apply State.reach_keeps
    | with_reducible refine KeepsMk.of ?_ | lift_lets -underBinder | simp -proj only [Keeps.mk_eq, TierSt.frames_mk]

theorem execQosWindowEnd_keeps {s0 s : State} (hk : Keeps s0 s) (p : PartId) (samples : List QosSample) : KeepsR s0 (execQosWindowEnd p samples s) := by
  unfold execQosWindowEnd
  repeat' first
    | with_reducible assumption | intro _ | with_reducible apply State.qosWindow_keeps | with_reducible apply State.windowEnd_keeps
    | with_reducible apply Keeps.foldl | with_reducible apply KeepsR.next

theorem execBgRateSample_keeps {s0 s : State} (hk : Keeps s0 s) (busy0 : Nat) (busy1 : Nat) : KeepsR s0 (execBgRateSample busy0 busy1 s) := by
  unfold execBgRateSample
  repeat' first
    | with_reducible assumption | (intro v; have hv : Nat := v; clear hv; clear_value v) | (intro v; have hv : Keeps s0 v := ?_; clear_value v)
    | with_reducible apply State.wr_keeps | with_reducible apply State.reach_keeps
    | with_reducible refine KeepsMk.of ?_ | with_reducible apply KeepsR.next | lift_lets -underBinder | simp -proj only [Keeps.mk_eq, TierSt.frames_mk]

theorem execRequestAgeExpiry_keeps {s0 s : State} (hk : Keeps s0 s) (link : LinkId) (tag : Nat) : KeepsR s0 (execRequestAgeExpiry link tag s) := by
  unfold execRequestAgeExpiry
  repeat' first
    | with_reducible assumption | (intro v; have hv : TierSt := v; clear hv; subst v) | (intro v; clear_value v)
    | with_reducible apply State.reach_keeps | with_reducible apply KeepsR.next | with_reducible refine KeepsMk.of ?_ | lift_lets -underBinder | split
    | simp -proj only [Keeps.mk_eq, TierSt.frames_mk]

theorem State.pinSince_keeps {s0 s : State} (hk : Keeps s0 s) (n : Nat) (t : Option Nat) : Keeps s0 (State.pinSince s n t) := by
  unfold State.pinSince
  repeat' first
    | with_reducible assumption | (intro v; clear_value v) | with_reducible refine KeepsMk.of ?_ | lift_lets -underBinder
    | simp -proj only [Keeps.mk_eq, TierSt.frames_mk]

theorem execUrgPinChange_keeps {s0 s : State} (hk : Keeps s0 s) (pin : Fin 4) (asserted : Bool) : KeepsR s0 (execUrgPinChange pin asserted s) := by
  unfold execUrgPinChange
  repeat' first
    | with_reducible assumption | with_reducible apply State.clrB_keeps | with_reducible apply State.pinSince_keeps
    | with_reducible apply State.setB_keeps | with_reducible apply KeepsR.next | with_reducible apply Keeps.ite

theorem execUrgPinStuck_keeps {s0 s : State} (hk : Keeps s0 s) (pin : Fin 4) : KeepsR s0 (execUrgPinStuck pin s) := by
  unfold execUrgPinStuck
  repeat' first
    | with_reducible assumption | with_reducible apply State.event_keeps | with_reducible apply State.reach_keeps
    | with_reducible apply State.setB_keeps | with_reducible apply KeepsR.next | with_reducible apply Keeps.ite

end Sys2Proof.Machine
end

