-- ==== Sys2Proof/Laws/KeepsMirror.lean ====
section
/-! SUPPORT. Every operation of Machine/Mirror.lean keeps what Keeps says. -/

namespace Sys2Proof.Machine

theorem State.setMirState_keeps {s0 s : State} (hk : Keeps s0 s) (p : Nat) (v : Nat) : Keeps s0 (State.setMirState s p v) := by
  unfold State.setMirState
  repeat' first
    | with_reducible assumption | with_reducible apply State.wrF_keeps

theorem State.setPair_keeps {s0 s : State} (hk : Keeps s0 s) (p : Nat) (role : Nat) (gen : Nat) : Keeps s0 (State.setPair s p role gen) := by
  unfold State.setPair
  repeat' first
    | with_reducible assumption | (intro v; have hv : Keeps s0 v := ?_; clear_value v) | (intro v; clear_value v)
    | with_reducible apply State.wr_keeps | with_reducible apply State.wrF_keeps | with_reducible refine KeepsMk.of ?_ | lift_lets -underBinder
    | simp -proj only [Keeps.mk_eq, TierSt.frames_mk]

theorem State.epochRegs_keeps {s0 s : State} (hk : Keeps s0 s) (p : Nat) : Keeps s0 (State.epochRegs s p) := by
  unfold State.epochRegs
  repeat' first
    | with_reducible assumption | with_reducible apply State.wr_keeps

theorem State.mirRefuse_keeps {s0 s : State} (hk : Keeps s0 s) (p : Nat) (b : Nat) (st : Nat) : Keeps s0 (State.mirRefuse s p b st) := by
  unfold State.mirRefuse
  repeat' first
    | with_reducible assumption | with_reducible apply State.raise_keeps | with_reducible apply State.wrB_keeps

theorem State.mirConflict_keeps {s0 s : State} (hk : Keeps s0 s) (p : Nat) : Keeps s0 (State.mirConflict s p) := by
  unfold State.mirConflict
  repeat' first
    | with_reducible assumption | with_reducible apply State.raise_keeps | with_reducible apply State.setB_keeps
    | with_reducible apply State.setMirState_keeps

theorem State.serveAgain_keeps {s0 s : State} (hk : Keeps s0 s) (p : Nat) : Keeps s0 (State.serveAgain s p) := by
  unfold State.serveAgain
  repeat' first
    | with_reducible assumption | with_reducible apply State.setMemActive_keeps | with_reducible apply Keeps.ite

theorem State.releaseAwait_keeps {s0 s : State} (hk : Keeps s0 s) (h : Nat) (a : Await) : Keeps s0 (State.releaseAwait s h a) := by
  unfold State.releaseAwait
  repeat' first
    | with_reducible assumption | with_reducible apply State.descFinish_keeps | with_reducible apply State.descGone_keeps
    | with_reducible apply State.hostCmp_keeps | with_reducible apply State.setDesc_keeps | with_reducible apply State.syncDone_keeps
    | with_reducible apply Keeps.ite | lift_lets -underBinder | split

theorem State.releaseAwaits_keeps {s0 s : State} (hk : Keeps s0 s) (p : Nat) (f : Nat → Nat → Bool) : Keeps s0 (State.releaseAwaits s p f) := by
  unfold State.releaseAwaits
  repeat' first
    | with_reducible assumption | intro _ | with_reducible apply State.releaseAwait_keeps | with_reducible apply State.setMirPart_keeps
    | with_reducible apply Keeps.foldl

theorem State.releaseHeld_keeps {s0 s : State} (hk : Keeps s0 s) (p : Nat) : Keeps s0 (State.releaseHeld s p) := by
  unfold State.releaseHeld
  repeat' first
    | with_reducible assumption | intro _ | with_reducible apply State.runHeld_keeps | with_reducible apply State.setMirPart_keeps
    | with_reducible apply Keeps.foldl

theorem State.enterSolo_keeps {s0 s : State} (hk : Keeps s0 s) (p : Nat) : Keeps s0 (State.enterSolo s p) := by
  unfold State.enterSolo
  repeat' first
    | with_reducible assumption | with_reducible apply State.releaseAwaits_keeps | with_reducible apply State.serveAgain_keeps
    | with_reducible apply State.setMirPart_keeps | with_reducible apply State.setMirState_keeps

theorem State.closeEpoch_keeps {s0 s : State} (hk : Keeps s0 s) (p : Nat) (h : Nat) : Keeps s0 (State.closeEpoch s p h) := by
  unfold State.closeEpoch
  repeat' first
    | with_reducible assumption | with_reducible apply State.epochRegs_keeps | with_reducible apply State.send_keeps
    | with_reducible apply State.setMirPart_keeps

theorem State.closeBoth_keeps {s0 s : State} (hk : Keeps s0 s) (p : Nat) : Keeps s0 (State.closeBoth s p) := by
  unfold State.closeBoth
  repeat' first
    | with_reducible assumption | with_reducible apply State.closeEpoch_keeps

theorem State.rebuildMove_keeps {s0 s : State} (hk : Keeps s0 s) (p : Nat) (n : Nat) : Keeps s0 (State.rebuildMove s p n) := by
  unfold State.rebuildMove
  repeat' first
    | with_reducible assumption | intro _ | with_reducible apply State.setMirPart_keeps | with_reducible apply State.shipRec_keeps
    | with_reducible apply Keeps.foldl | split

theorem State.startRebuild_keeps {s0 s : State} (hk : Keeps s0 s) (p : Nat) : Keeps s0 (State.startRebuild s p) := by
  unfold State.startRebuild
  repeat' first
    | with_reducible assumption | intro _ | with_reducible apply State.epochRegs_keeps | with_reducible apply State.releaseAwaits_keeps
    | with_reducible apply State.serveAgain_keeps | with_reducible apply State.setMirPart_keeps | with_reducible apply State.setMirState_keeps
    | with_reducible apply State.setPair_keeps | with_reducible apply State.shipObj_keeps | with_reducible apply State.shipTable_keeps
    | with_reducible apply Keeps.foldl

theorem execEpochClose_keeps {s0 s : State} (hk : Keeps s0 s) (p : PartId) (h : HubId) (cause : EpochCause) : KeepsR s0 (execEpochClose p h cause s) := by
  unfold execEpochClose
  repeat' first
    | with_reducible assumption | with_reducible apply State.closeBoth_keeps | with_reducible apply State.closeEpoch_keeps
    | with_reducible apply State.reach_keeps | with_reducible apply State.rebuildMove_keeps | with_reducible apply KeepsR.next
    | with_reducible apply State.nextFree_keeps | with_reducible apply Keeps.ite | lift_lets -underBinder | split

theorem State.shipSlots_keeps {s0 s : State} (hk : Keeps s0 s) (p : Nat) : Keeps s0 (State.shipSlots s p) := by
  unfold State.shipSlots
  repeat' first
    | with_reducible assumption | intro _ | with_reducible apply State.shipRec_keeps | with_reducible apply Keeps.foldl
    | with_reducible apply Keeps.ite

theorem execMirrorRebuildDone_keeps {s0 s : State} (hk : Keeps s0 s) (p : PartId) : KeepsR s0 (execMirrorRebuildDone p s) := by
  unfold execMirrorRebuildDone
  repeat' first
    | with_reducible assumption | with_reducible apply State.closeBoth_keeps | with_reducible apply State.rebuildMove_keeps
    | with_reducible apply State.setB_keeps | with_reducible apply State.setMirPart_keeps | with_reducible apply State.setMirState_keeps
    | with_reducible apply State.shipSlots_keeps | with_reducible apply KeepsR.next | with_reducible apply Keeps.ite

theorem State.beginCopy_keeps {s0 s : State} (hk : Keeps s0 s) (p : Nat) : Keeps s0 (State.beginCopy s p) := by
  unfold State.beginCopy
  repeat' first
    | with_reducible assumption | intro _ | with_reducible apply State.clearFrame_keeps | with_reducible apply State.dropPoison_keeps
    | with_reducible apply State.epochRegs_keeps | with_reducible apply State.resetObjs_keeps | with_reducible apply State.setMirPart_keeps
    | with_reducible apply State.setMirState_keeps | with_reducible apply State.wrB_keeps | with_reducible apply Keeps.foldl

theorem State.applyTable_keeps {s0 s : State} (hk : Keeps s0 s) (p : Nat) (part : PartRec) (lens : List LensRec) (comp : Nat) (qos : Option QosRec) (queues : List QueueShip) : Keeps s0 (State.applyTable s p part lens comp qos queues) := by
  unfold State.applyTable
  repeat' first
    | with_reducible assumption | (intro v; clear_value v) | with_reducible apply State.applyReload_keeps
    | with_reducible apply State.mirConflict_keeps | with_reducible apply State.setMirPart_keeps | with_reducible apply Keeps.ite
    | lift_lets -underBinder | split

theorem State.applyRec_keeps {s0 s : State} (hk : Keeps s0 s) (p h : Nat) (r : MirRec) : KeepsO s0 (State.applyRec s p h r) := by
  unfold State.applyRec
  repeat' first
    | with_reducible assumption | (intro v; have hv : Keeps s0 v := ?_; clear_value v)
    | (intro v; have hp0 : ∀ t , Keeps s0 t → Keeps s0 (v t ).1 := ?_; clear_value v) | (intro v; clear_value v) | intro _
    | with_reducible apply State.slotWrite_keeps | with_reducible apply State.flushSlots_keeps | with_reducible apply State.commitContent_keeps
    | with_reducible apply State.freeSlot_keeps | with_reducible apply State.cleanPoison_keeps | with_reducible apply State.clearFrame_keeps
    | with_reducible apply State.dropPoison_keeps | with_reducible apply State.addPoison_keeps | with_reducible apply State.setFrame_keeps
    | with_reducible apply State.setObj_keeps | with_reducible apply State.applyTable_keeps | with_reducible apply KeepsO.some
    | with_reducible apply KeepsO.none | with_reducible apply Keeps.foldl | with_reducible apply Keeps.ite
    | with_reducible refine Keeps.fst ?_ (by assumption) | lift_lets -underBinder | with_reducible apply hp0 | split

theorem State.applyEpoch_keeps {s0 s : State} (hk : Keeps s0 s) (p : Nat) (e : Epoch) : KeepsO s0 (State.applyEpoch s p e) := by
  unfold State.applyEpoch
  repeat' first
    | with_reducible assumption | intro _ | with_reducible apply State.applyRec_keeps | with_reducible apply State.epochRegs_keeps
    | with_reducible apply State.setB_keeps | with_reducible apply State.setMirPart_keeps | with_reducible apply State.setMirState_keeps
    | with_reducible apply State.wrB_keeps | with_reducible apply KeepsO.foldl | with_reducible apply KeepsO.bind | with_reducible exact KeepsO.none
    | with_reducible apply KeepsO.some | with_reducible apply KeepsO.get (e := by assumption) | with_reducible apply Keeps.ite | split

theorem State.applyReady_keeps {s0 s : State} (hk : Keeps s0 s) (p : Nat) (z_ : Nat) : Keeps s0 (State.applyReady s p z_) := by
  induction z_ generalizing s p with
  | zero =>
    unfold State.applyReady
    repeat' first
    | with_reducible assumption
  | succ z_ ih =>
    unfold State.applyReady
    repeat' first
    | with_reducible assumption | (intro v; have ho2 : ∀ t a, Keeps s0 t → KeepsO s0 (v t a) := ?_; clear_value v) | intro _ | with_reducible apply ih
    | with_reducible apply State.applyEpoch_keeps | with_reducible apply KeepsO.bind | with_reducible apply KeepsO.orElse | with_reducible apply ho2
    | with_reducible exact KeepsO.none | with_reducible apply KeepsO.ite | with_reducible apply KeepsO.get (e := by assumption)
    | with_reducible apply Keeps.ite | lift_lets -underBinder | subst v | dsimp -zeta only | split

theorem State.flitSeen_keeps {s0 s : State} (hk : Keeps s0 s)  : Keeps s0 (State.flitSeen s) := by
  unfold State.flitSeen
  repeat' first
    | with_reducible assumption | (intro v; clear_value v) | with_reducible refine KeepsMk.of ?_ | lift_lets -underBinder
    | simp -proj only [Keeps.mk_eq, TierSt.frames_mk]

theorem execEpochReceived_keeps {s0 s : State} (hk : Keeps s0 s) (e : Epoch) : KeepsR s0 (execEpochReceived e s) := by
  unfold execEpochReceived
  repeat' first
    | with_reducible assumption | with_reducible apply State.applyReady_keeps | with_reducible apply State.beginCopy_keeps
    | with_reducible apply State.flitSeen_keeps | with_reducible apply State.raise_keeps | with_reducible apply State.send_keeps
    | with_reducible apply State.setB_keeps | with_reducible apply State.setMirPart_keeps | with_reducible apply KeepsR.next
    | with_reducible apply Keeps.ite

theorem State.restoreQueue_keeps {s0 s : State} (hk : Keeps s0 s) (x : QueueShip) : Keeps s0 (State.restoreQueue s x) := by
  unfold State.restoreQueue
  repeat' first
    | with_reducible assumption | with_reducible apply State.setQueue_keeps | with_reducible apply State.wr_keeps
    | with_reducible apply State.wrB_keeps

theorem State.resetFetched_keeps {s0 s : State} (hk : Keeps s0 s) (p : Nat) (x : QueueShip) : Keeps s0 (State.resetFetched s p x) := by
  unfold State.resetFetched
  repeat' first
    | with_reducible assumption | (intro v; have hv : Keeps s0 v := ?_; clear_value v) | (intro v; clear_value v) | intro _
    | with_reducible apply State.descComplete_keeps | with_reducible apply State.endDesc_keeps | with_reducible apply State.getBytes_keeps
    | with_reducible apply State.setQueue_keeps | with_reducible apply Keeps.foldl | with_reducible refine Keeps.fst ?_ (by assumption)
    | lift_lets -underBinder | split

theorem State.promote_keeps {s0 s : State} (hk : Keeps s0 s) (p : Nat) : Keeps s0 (State.promote s p) := by
  unfold State.promote
  repeat' first
    | with_reducible assumption | intro _ | with_reducible apply State.applyReady_keeps | with_reducible apply State.event_keeps
    | with_reducible apply State.incErr_keeps | with_reducible apply State.releaseLocks_keeps | with_reducible apply State.resetFetched_keeps
    | with_reducible apply State.restoreQueue_keeps | with_reducible apply State.serveAgain_keeps | with_reducible apply State.setMirPart_keeps
    | with_reducible apply State.setMirState_keeps | with_reducible apply State.setPair_keeps | with_reducible apply State.wr_keeps
    | with_reducible apply State.wrB_keeps | with_reducible apply Keeps.foldl

theorem State.promoteCmd_keeps {s0 s : State} (hk : Keeps s0 s) (p : Nat) : Keeps s0 (State.promoteCmd s p) := by
  unfold State.promoteCmd
  repeat' first
    | with_reducible assumption | with_reducible apply State.mirRefuse_keeps | with_reducible apply State.promote_keeps
    | with_reducible apply State.wrB_keeps | with_reducible apply Keeps.ite

theorem execPromote_keeps {s0 s : State} (hk : Keeps s0 s) (p : PartId) : KeepsR s0 (execPromote p s) := by
  unfold execPromote
  repeat' first
    | with_reducible assumption | with_reducible apply State.fpWait_keeps | with_reducible apply State.promoteCmd_keeps
    | with_reducible apply State.wrB_keeps | with_reducible apply KeepsR.next | with_reducible apply Keeps.ite

theorem State.lossAt_keeps {s0 s : State} (hk : Keeps s0 s) (p : Nat) : Keeps s0 (State.lossAt s p) := by
  unfold State.lossAt
  repeat' first
    | with_reducible assumption | with_reducible apply State.beginCopy_keeps | with_reducible apply State.enterSolo_keeps
    | with_reducible apply State.incErr_keeps | with_reducible apply State.mirRefuse_keeps | with_reducible apply State.releaseHeld_keeps
    | with_reducible apply State.setMirPart_keeps | with_reducible apply State.setMirState_keeps | with_reducible apply State.nextFree_keeps
    | with_reducible apply State.applyReady_keeps | with_reducible apply Keeps.ite

theorem State.partnerLost_keeps {s0 s : State} (hk : Keeps s0 s)  : Keeps s0 (State.partnerLost s) := by
  unfold State.partnerLost
  repeat' first
    | with_reducible assumption | (intro v; clear_value v) | intro _ | with_reducible apply State.lossAt_keeps | with_reducible apply State.setB_keeps
    | with_reducible apply Keeps.foldl | with_reducible refine KeepsMk.of ?_ | lift_lets -underBinder
    | simp -proj only [Keeps.mk_eq, TierSt.frames_mk]

theorem State.loseReflect_keeps {s0 s : State} (hk : Keeps s0 s) (m : Nat) : Keeps s0 (State.loseReflect s m) := by
  unfold State.loseReflect
  repeat' first
    | with_reducible assumption | (intro v; clear_value v) | with_reducible apply State.incErr_keeps | with_reducible apply State.incEvt_keeps
    | with_reducible apply State.partnerLost_keeps | with_reducible apply State.setB_keeps | with_reducible apply State.wrF_keeps
    | with_reducible refine KeepsMk.of ?_ | with_reducible apply State.nextFree_keeps | with_reducible apply Keeps.ite | lift_lets -underBinder
    | simp -proj only [Keeps.mk_eq, TierSt.frames_mk]

theorem execReflectFlitCrcFail_keeps {s0 s : State} (hk : Keeps s0 s) (m : Fin 2) : KeepsR s0 (execReflectFlitCrcFail m s) := by
  unfold execReflectFlitCrcFail
  repeat' first
    | with_reducible assumption | (intro v; clear_value v) | with_reducible apply State.incEvt_keeps | with_reducible apply State.loseReflect_keeps
    | with_reducible apply State.send_keeps | with_reducible apply KeepsR.next | with_reducible refine KeepsMk.of ?_ | with_reducible apply Keeps.ite
    | lift_lets -underBinder | simp -proj only [Keeps.mk_eq, TierSt.frames_mk]

theorem execReflectKeepalive_keeps {s0 s : State} (hk : Keeps s0 s) (m : Fin 2) : KeepsR s0 (execReflectKeepalive m s) := by
  unfold execReflectKeepalive
  repeat' first
    | with_reducible assumption | (intro v; have hv : Keeps s0 v := ?_; clear_value v) | with_reducible apply State.send_keeps | with_reducible apply State.reach_keeps
    | with_reducible refine KeepsMk.of ?_ | with_reducible apply KeepsR.next | with_reducible apply Keeps.ite | lift_lets -underBinder
    | simp -proj only [Keeps.mk_eq, TierSt.frames_mk]

theorem execReflectLinkTimeout_keeps {s0 s : State} (hk : Keeps s0 s) (m : Fin 2) : KeepsR s0 (execReflectLinkTimeout m s) := by
  unfold execReflectLinkTimeout
  repeat' first
    | with_reducible assumption | with_reducible apply State.loseReflect_keeps | with_reducible apply State.reach_keeps
    | with_reducible apply KeepsR.next | with_reducible apply Keeps.ite

theorem execMirrorLinkPhyLeavesL0_keeps {s0 s : State} (hk : Keeps s0 s) (m : Fin 2) : KeepsR s0 (execMirrorLinkPhyLeavesL0 m s) := by
  unfold execMirrorLinkPhyLeavesL0
  repeat' first
    | with_reducible assumption | with_reducible apply State.loseReflect_keeps | with_reducible apply KeepsR.next

theorem State.fence_keeps {s0 s : State} (hk : Keeps s0 s) (p : Nat) : Keeps s0 (State.fence s p) := by
  unfold State.fence
  repeat' first
    | with_reducible assumption | intro _ | with_reducible apply State.lostLog_keeps | with_reducible apply State.setB_keeps
    | with_reducible apply State.setMemActive_keeps | with_reducible apply State.setMirPart_keeps | with_reducible apply State.setMirState_keeps
    | with_reducible apply Keeps.foldl | lift_lets -underBinder | split

theorem execPartnerFenceTimeout_keeps {s0 s : State} (hk : Keeps s0 s) (p : PartId) : KeepsR s0 (execPartnerFenceTimeout p s) := by
  unfold execPartnerFenceTimeout
  repeat' first
    | with_reducible assumption | with_reducible apply State.fence_keeps | with_reducible apply State.reach_keeps | with_reducible apply KeepsR.next
    | with_reducible apply Keeps.ite

theorem State.lossEnd_keeps {s0 s : State} (hk : Keeps s0 s) (p : Nat) : Keeps s0 (State.lossEnd s p) := by
  unfold State.lossEnd
  repeat' first
    | with_reducible assumption | with_reducible apply State.enterSolo_keeps | with_reducible apply State.fence_keeps
    | with_reducible apply State.promote_keeps | with_reducible apply State.reach_keeps | with_reducible apply Keeps.ite

theorem execPartnerTimeout_keeps {s0 s : State} (hk : Keeps s0 s) (p : PartId) : KeepsR s0 (execPartnerTimeout p s) := by
  unfold execPartnerTimeout
  repeat' first
    | with_reducible assumption | with_reducible apply State.fpWait_keeps | with_reducible apply State.lossEnd_keeps
    | with_reducible apply KeepsR.next | with_reducible apply Keeps.ite

theorem State.unfence_keeps {s0 s : State} (hk : Keeps s0 s) (p : Nat) : Keeps s0 (State.unfence s p) := by
  unfold State.unfence
  repeat' first
    | with_reducible assumption | with_reducible apply State.enterSolo_keeps | with_reducible apply State.mirRefuse_keeps
    | with_reducible apply State.wrB_keeps | with_reducible apply Keeps.ite

theorem execUnfence_keeps {s0 s : State} (hk : Keeps s0 s) (p : PartId) : KeepsR s0 (execUnfence p s) := by
  unfold execUnfence
  repeat' first
    | with_reducible assumption | with_reducible apply State.unfence_keeps | with_reducible apply KeepsR.next

theorem State.becomeSecond_keeps {s0 s : State} (hk : Keeps s0 s) (p : Nat) (gen : Nat) : Keeps s0 (State.becomeSecond s p gen) := by
  unfold State.becomeSecond
  repeat' first
    | with_reducible assumption | with_reducible apply State.beginCopy_keeps | with_reducible apply State.releaseAwaits_keeps
    | with_reducible apply State.releaseHeld_keeps | with_reducible apply State.setMemActive_keeps | with_reducible apply State.setPair_keeps
    | with_reducible apply State.stopWork_keeps | with_reducible apply Keeps.ite

theorem State.helloPart_keeps {s0 s : State} (hk : Keeps s0 s) (p : Nat) (agree : Bool) (x : HelloPart) (other : Bool) : Keeps s0 (State.helloPart s p agree x other) := by
  unfold State.helloPart
  repeat' first
    | with_reducible assumption | with_reducible apply State.becomeSecond_keeps | with_reducible apply State.mirConflict_keeps
    | with_reducible apply State.releaseAwaits_keeps | with_reducible apply State.startRebuild_keeps | with_reducible apply Keeps.ite

theorem execMirrorHello_keeps {s0 s : State} (hk : Keeps s0 s) (m : Fin 2) (hello : Hello) : KeepsR s0 (execMirrorHello m hello s) := by
  unfold execMirrorHello
  repeat' first
    | with_reducible assumption | (intro v; clear_value v) | intro _ | with_reducible apply State.clrB_keeps
    | with_reducible apply State.helloPart_keeps | with_reducible apply State.send_keeps | with_reducible apply State.setB_keeps
    | with_reducible apply State.wr_keeps | with_reducible apply State.wrF_keeps | with_reducible apply Keeps.foldl | with_reducible apply KeepsR.next
    | with_reducible refine KeepsMk.of ?_ | with_reducible apply Keeps.ite | lift_lets -underBinder | simp -proj only [Keeps.mk_eq, TierSt.frames_mk]

theorem State.detachCmd_keeps {s0 s : State} (hk : Keeps s0 s) (p : Nat) : Keeps s0 (State.detachCmd s p) := by
  unfold State.detachCmd
  repeat' first
    | with_reducible assumption | with_reducible apply State.enterSolo_keeps | with_reducible apply State.mirRefuse_keeps
    | with_reducible apply State.setMirPart_keeps | with_reducible apply State.wrB_keeps | with_reducible apply Keeps.ite

theorem execDetach_keeps {s0 s : State} (hk : Keeps s0 s) (p : PartId) : KeepsR s0 (execDetach p s) := by
  unfold execDetach
  repeat' first
    | with_reducible assumption | with_reducible apply State.detachCmd_keeps | with_reducible apply State.setMirPart_keeps
    | with_reducible apply State.setMirState_keeps | with_reducible apply KeepsR.next | with_reducible apply Keeps.ite

theorem State.attachCmd_keeps {s0 s : State} (hk : Keeps s0 s) (p : Nat) : Keeps s0 (State.attachCmd s p) := by
  unfold State.attachCmd
  repeat' first
    | with_reducible assumption | with_reducible apply State.mirRefuse_keeps | with_reducible apply State.startRebuild_keeps
    | with_reducible apply State.wrB_keeps | with_reducible apply Keeps.ite

theorem execAttach_keeps {s0 s : State} (hk : Keeps s0 s) (p : PartId) : KeepsR s0 (execAttach p s) := by
  unfold execAttach
  repeat' first
    | with_reducible assumption | with_reducible apply State.attachCmd_keeps | with_reducible apply KeepsR.next

theorem State.demoteCmd_keeps {s0 s : State} (hk : Keeps s0 s) (p : Nat) : Keeps s0 (State.demoteCmd s p) := by
  unfold State.demoteCmd
  repeat' first
    | with_reducible assumption | with_reducible apply State.becomeSecond_keeps | with_reducible apply State.mirRefuse_keeps
    | with_reducible apply State.wrB_keeps | with_reducible apply Keeps.ite

theorem execDemote_keeps {s0 s : State} (hk : Keeps s0 s) (p : PartId) : KeepsR s0 (execDemote p s) := by
  unfold execDemote
  repeat' first
    | with_reducible assumption | with_reducible apply State.demoteCmd_keeps | with_reducible apply KeepsR.next

theorem State.snapshotCmd_keeps {s0 s : State} (hk : Keeps s0 s) (p : Nat) : Keeps s0 (State.snapshotCmd s p) := by
  unfold State.snapshotCmd
  repeat' first
    | with_reducible assumption | with_reducible apply State.closeBoth_keeps | with_reducible apply State.mirRefuse_keeps
    | with_reducible apply State.setMirPart_keeps | with_reducible apply State.wrB_keeps | with_reducible apply Keeps.ite

theorem execSnapshot_keeps {s0 s : State} (hk : Keeps s0 s) (p : PartId) : KeepsR s0 (execSnapshot p s) := by
  unfold execSnapshot
  repeat' first
    | with_reducible assumption | with_reducible apply State.snapshotCmd_keeps | with_reducible apply KeepsR.next

theorem State.switchCmd_keeps {s0 s : State} (hk : Keeps s0 s) (p : Nat) : Keeps s0 (State.switchCmd s p) := by
  unfold State.switchCmd
  repeat' first
    | with_reducible assumption | with_reducible apply State.mirRefuse_keeps | with_reducible apply State.setMirPart_keeps
    | with_reducible apply State.wrB_keeps | with_reducible apply Keeps.ite

theorem execSwitch_keeps {s0 s : State} (hk : Keeps s0 s) (p : PartId) : KeepsR s0 (execSwitch p s) := by
  unfold execSwitch
  repeat' first
    | with_reducible assumption | with_reducible apply State.switchCmd_keeps | with_reducible apply KeepsR.next

theorem State.giveRole_keeps {s0 s : State} (hk : Keeps s0 s) (p : Nat) : Keeps s0 (State.giveRole s p) := by
  unfold State.giveRole
  repeat' first
    | with_reducible assumption | with_reducible apply State.epochRegs_keeps | with_reducible apply State.raise_keeps
    | with_reducible apply State.releaseHeld_keeps | with_reducible apply State.setMemActive_keeps | with_reducible apply State.setMirPart_keeps
    | with_reducible apply State.setPair_keeps | with_reducible apply State.wrB_keeps

theorem State.takeRole_keeps {s0 s : State} (hk : Keeps s0 s) (p : Nat) : Keeps s0 (State.takeRole s p) := by
  unfold State.takeRole
  repeat' first
    | with_reducible assumption | intro _ | with_reducible apply State.epochRegs_keeps | with_reducible apply State.event_keeps
    | with_reducible apply State.restoreQueue_keeps | with_reducible apply State.serveAgain_keeps | with_reducible apply State.setMirPart_keeps
    | with_reducible apply State.setPair_keeps | with_reducible apply State.wrB_keeps | with_reducible apply Keeps.foldl

theorem execSwitchDrainEnd_keeps {s0 s : State} (hk : Keeps s0 s) (p : PartId) : KeepsR s0 (execSwitchDrainEnd p s) := by
  unfold execSwitchDrainEnd
  repeat' first
    | with_reducible assumption | with_reducible apply State.closeBoth_keeps | with_reducible apply State.mirRefuse_keeps
    | with_reducible apply State.reach_keeps | with_reducible apply State.releaseHeld_keeps | with_reducible apply State.setMirPart_keeps
    | with_reducible apply State.takeRole_keeps | with_reducible apply KeepsR.next | with_reducible apply Keeps.ite | lift_lets -underBinder | split

theorem State.resendEpoch_keeps {s0 s : State} (hk : Keeps s0 s) (p h number : Nat) : Keeps s0 (State.resendEpoch s p h number) := by
  unfold State.resendEpoch
  repeat' first
    | with_reducible assumption | with_reducible apply State.send_keeps | split

theorem execEpochAck_keeps {s0 s : State} (hk : Keeps s0 s) (p : PartId) (h : HubId) (number : Nat) (answer : AckKind) : KeepsR s0 (execEpochAck p h number answer s) := by
  unfold execEpochAck
  repeat' first
    | with_reducible assumption | with_reducible apply State.resendEpoch_keeps | with_reducible apply State.startRebuild_keeps
    | with_reducible apply State.enterSolo_keeps | split | with_reducible apply State.epochRegs_keeps | with_reducible apply State.flitSeen_keeps
    | with_reducible apply State.giveRole_keeps | with_reducible apply State.releaseAwaits_keeps | with_reducible apply State.setMirPart_keeps
    | with_reducible apply State.wrB_keeps | with_reducible apply KeepsR.next | with_reducible apply Keeps.ite

end Sys2Proof.Machine
end

