-- ==== Sys2Proof/Laws/KeepsPower.lean ====
section
/-! SUPPORT. Every operation of Machine/Power.lean keeps what Keeps says. -/

namespace Sys2Proof.Machine

theorem State.powerReq_keeps {s0 s : State} (hk : Keeps s0 s) (target : Nat) : Keeps s0 (State.powerReq s target) := by
  unfold State.powerReq
  repeat' first
    | with_reducible assumption | with_reducible apply State.pwrRequest_keeps | with_reducible apply State.wr_keeps
    | with_reducible apply State.wrF_keeps | with_reducible apply Keeps.ite

theorem execPowerRequest_keeps {s0 s : State} (hk : Keeps s0 s) (target : Fin 4) : KeepsR s0 (execPowerRequest target s) := by
  unfold execPowerRequest
  repeat' first
    | with_reducible assumption | with_reducible apply State.powerReq_keeps | with_reducible apply KeepsR.next

theorem execPowerCancel_keeps {s0 s : State} (hk : Keeps s0 s)  : KeepsR s0 (execPowerCancel s) := by
  unfold execPowerCancel
  repeat' first
    | with_reducible assumption | with_reducible apply State.wrB_keeps | with_reducible apply KeepsR.next

theorem State.commitEntry_keeps {s0 s : State} (hk : Keeps s0 s) : Keeps s0 (State.commitEntry s) := by
  unfold State.commitEntry
  repeat' first
    | with_reducible assumption | with_reducible apply State.linksDown_keeps | with_reducible apply State.wr_keeps
    | with_reducible apply State.wrF_keeps | with_reducible apply Keeps.ite

theorem execDrainEnd_keeps {s0 s : State} (hk : Keeps s0 s) : KeepsR s0 (execDrainEnd s) := by
  unfold execDrainEnd
  repeat' first
    | with_reducible assumption | with_reducible apply State.commitEntry_keeps | with_reducible apply KeepsR.next | with_reducible apply Keeps.ite

theorem execDrainTimeoutExpiry_keeps {s0 s : State} (hk : Keeps s0 s) : KeepsR s0 (execDrainTimeoutExpiry s) := by
  unfold execDrainTimeoutExpiry
  repeat' first
    | with_reducible assumption | intro _ | with_reducible apply State.abortMove_keeps | with_reducible apply State.commitEntry_keeps
    | with_reducible apply State.event_keeps | with_reducible apply State.pwrEnd_keeps | with_reducible apply State.pwrResult_keeps
    | with_reducible apply State.reach_keeps | with_reducible apply KeepsR.next | with_reducible apply Keeps.foldl | with_reducible apply Keeps.ite

theorem State.coresPower_keeps {s0 s : State} (hk : Keeps s0 s) (on : Bool) : Keeps s0 (State.coresPower s on) := by
  unfold State.coresPower
  repeat' first
    | with_reducible assumption | intro _ | with_reducible apply State.wrF_keeps | with_reducible apply Keeps.foldl

theorem State.computeOn_keeps {s0 s : State} (hk : Keeps s0 s) : Keeps s0 (State.computeOn s) := by
  unfold State.computeOn
  repeat' first
    | with_reducible assumption | (intro v; clear_value v) | intro _ | with_reducible apply State.coresPower_keeps
    | with_reducible apply State.setIsland_keeps | with_reducible apply State.zeroCluster_keeps | with_reducible apply Keeps.foldl
    | with_reducible refine KeepsMk.of ?_ | with_reducible apply Keeps.ite | lift_lets -underBinder | simp -proj only [Keeps.mk_eq, TierSt.frames_mk]

theorem State.fpPower_keeps {s0 s : State} (hk : Keeps s0 s) (state : Nat) : Keeps s0 (State.fpPower s state) := by
  unfold State.fpPower
  repeat' first
    | with_reducible assumption | intro _ | with_reducible apply State.wrB_keeps | with_reducible apply State.wrF_keeps
    | with_reducible apply Keeps.foldl | with_reducible apply Keeps.ite

theorem State.forgetRegs_keeps {s0 s : State} (hk : Keeps s0 s) (l : List RegName) : Keeps s0 (State.forgetRegs s l) := Keeps.filterRegs hk _

theorem State.hubsBack_keeps {s0 s : State} (hk : Keeps s0 s) : Keeps s0 (State.hubsBack s) := by
  unfold State.hubsBack
  exact Keeps.same (Keeps.mapParts (State.forgetRegs_keeps hk unsavedRegs) _ s.dram s.qos) rfl rfl rfl rfl (fun c => ⟨c.pool, c.regs, c.links, c.lds, c.binding, c.iso, c.parts, c.frames, c.queues, c.sync, c.cores, c.shared⟩)

theorem State.stateLost_keeps {s0 s : State} (hk : Keeps s0 s)  : Keeps s0 (State.stateLost s) := by
  unfold State.stateLost
  repeat' first
    | with_reducible assumption | intro _ | with_reducible apply State.event_keeps | with_reducible apply State.forgetRegs_keeps
    | with_reducible apply State.resetObjs_keeps | with_reducible apply State.resetQueue_keeps | with_reducible apply State.wrB_keeps
    | with_reducible apply Keeps.foldl

theorem State.enterState_keeps {s0 s : State} (hk : Keeps s0 s) (t : Nat) : Keeps s0 (State.enterState s t) := by
  unfold State.enterState
  repeat' first
    | with_reducible assumption | (intro v; have hv : Keeps s0 v := ?_; clear_value v) | (intro v; have hv : TierSt := v; clear hv; subst v)
    | (intro v; clear_value v) | intro _ | with_reducible apply State.channelsDown_keeps | with_reducible apply State.commitAll_keeps
    | with_reducible apply State.coresPower_keeps | with_reducible apply State.fpPower_keeps | with_reducible apply State.incEvt_keeps
    | with_reducible apply State.stateBias_keeps | with_reducible apply State.wrB_keeps | with_reducible apply State.wrF_keeps
    | with_reducible apply Keeps.foldl | with_reducible refine KeepsMk.sync ?_ _ | with_reducible apply Keeps.ite | lift_lets -underBinder
    | simp -proj only [Keeps.mk_eq, TierSt.frames_mk]

theorem State.leaveState_keeps {s0 s : State} (hk : Keeps s0 s) (t : Nat) (bad : Bool) (resweep : List Nat) (marginal : List (Nat × Nat × Bool)) (badBanks : BitVec 2) (replay : State → State) (hcb6 : ∀ t, Keeps s0 t → Keeps s0 (replay t)) : Keeps s0 (State.leaveState s t bad resweep marginal badBanks replay) := by
  unfold State.leaveState
  repeat' first
    | with_reducible assumption | (intro v; clear_value v) | intro _ | with_reducible apply hcb6 | with_reducible apply State.bootBank_keeps
    | with_reducible apply State.computeOn_keeps | with_reducible apply State.fpPower_keeps | with_reducible apply State.hubsBack_keeps
    | with_reducible apply State.setB_keeps | with_reducible apply State.startTraining_keeps | with_reducible apply State.stateBias_keeps
    | with_reducible apply State.stateLost_keeps | with_reducible apply State.trainFlash_keeps | with_reducible apply State.trainOne_keeps
    | with_reducible apply State.wrB_keeps | with_reducible apply State.wrF_keeps | with_reducible apply Keeps.foldl
    | with_reducible refine KeepsMk.of ?_ | with_reducible apply Keeps.ite | with_reducible apply Keeps.ite_fst | lift_lets -underBinder
    | dsimp -zeta only | split | simp -proj only [Keeps.mk_eq, TierSt.frames_mk]

theorem execWakeInband_keeps {s0 s : State} (hk : Keeps s0 s) (link : LinkId) : KeepsR s0 (execWakeInband link s) := by
  unfold execWakeInband
  repeat' first
    | with_reducible assumption | with_reducible apply State.wakeBy_keeps | with_reducible apply KeepsR.next | with_reducible apply Keeps.ite

theorem execWakeSidebandMatch_keeps {s0 s : State} (hk : Keeps s0 s) (addr : BitVec 7) : KeepsR s0 (execWakeSidebandMatch addr s) := by
  unfold execWakeSidebandMatch
  repeat' first
    | with_reducible assumption | with_reducible apply State.wakeBy_keeps | with_reducible apply KeepsR.next | with_reducible apply Keeps.ite

end Sys2Proof.Machine
end

