-- ==== Sys2Proof/Laws/KeepsHoldUp.lean ====
section
/-! SUPPORT. Every operation of Machine/HoldUp.lean keeps what Keeps says. -/

namespace Sys2Proof.Machine

theorem State.storeState_keeps {s0 s : State} (hk : Keeps s0 s)  : Keeps s0 (State.storeState s) := by
  unfold State.storeState
  repeat' first
    | with_reducible assumption | with_reducible apply State.wrF_keeps

theorem State.testStart_keeps {s0 s : State} (hk : Keeps s0 s)  : Keeps s0 (State.testStart s) := by
  unfold State.testStart
  repeat' first
    | with_reducible assumption | (intro v; have hv : Keeps s0 v := ?_; clear_value v) | (intro v; clear_value v)
    | with_reducible apply State.setB_keeps | with_reducible refine KeepsMk.of ?_ | lift_lets -underBinder
    | simp -proj only [Keeps.mk_eq, TierSt.frames_mk]

theorem State.setBudget_keeps {s0 s : State} (hk : Keeps s0 s) (v : Nat) : Keeps s0 (State.setBudget s v) := by
  unfold State.setBudget
  repeat' first
    | with_reducible assumption | (intro v; have hv : Keeps s0 v := ?_; clear_value v) | (intro v; clear_value v)
    | with_reducible apply State.checkBudget_keeps | with_reducible apply State.event_keeps | with_reducible apply State.wr_keeps
    | with_reducible refine KeepsMk.of ?_ | with_reducible apply Keeps.ite | lift_lets -underBinder | simp -proj only [Keeps.mk_eq, TierSt.frames_mk]

theorem State.limitTo_keeps {s0 s : State} (hk : Keeps s0 s) (l : Nat) : Keeps s0 (State.limitTo s l) := by
  unfold State.limitTo
  repeat' first
    | with_reducible assumption | (intro v; clear_value v) | with_reducible apply State.setBudget_keeps | with_reducible apply State.wr_keeps
    | with_reducible refine KeepsMk.of ?_ | with_reducible apply Keeps.ite | lift_lets -underBinder | split
    | simp -proj only [Keeps.mk_eq, TierSt.frames_mk]

theorem State.storeFail_keeps {s0 s : State} (hk : Keeps s0 s)  : Keeps s0 (State.storeFail s) := by
  unfold State.storeFail
  repeat' first
    | with_reducible assumption | (intro v; clear_value v) | with_reducible apply State.limitTo_keeps | with_reducible apply State.storeState_keeps
    | with_reducible refine KeepsMk.of ?_ | with_reducible apply Keeps.ite | lift_lets -underBinder | simp -proj only [Keeps.mk_eq, TierSt.frames_mk]

theorem execBudgetLimitUpdate_keeps {s0 s : State} (hk : Keeps s0 s)  : KeepsR s0 (execBudgetLimitUpdate s) := by
  unfold execBudgetLimitUpdate
  repeat' first
    | with_reducible assumption | (intro v; clear_value v) | with_reducible apply State.limitTo_keeps | with_reducible apply State.reach_keeps
    | with_reducible apply KeepsR.next | with_reducible refine KeepsMk.of ?_ | lift_lets -underBinder | split
    | simp -proj only [Keeps.mk_eq, TierSt.frames_mk]

theorem State.wireCheck_keeps {s0 s : State} (hk : Keeps s0 s) (v : List Nat) (vp : Nat) : Keeps s0 (State.wireCheck s v vp) := by
  unfold State.wireCheck
  repeat' first
    | with_reducible assumption | (intro v; clear_value v) | intro _ | with_reducible apply State.event_keeps | with_reducible apply State.setB_keeps
    | with_reducible apply State.storeFail_keeps | with_reducible apply State.wrF_keeps | with_reducible apply Keeps.foldl
    | with_reducible refine KeepsMk.of ?_ | with_reducible apply Keeps.ite | lift_lets -underBinder | simp -proj only [Keeps.mk_eq, TierSt.frames_mk]

theorem State.cellCheck_keeps {s0 s : State} (hk : Keeps s0 s) (v : List Nat) (temps : List Nat) (vp : Nat) : Keeps s0 (State.cellCheck s v temps vp) := by
  unfold State.cellCheck
  repeat' first
    | with_reducible assumption | (intro v; have hv : Keeps s0 v := ?_; clear_value v) | (intro v; clear_value v)
    | with_reducible apply State.event_keeps | with_reducible apply State.storeFail_keeps | with_reducible refine KeepsMk.of ?_
    | with_reducible apply Keeps.ite | lift_lets -underBinder | subst v | split | simp -proj only [Keeps.mk_eq, TierSt.frames_mk]

theorem State.chargeCount_keeps {s0 s : State} (hk : Keeps s0 s) (chargeMc : Int) : Keeps s0 (State.chargeCount s chargeMc) := by
  unfold State.chargeCount
  repeat' first
    | with_reducible assumption | (intro v; clear_value v) | with_reducible apply State.event_keeps | with_reducible apply State.setB_keeps
    | with_reducible apply State.wr_keeps | with_reducible refine KeepsMk.of ?_ | with_reducible apply Keeps.ite | lift_lets -underBinder | split
    | simp -proj only [Keeps.mk_eq, TierSt.frames_mk]

theorem State.fullCharge_keeps {s0 s : State} (hk : Keeps s0 s)  : Keeps s0 (State.fullCharge s) := by
  unfold State.fullCharge
  repeat' first
    | with_reducible assumption | (intro v; have hv : Keeps s0 v := ?_; clear_value v) | (intro v; clear_value v)
    | with_reducible apply State.clrB_keeps | with_reducible apply State.testStart_keeps | with_reducible apply State.wr_keeps
    | with_reducible refine KeepsMk.of ?_ | with_reducible apply Keeps.ite | lift_lets -underBinder | simp -proj only [Keeps.mk_eq, TierSt.frames_mk]

theorem State.takeReadings_keeps {s0 s : State} (hk : Keeps s0 s) (x : StoreSample) (vp : Nat) : Keeps s0 (State.takeReadings s x vp) := by
  unfold State.takeReadings
  repeat' first
    | with_reducible assumption | intro _ | with_reducible apply State.cellCheck_keeps | with_reducible apply State.wireCheck_keeps
    | with_reducible apply State.wr_keeps | with_reducible apply Keeps.foldl

theorem State.fullEdge_keeps {s0 s : State} (hk : Keeps s0 s) (full : Bool) : Keeps s0 (State.fullEdge s full) := by
  unfold State.fullEdge
  repeat' first
    | with_reducible assumption | (intro v; clear_value v) | with_reducible apply State.fullCharge_keeps | with_reducible refine KeepsMk.of ?_
    | with_reducible apply Keeps.ite | lift_lets -underBinder | simp -proj only [Keeps.mk_eq, TierSt.frames_mk]

theorem execStoreMonitorSample_keeps {s0 s : State} (hk : Keeps s0 s) (x : StoreSample) : KeepsR s0 (execStoreMonitorSample x s) := by
  unfold execStoreMonitorSample
  repeat' first
    | with_reducible assumption | (intro v; clear_value v) | with_reducible apply State.chargeCount_keeps | with_reducible apply State.fullEdge_keeps
    | with_reducible apply State.reach_keeps | with_reducible apply State.storeState_keeps | with_reducible apply State.takeReadings_keeps
    | with_reducible apply State.wr_keeps | with_reducible apply KeepsR.next | with_reducible refine KeepsMk.of ?_ | lift_lets -underBinder | split
    | simp -proj only [Keeps.mk_eq, TierSt.frames_mk]

theorem State.capTest_keeps {s0 s : State} (hk : Keeps s0 s)  : Keeps s0 (State.capTest s) := by
  unfold State.capTest
  repeat' first
    | with_reducible assumption | with_reducible apply State.clrB_keeps | with_reducible apply State.setB_keeps
    | with_reducible apply State.testStart_keeps | with_reducible apply Keeps.ite

theorem execCapTest_keeps {s0 s : State} (hk : Keeps s0 s)  : KeepsR s0 (execCapTest s) := by
  unfold execCapTest
  repeat' first
    | with_reducible assumption | with_reducible apply State.capTest_keeps | with_reducible apply KeepsR.next

theorem execCapTestDone_keeps {s0 s : State} (hk : Keeps s0 s) (dropMv : Nat) : KeepsR s0 (execCapTestDone dropMv s) := by
  unfold execCapTestDone
  repeat' first
    | with_reducible assumption | with_reducible apply State.clrB_keeps | with_reducible apply State.event_keeps
    | with_reducible apply State.reach_keeps | with_reducible apply State.wr_keeps | with_reducible apply KeepsR.next | with_reducible apply Keeps.ite
    | with_reducible refine KeepsMk.of ?_ | simp -proj only [Keeps.mk_eq]

theorem execInputBelow48v_keeps {s0 s : State} (hk : Keeps s0 s)  : KeepsR s0 (execInputBelow48v s) := by
  unfold execInputBelow48v
  repeat' first
    | with_reducible assumption | with_reducible apply State.clrB_keeps | with_reducible apply KeepsR.next

theorem execInputBelow40v_keeps {s0 s : State} (hk : Keeps s0 s)  : KeepsR s0 (execInputBelow40v s) := by
  unfold execInputBelow40v
  repeat' first
    | with_reducible assumption | (intro v; have hv : Keeps s0 v := ?_; clear_value v) | (intro v; clear_value v)
    | with_reducible apply State.clrB_keeps | with_reducible apply KeepsR.next | with_reducible refine KeepsMk.of ?_ | lift_lets -underBinder
    | simp -proj only [Keeps.mk_eq, TierSt.frames_mk]

theorem execInputGlitch_keeps {s0 s : State} (hk : Keeps s0 s)  : KeepsR s0 (execInputGlitch s) := by
  unfold execInputGlitch
  repeat' first
    | with_reducible assumption | (intro v; have hv : Keeps s0 v := ?_; clear_value v) | (intro v; clear_value v)
    | with_reducible apply State.setB_keeps | with_reducible apply KeepsR.next | with_reducible refine KeepsMk.of ?_ | with_reducible apply Keeps.ite
    | lift_lets -underBinder | split | simp -proj only [Keeps.mk_eq, TierSt.frames_mk]

theorem execInputPowerGood_keeps {s0 s : State} (hk : Keeps s0 s) : KeepsR s0 (execInputPowerGood s) := by
  unfold execInputPowerGood
  repeat' first
    | with_reducible assumption | (intro v; have hv : Keeps s0 v := ?_; clear_value v) | (intro v; clear_value v)
    | with_reducible apply State.coldAnew_keeps | with_reducible apply State.setB_keeps | with_reducible apply KeepsR.next
    | with_reducible refine KeepsMk.of ?_ | with_reducible apply Keeps.ite | lift_lets -underBinder | simp -proj only [Keeps.mk_eq, TierSt.frames_mk]

theorem State.pwrStop_keeps {s0 s : State} (hk : Keeps s0 s)  : Keeps s0 (State.pwrStop s) := by
  unfold State.pwrStop
  repeat' first
    | with_reducible assumption | with_reducible apply State.wr_keeps | with_reducible apply State.wrB_keeps | with_reducible apply State.wrF_keeps
    | with_reducible apply Keeps.ite

theorem State.handOver_keeps {s0 s : State} (hk : Keeps s0 s) (trip : Bool) : Keeps s0 (State.handOver s trip) := by
  unfold State.handOver
  repeat' first
    | with_reducible assumption | (intro v; clear_value v) | intro _ | with_reducible apply State.closeBoth_keeps | with_reducible apply State.coresPower_keeps
    | with_reducible apply State.clrB_keeps | with_reducible apply State.commitAll_keeps | with_reducible apply State.endKernel_keeps
    | with_reducible apply State.finishHost_keeps | with_reducible apply State.incEvt_keeps | with_reducible apply State.linksDown_keeps
    | with_reducible apply State.pwrStop_keeps | with_reducible apply State.setB_keeps | with_reducible apply State.storeState_keeps
    | with_reducible apply State.wrF_keeps | with_reducible apply Keeps.foldl | with_reducible refine KeepsMk.of ?_ | with_reducible apply Keeps.ite
    | lift_lets -underBinder | simp -proj only [Keeps.mk_eq, TierSt.frames_mk]

theorem execInputPowerLost_keeps {s0 s : State} (hk : Keeps s0 s)  : KeepsR s0 (execInputPowerLost s) := by
  unfold execInputPowerLost
  repeat' first
    | with_reducible assumption | (intro v; have hv : Keeps s0 v := ?_; clear_value v) | (intro v; clear_value v)
    | with_reducible apply State.clrB_keeps | with_reducible apply State.handOver_keeps | with_reducible apply State.reach_keeps
    | with_reducible apply KeepsR.next | with_reducible refine KeepsMk.of ?_ | lift_lets -underBinder
    | simp -proj only [Keeps.mk_eq, TierSt.frames_mk]

theorem execThermalTrip_keeps {s0 s : State} (hk : Keeps s0 s)  : KeepsR s0 (execThermalTrip s) := by
  unfold execThermalTrip
  repeat' first
    | with_reducible assumption | with_reducible apply State.handOver_keeps | with_reducible apply KeepsR.next

theorem State.handoverEnd_keeps {s0 s : State} (hk : Keeps s0 s) (clean : Bool) : Keeps s0 (State.handoverEnd s clean) := by
  unfold State.handoverEnd
  repeat' first
    | with_reducible assumption | (intro v; clear_value v) | with_reducible apply State.storeState_keeps | with_reducible apply State.wr_keeps
    | with_reducible refine KeepsMk.of ?_ | lift_lets -underBinder | simp -proj only [Keeps.mk_eq, TierSt.frames_mk]

theorem State.powerOff_keeps {s0 s : State} (hk : Keeps s0 s)  : Keeps s0 (State.powerOff s) := by
  unfold State.powerOff
  repeat' first
    | with_reducible assumption | (intro v; clear_value v) | with_reducible apply State.wrF_keeps | with_reducible refine KeepsMk.of ?_
    | lift_lets -underBinder | simp -proj only [Keeps.mk_eq, TierSt.frames_mk]

theorem execHoldupFlushDone_keeps {s0 s : State} (hk : Keeps s0 s) : KeepsR s0 (execHoldupFlushDone s) := by
  unfold execHoldupFlushDone
  repeat' first
    | with_reducible assumption | with_reducible apply State.coldFollows_keeps | with_reducible apply State.flushDurable_keeps
    | with_reducible apply State.handoverEnd_keeps | with_reducible apply State.powerOff_keeps | with_reducible apply State.warmAnew_keeps
    | with_reducible apply KeepsR.next | with_reducible apply Keeps.ite

theorem execFlushVlowStop_keeps {s0 s : State} (hk : Keeps s0 s)  : KeepsR s0 (execFlushVlowStop s) := by
  unfold execFlushVlowStop
  repeat' first
    | with_reducible assumption | with_reducible apply State.flushDurable_keeps | with_reducible apply State.handoverEnd_keeps
    | with_reducible apply State.powerOff_keeps | with_reducible apply State.setB_keeps | with_reducible apply KeepsR.next
    | with_reducible apply State.nextFree_keeps | with_reducible apply Keeps.ite

end Sys2Proof.Machine
end

