-- ==== Sys2Proof/Laws/KeepsFirmware.lean ====
section
/-! SUPPORT. Every operation of Machine/Firmware.lean keeps what Keeps says. -/

namespace Sys2Proof.Machine

theorem State.negotiate_keeps {s0 s : State} (hk : Keeps s0 s) (p : Nat) : Keeps s0 (State.negotiate s p) := by
  unfold State.negotiate
  repeat' first
    | with_reducible assumption | intro _ | with_reducible apply State.setPart_keeps | with_reducible apply State.wr_keeps
    | with_reducible apply Keeps.foldl | with_reducible apply Keeps.ite

theorem State.feApply_keeps {s0 s : State} (hk : Keeps s0 s) (r : RegId) (v : Nat) : Keeps s0 (State.feApply s r v) := by
  unfold State.feApply
  repeat' first
    | with_reducible assumption | with_reducible apply State.negotiate_keeps | with_reducible apply Keeps.writeReg | with_reducible apply Keeps.ite
    | split

theorem State.feWrite_keeps {s0 s : State} (hk : Keeps s0 s) (r : RegId) (v : Nat) : Keeps s0 (State.feWrite s r v) := by
  unfold State.feWrite
  repeat' first
    | with_reducible assumption | (intro v; clear_value v) | with_reducible apply State.feApply_keeps | with_reducible refine KeepsMk.of ?_
    | with_reducible apply Keeps.ite | lift_lets -underBinder | simp -proj only [Keeps.mk_eq, TierSt.frames_mk]

theorem execNegotiate_keeps {s0 s : State} (hk : Keeps s0 s) (p : PartId) : KeepsR s0 (execNegotiate p s) := by
  unfold execNegotiate
  repeat' first
    | with_reducible assumption | with_reducible apply State.feWrite_keeps | with_reducible apply KeepsR.next

theorem State.setFreqs_keeps {s0 s : State} (hk : Keeps s0 s) : Keeps s0 (State.setFreqs s) := by
  unfold State.setFreqs
  repeat' first
    | with_reducible assumption | intro _ | with_reducible apply State.setIsland_keeps | with_reducible apply Keeps.foldl

theorem State.powerLoop_keeps {s0 s : State} (hk : Keeps s0 s) (h : Nat) (inputW : Nat) (low : Bool) : Keeps s0 (State.powerLoop s h inputW low) := by
  unfold State.powerLoop
  repeat' first
    | with_reducible assumption | (intro v; clear_value v) | intro _ | with_reducible apply State.capWidth_keeps
    | with_reducible apply State.setB_keeps | with_reducible apply State.setLink_keeps | with_reducible apply Keeps.foldl
    | with_reducible refine KeepsMk.of ?_ | with_reducible apply Keeps.ite | lift_lets -underBinder | dsimp -zeta only | split
    | simp -proj only [Keeps.mk_eq, TierSt.frames_mk]

theorem State.thermLoop_keeps {s0 s : State} (hk : Keeps s0 s) (h : Nat) (x : LoopSample) : Keeps s0 (State.thermLoop s h x) := by
  unfold State.thermLoop
  repeat' first
    | with_reducible assumption | (intro v; clear_value v) | intro _ | with_reducible apply State.setB_keeps | with_reducible apply Keeps.foldl
    | with_reducible refine KeepsMk.of ?_ | with_reducible apply Keeps.ite | lift_lets -underBinder | split
    | simp -proj only [Keeps.mk_eq, TierSt.frames_mk]

theorem State.loopPeriod_keeps {s0 s : State} (hk : Keeps s0 s) : Keeps s0 (State.loopPeriod s) := by
  unfold State.loopPeriod
  repeat' first
    | with_reducible assumption | (intro v; have hv : Keeps s0 v := ?_; clear_value v) | (intro v; clear_value v)
    | with_reducible apply State.reach_keeps | with_reducible refine KeepsMk.of ?_ | lift_lets -underBinder | subst v | split
    | simp -proj only [Keeps.mk_eq, TierSt.frames_mk]

theorem execPowerLoopPeriod_keeps {s0 s : State} (hk : Keeps s0 s) (x : LoopSample) : KeepsR s0 (execPowerLoopPeriod x s) := by
  unfold execPowerLoopPeriod
  repeat' first
    | with_reducible assumption | intro _ | with_reducible apply State.loopPeriod_keeps | with_reducible apply State.powerLoop_keeps
    | with_reducible apply State.setFreqs_keeps | with_reducible apply State.thermLoop_keeps | with_reducible apply State.wr_keeps
    | with_reducible apply State.wrF_keeps | with_reducible apply KeepsR.next | with_reducible apply Keeps.foldl | with_reducible apply Keeps.ite

theorem execCoreIslandHwClamp_keeps {s0 s : State} (hk : Keeps s0 s)  : KeepsR s0 (execCoreIslandHwClamp s) := by
  unfold execCoreIslandHwClamp
  repeat' first
    | with_reducible assumption | (intro v; clear_value v) | with_reducible apply State.setFreqs_keeps | with_reducible apply KeepsR.next
    | with_reducible refine KeepsMk.of ?_ | with_reducible apply Keeps.ite | lift_lets -underBinder | simp -proj only [Keeps.mk_eq, TierSt.frames_mk]

theorem State.fpRestart_keeps {s0 s : State} (hk : Keeps s0 s) (n : Nat) (cause : Nat) (cmd : Bool) : Keeps s0 (State.fpRestart s n cause cmd) := by
  unfold State.fpRestart
  repeat' first
    | with_reducible assumption | (intro v; clear_value v) | with_reducible apply State.event_keeps | with_reducible apply State.wrB_keeps
    | with_reducible apply State.wrF_keeps | with_reducible refine KeepsMk.of ?_ | with_reducible apply Keeps.ite | lift_lets -underBinder
    | simp -proj only [Keeps.mk_eq, TierSt.frames_mk]

theorem execRestart_keeps {s0 s : State} (hk : Keeps s0 s) (fp : Fin 12) : KeepsR s0 (execRestart fp s) := by
  unfold execRestart
  repeat' first
    | with_reducible assumption | with_reducible apply State.fpRestart_keeps | with_reducible apply KeepsR.next

theorem execFirmwareFetchFault_keeps {s0 s : State} (hk : Keeps s0 s) (fp : Fin 12) : KeepsR s0 (execFirmwareFetchFault fp s) := by
  unfold execFirmwareFetchFault
  repeat' first
    | with_reducible assumption | with_reducible apply State.fpRestart_keeps | with_reducible apply KeepsR.next

theorem execFpHeartbeatMiss_keeps {s0 s : State} (hk : Keeps s0 s) (fp : Fin 12) : KeepsR s0 (execFpHeartbeatMiss fp s) := by
  unfold execFpHeartbeatMiss
  repeat' first
    | with_reducible assumption | with_reducible apply State.fpRestart_keeps | with_reducible apply State.reach_keeps
    | with_reducible apply KeepsR.next | with_reducible apply Keeps.ite

theorem execFwRegionFault_keeps {s0 s : State} (hk : Keeps s0 s) (fp : Fin 12) (component : Nat) (addr : Nat) : KeepsR s0 (execFwRegionFault fp component addr s) := by
  unfold execFwRegionFault
  repeat' first
    | with_reducible assumption | with_reducible apply State.event_keeps | with_reducible apply KeepsR.next | with_reducible apply Keeps.ite

theorem State.runWaiting_keeps {s0 s : State} (hk : Keeps s0 s) (i : Instr) : Keeps s0 (State.runWaiting s i) := by
  unfold State.runWaiting
  repeat' first
    | with_reducible assumption | with_reducible apply State.fpWait_keeps | with_reducible apply State.lossEnd_keeps
    | with_reducible apply State.promoteCmd_keeps | with_reducible apply State.quarantineReq_keeps | with_reducible apply Keeps.ite | split

theorem State.feRelease_keeps {s0 s : State} (hk : Keeps s0 s)  : Keeps s0 (State.feRelease s) := by
  unfold State.feRelease
  repeat' first
    | with_reducible assumption | (intro v; clear_value v) | intro _ | with_reducible apply State.feApply_keeps | with_reducible apply Keeps.foldl
    | with_reducible refine KeepsMk.of ?_ | lift_lets -underBinder | simp -proj only [Keeps.mk_eq, TierSt.frames_mk]

theorem State.liftClamp_keeps {s0 s : State} (hk : Keeps s0 s)  : Keeps s0 (State.liftClamp s) := by
  unfold State.liftClamp
  repeat' first
    | with_reducible assumption | (intro v; clear_value v) | with_reducible apply State.setFreqs_keeps | with_reducible refine KeepsMk.of ?_
    | with_reducible apply Keeps.ite | lift_lets -underBinder | simp -proj only [Keeps.mk_eq, TierSt.frames_mk]

theorem State.runWork_keeps {s0 s : State} (hk : Keeps s0 s)  : Keeps s0 (State.runWork s) := by
  unfold State.runWork
  repeat' first
    | with_reducible assumption | (intro v; clear_value v) | intro _ | with_reducible apply State.runWaiting_keeps | with_reducible apply Keeps.foldl
    | with_reducible refine KeepsMk.of ?_ | lift_lets -underBinder | simp -proj only [Keeps.mk_eq, TierSt.frames_mk]

theorem State.fpResume_keeps {s0 s : State} (hk : Keeps s0 s) (n : Nat) : Keeps s0 (State.fpResume s n) := by
  unfold State.fpResume
  repeat' first
    | with_reducible assumption | with_reducible apply State.event_keeps | with_reducible apply State.feRelease_keeps
    | with_reducible apply State.incErr_keeps | with_reducible apply State.liftClamp_keeps | with_reducible apply State.runWork_keeps
    | with_reducible apply State.takePending_keeps | with_reducible apply State.wrB_keeps | with_reducible apply State.wrF_keeps
    | with_reducible apply Keeps.ite

theorem State.pldm_keeps {s0 s : State} (hk : Keeps s0 s) (cmd : Nat) (changes : Bool) (f : State → State × Nat × List Nat) (hf : ∀ t, Keeps s0 t → Keeps s0 (f t).1) : Keeps s0 (State.pldm s cmd changes f) := by
  unfold State.pldm
  split
  · exact hk
  · split
    · exact State.send_keeps hk _
    · split
      rename_i e
      exact State.send_keeps (Keeps.fst (hf _ hk) e) _

theorem State.setPldm_keeps {s0 s : State} (hk : Keeps s0 s) (n : Nat) (cur : Option Component) : Keeps s0 (State.setPldm s n cur) := by
  unfold State.setPldm
  repeat' first
    | with_reducible assumption | (intro v; clear_value v) | with_reducible refine KeepsMk.of ?_ | lift_lets -underBinder
    | simp -proj only [Keeps.mk_eq, TierSt.frames_mk]

theorem execQueryDeviceIdentifiers_keeps {s0 s : State} (hk : Keeps s0 s)  : KeepsR s0 (execQueryDeviceIdentifiers s) := by
  unfold execQueryDeviceIdentifiers
  repeat' first
    | with_reducible assumption | intro _ | with_reducible apply State.pldm_keeps | with_reducible apply KeepsR.next

theorem execGetFirmwareParameters_keeps {s0 s : State} (hk : Keeps s0 s)  : KeepsR s0 (execGetFirmwareParameters s) := by
  unfold execGetFirmwareParameters
  repeat' first
    | with_reducible assumption | intro _ | with_reducible apply State.pldm_keeps | with_reducible apply KeepsR.next

theorem execRequestUpdate_keeps {s0 s : State} (hk : Keeps s0 s) (n : Nat) : KeepsR s0 (execRequestUpdate n s) := by
  unfold execRequestUpdate
  repeat' first
    | with_reducible assumption | (intro v; clear_value v) | intro _ | with_reducible apply State.pldm_keeps | with_reducible apply KeepsR.next
    | with_reducible refine KeepsMk.of ?_ | with_reducible apply Keeps.ite_fst | lift_lets -underBinder | dsimp -zeta only
    | simp -proj only [Keeps.mk_eq, TierSt.frames_mk]

theorem execPassComponentTable_keeps {s0 s : State} (hk : Keeps s0 s) (comps : List Component) : KeepsR s0 (execPassComponentTable comps s) := by
  unfold execPassComponentTable
  repeat' first
    | with_reducible assumption | (intro v; clear_value v) | intro _ | with_reducible apply State.pldm_keeps | with_reducible apply KeepsR.next
    | with_reducible refine KeepsMk.of ?_ | with_reducible apply Keeps.ite_fst | lift_lets -underBinder | dsimp -zeta only
    | simp -proj only [Keeps.mk_eq, TierSt.frames_mk]

theorem execUpdateComponent_keeps {s0 s : State} (hk : Keeps s0 s) (c : Component) : KeepsR s0 (execUpdateComponent c s) := by
  unfold execUpdateComponent
  repeat' first
    | with_reducible assumption | intro _ | with_reducible apply State.pldm_keeps | with_reducible apply State.setPldm_keeps
    | with_reducible apply KeepsR.next | with_reducible apply Keeps.ite_fst | lift_lets -underBinder | split

theorem execRequestFirmwareData_keeps {s0 s : State} (hk : Keeps s0 s) (len : Nat) : KeepsR s0 (execRequestFirmwareData len s) := by
  unfold execRequestFirmwareData
  repeat' first
    | with_reducible assumption | (intro v; clear_value v) | with_reducible apply State.send_keeps | with_reducible apply KeepsR.next
    | with_reducible refine KeepsMk.of ?_ | with_reducible apply Keeps.ite | lift_lets -underBinder | split
    | simp -proj only [Keeps.mk_eq, TierSt.frames_mk]

theorem execTransferComplete_keeps {s0 s : State} (hk : Keeps s0 s) (ok : Bool) : KeepsR s0 (execTransferComplete ok s) := by
  unfold execTransferComplete
  repeat' first
    | with_reducible assumption | (intro v; clear_value v) | intro _ | with_reducible apply State.pldm_keeps
    | with_reducible apply State.setPldm_keeps | with_reducible apply KeepsR.next | with_reducible refine KeepsMk.of ?_
    | with_reducible apply Keeps.ite_fst | lift_lets -underBinder | dsimp -zeta only | simp -proj only [Keeps.mk_eq, TierSt.frames_mk]

theorem execVerifyComplete_keeps {s0 s : State} (hk : Keeps s0 s) (ok : Bool) : KeepsR s0 (execVerifyComplete ok s) := by
  unfold execVerifyComplete
  repeat' first
    | with_reducible assumption | (intro v; clear_value v) | intro _ | with_reducible apply State.pldm_keeps
    | with_reducible apply State.setPldm_keeps | with_reducible apply KeepsR.next | with_reducible refine KeepsMk.of ?_
    | with_reducible apply Keeps.ite_fst | lift_lets -underBinder | dsimp -zeta only | simp -proj only [Keeps.mk_eq, TierSt.frames_mk]

theorem State.applyBank_keeps {s0 s : State} (hk : Keeps s0 s) (c : Component) : Keeps s0 (State.applyBank s c) := by
  unfold State.applyBank
  repeat' first
    | with_reducible assumption | (intro v; clear_value v) | with_reducible apply State.wr_keeps | with_reducible refine KeepsMk.of ?_
    | with_reducible apply Keeps.ite | lift_lets -underBinder | simp -proj only [Keeps.mk_eq, TierSt.frames_mk]

theorem State.noteDone_keeps {s0 s : State} (hk : Keeps s0 s) (c : Component) : Keeps s0 (State.noteDone s c) := by
  unfold State.noteDone
  repeat' first
    | with_reducible assumption | (intro v; clear_value v) | with_reducible refine KeepsMk.of ?_ | lift_lets -underBinder
    | simp -proj only [Keeps.mk_eq, TierSt.frames_mk]

theorem execApplyComplete_keeps {s0 s : State} (hk : Keeps s0 s) (ok : Bool) : KeepsR s0 (execApplyComplete ok s) := by
  unfold execApplyComplete
  repeat' first
    | with_reducible assumption | intro _ | with_reducible apply State.applyBank_keeps | with_reducible apply State.noteDone_keeps
    | with_reducible apply State.pldm_keeps | with_reducible apply State.setPldm_keeps | with_reducible apply KeepsR.next
    | with_reducible apply Keeps.ite | with_reducible apply Keeps.ite_fst | lift_lets -underBinder | split

theorem State.fwActivate_keeps {s0 s : State} (hk : Keeps s0 s) (selfContained : Bool) (c : Component) : Keeps s0 (State.fwActivate s selfContained c) := by
  unfold State.fwActivate
  repeat' first
    | with_reducible assumption | (intro v; have hv : Keeps s0 v := ?_; clear_value v) | (intro v; clear_value v)
    | with_reducible apply State.wr_keeps | with_reducible refine KeepsMk.of ?_ | with_reducible apply Keeps.ite | lift_lets -underBinder | split
    | simp -proj only [Keeps.mk_eq, TierSt.frames_mk]

theorem execActivateFirmware_keeps {s0 s : State} (hk : Keeps s0 s) (selfContained : Bool) : KeepsR s0 (execActivateFirmware selfContained s) := by
  unfold execActivateFirmware
  repeat' first
    | with_reducible assumption | (intro v; have hv : Keeps s0 v := ?_; clear_value v) | (intro v; clear_value v) | intro _
    | with_reducible apply State.fwActivate_keeps | with_reducible apply State.pldm_keeps | with_reducible apply Keeps.foldl
    | with_reducible apply KeepsR.next | with_reducible refine KeepsMk.of ?_ | with_reducible apply Keeps.ite_fst | lift_lets -underBinder
    | dsimp -zeta only | simp -proj only [Keeps.mk_eq, TierSt.frames_mk]

theorem execGetStatus_keeps {s0 s : State} (hk : Keeps s0 s)  : KeepsR s0 (execGetStatus s) := by
  unfold execGetStatus
  repeat' first
    | with_reducible assumption | intro _ | with_reducible apply State.pldm_keeps | with_reducible apply KeepsR.next

theorem execCancelUpdateComponent_keeps {s0 s : State} (hk : Keeps s0 s)  : KeepsR s0 (execCancelUpdateComponent s) := by
  unfold execCancelUpdateComponent
  repeat' first
    | with_reducible assumption | intro _ | with_reducible apply State.pldm_keeps | with_reducible apply State.setPldm_keeps
    | with_reducible apply KeepsR.next | with_reducible apply Keeps.ite_fst

theorem execCancelUpdate_keeps {s0 s : State} (hk : Keeps s0 s)  : KeepsR s0 (execCancelUpdate s) := by
  unfold execCancelUpdate
  repeat' first
    | with_reducible assumption | (intro v; clear_value v) | intro _ | with_reducible apply State.pldm_keeps | with_reducible apply KeepsR.next
    | with_reducible refine KeepsMk.of ?_ | with_reducible apply Keeps.ite_fst | lift_lets -underBinder | dsimp -zeta only
    | simp -proj only [Keeps.mk_eq, TierSt.frames_mk]

theorem execSpdmRequest_keeps {s0 s : State} (hk : Keeps s0 s) (code : Nat) (payload : List Nat) : KeepsR s0 (execSpdmRequest code payload s) := by
  unfold execSpdmRequest
  repeat' first
    | with_reducible assumption | with_reducible apply State.send_keeps | with_reducible apply KeepsR.next | with_reducible apply State.nextFree_keeps
    | with_reducible apply Keeps.ite

theorem State.mgmtMbox_keeps {s0 s : State} (hk : Keeps s0 s) (opcode : Nat) (changes : Bool) (f : Mbox) (hf : ∀ t, Keeps s0 t → Keeps s0 (f t).1) : Keeps s0 (State.mgmtMbox s opcode changes f) := by
  unfold State.mgmtMbox
  split
  · exact hk
  · split
    · exact State.send_keeps hk _
    · split
      rename_i e
      exact State.send_keeps (Keeps.fst (hf _ hk) e) _

theorem State.mboxIdentity_keeps {s0 s : State} (hk : Keeps s0 s)  : Keeps s0 (State.mboxIdentity s).1 := by
  unfold State.mboxIdentity
  repeat' first
    | with_reducible assumption

theorem execGetIdentity_keeps {s0 s : State} (hk : Keeps s0 s)  : KeepsR s0 (execGetIdentity s) := by
  unfold execGetIdentity
  repeat' first
    | with_reducible assumption | intro _ | with_reducible apply State.mboxIdentity_keeps | with_reducible apply State.mgmtMbox_keeps
    | with_reducible apply KeepsR.next

theorem State.mboxOwnerKey_keeps {s0 s : State} (hk : Keeps s0 s) (slot : Nat) (key : BitVec 768) : Keeps s0 (State.mboxOwnerKey slot key s).1 := by
  unfold State.mboxOwnerKey
  repeat' first
    | with_reducible assumption | (intro v; clear_value v) | with_reducible apply State.wrB_keeps | with_reducible refine KeepsMk.of ?_
    | with_reducible apply Keeps.ite_fst | lift_lets -underBinder | simp -proj only [Keeps.mk_eq, TierSt.frames_mk]

theorem execWriteOwnerKey_keeps {s0 s : State} (hk : Keeps s0 s) (slot : Nat) (key : BitVec 768) : KeepsR s0 (execWriteOwnerKey slot key s) := by
  unfold execWriteOwnerKey
  repeat' first
    | with_reducible assumption | intro _ | with_reducible apply State.mboxOwnerKey_keeps | with_reducible apply State.mgmtMbox_keeps
    | with_reducible apply KeepsR.next

theorem State.mboxRestart_keeps {s0 s : State} (hk : Keeps s0 s) (n : Nat) : Keeps s0 (State.mboxRestart n s).1 := by
  unfold State.mboxRestart
  repeat' first
    | with_reducible assumption | with_reducible apply State.fpRestart_keeps | with_reducible apply Keeps.ite_fst

theorem execRestartProcessor_keeps {s0 s : State} (hk : Keeps s0 s) (n : Nat) : KeepsR s0 (execRestartProcessor n s) := by
  unfold execRestartProcessor
  repeat' first
    | with_reducible assumption | intro _ | with_reducible apply State.mboxRestart_keeps | with_reducible apply State.mgmtMbox_keeps
    | with_reducible apply KeepsR.next

theorem State.takeEvents_keeps {s0 s : State} (hk : Keeps s0 s) (skip : Nat) : Keeps s0 (State.takeEvents s skip).1 := by
  unfold State.takeEvents
  repeat' first
    | with_reducible assumption | (intro v; clear_value v) | with_reducible refine KeepsMk.of ?_ | lift_lets -underBinder | dsimp -zeta only
    | simp -proj only [Keeps.mk_eq, TierSt.frames_mk]

theorem execGetEvents_keeps {s0 s : State} (hk : Keeps s0 s) (skip : Nat) : KeepsR s0 (execGetEvents skip s) := by
  unfold execGetEvents
  repeat' first
    | with_reducible assumption | with_reducible apply State.send_keeps | with_reducible apply State.takeEvents_keeps
    | with_reducible apply KeepsR.next | with_reducible apply Keeps.ite

theorem State.mboxClear_keeps {s0 s : State} (hk : Keeps s0 s) (last : Nat) : Keeps s0 (State.mboxClear last s).1 := by
  unfold State.mboxClear
  repeat' first
    | with_reducible assumption | (intro v; clear_value v) | with_reducible refine KeepsMk.of ?_ | lift_lets -underBinder | dsimp -zeta only | split
    | simp -proj only [Keeps.mk_eq, TierSt.frames_mk]

theorem execClearEvents_keeps {s0 s : State} (hk : Keeps s0 s) (last : Nat) : KeepsR s0 (execClearEvents last s) := by
  unfold execClearEvents
  repeat' first
    | with_reducible assumption | intro _ | with_reducible apply State.mboxClear_keeps | with_reducible apply State.mgmtMbox_keeps
    | with_reducible apply KeepsR.next

theorem execMboxUnknownOpcode_keeps {s0 s : State} (hk : Keeps s0 s) (opcode : Nat) : KeepsR s0 (execMboxUnknownOpcode opcode s) := by
  unfold execMboxUnknownOpcode
  repeat' first
    | with_reducible assumption | intro _ | with_reducible apply State.mgmtMbox_keeps | with_reducible apply KeepsR.next

end Sys2Proof.Machine
end

