-- ==== Sys2Proof/Laws/KeepsRegRead.lean ====
section
/-! SUPPORT. Every operation of Machine/RegRead.lean keeps what Keeps says. -/

namespace Sys2Proof.Machine

theorem State.countReplays_keeps {s0 s : State} (hk : Keeps s0 s) (link : Nat) : Keeps s0 (State.countReplays s link) := by
  unfold State.countReplays
  repeat' first
    | with_reducible assumption | with_reducible apply State.incErr_keeps | with_reducible apply State.nextFree_keeps

theorem State.regRead_keeps {s0 s : State} (hk : Keeps s0 s) (r : RegId) : Keeps s0 (State.regRead s r).1 := by
  unfold State.regRead
  repeat' first
    | with_reducible assumption | with_reducible apply State.countReplays_keeps | with_reducible apply State.nextFree_keeps
    | with_reducible apply Keeps.ite | with_reducible apply Keeps.ite_fst

theorem State.readClears_keeps {s0 s : State} (hk : Keeps s0 s) (req : Req) (r : RegId) (bits : Nat) : Keeps s0 (State.readClears s req r bits) := by
  unfold State.readClears
  repeat' first
    | with_reducible assumption | with_reducible apply Keeps.writeReg | with_reducible apply Keeps.ite

theorem State.regAccess_keeps {s0 s : State} (hk : Keeps s0 s) (req : Req) (r : RegId) (byte : Nat) (size : Nat) : Keeps s0 (State.regAccess s req r byte size).1 := by
  unfold State.regAccess
  repeat' first
    | with_reducible assumption | (intro v; clear_value v) | with_reducible apply State.readClears_keeps | with_reducible apply State.regRead_keeps
    | with_reducible refine KeepsMk.of ?_ | with_reducible apply Keeps.ite_fst | lift_lets -underBinder
    | simp -proj only [Keeps.mk_eq, TierSt.frames_mk]

theorem State.readAccess_keeps {s0 s : State} (hk : Keeps s0 s) (req : Req) (off : Nat) (size : Nat) : Keeps s0 (State.readAccess s req off size).1 := by
  unfold State.readAccess
  repeat' first
    | with_reducible assumption | with_reducible apply State.nextFree_keeps | with_reducible apply State.regAccess_keeps
    | with_reducible refine Keeps.fst ?_ (by assumption) | with_reducible apply Keeps.ite_fst | lift_lets -underBinder | dsimp -zeta only | split

theorem State.answer_keeps {s0 s : State} (hk : Keeps s0 s) (req : Req) (off : Nat) (z_ : Answer) : Keeps s0 (State.answer s req off z_) := by
  unfold State.answer
  repeat' first
    | with_reducible assumption | with_reducible apply State.send_keeps | split

theorem State.readFor_keeps {s0 s : State} (hk : Keeps s0 s) (req : Req) (off : Nat) (size : Nat) : Keeps s0 (State.readFor s req off size) := by
  unfold State.readFor
  repeat' first
    | with_reducible assumption | with_reducible apply State.answer_keeps | with_reducible apply State.readAccess_keeps

theorem execReadLoLatch_keeps {s0 s : State} (hk : Keeps s0 s) (req : Req) (off : Nat) : KeepsR s0 (execReadLoLatch req off s) := by
  unfold execReadLoLatch
  repeat' first
    | with_reducible assumption | with_reducible apply State.readFor_keeps | with_reducible apply KeepsR.next

theorem execReadClear_keeps {s0 s : State} (hk : Keeps s0 s) (req : Req) (off : Nat) (size : Nat) : KeepsR s0 (execReadClear req off size s) := by
  unfold execReadClear
  repeat' first
    | with_reducible assumption | with_reducible apply State.readFor_keeps | with_reducible apply KeepsR.next

end Sys2Proof.Machine
end

