-- ==== Sys2Proof/Laws/KeepsRegWrite.lean ====
section
/-! SUPPORT. Every operation of Machine/RegWrite.lean keeps what Keeps says. -/

namespace Sys2Proof.Machine

theorem State.plainWrite_keeps {s0 s : State} (hk : Keeps s0 s) (r : RegId) (v : Nat) (act : Nat) : Keeps s0 (State.plainWrite s r v act) := by
  unfold State.plainWrite
  repeat' first
    | with_reducible assumption | with_reducible apply Keeps.writeReg

theorem State.writeLnkCtrl_keeps {s0 s : State} (hk : Keeps s0 s) (k : Nat) (v : Nat) (act : Nat) : Keeps s0 (State.writeLnkCtrl s k v act) := by
  unfold State.writeLnkCtrl
  repeat' first
    | with_reducible assumption | with_reducible apply State.capWidth_keeps | with_reducible apply State.disableLink_keeps
    | with_reducible apply State.enableLink_keeps | with_reducible apply State.plainWrite_keeps | with_reducible apply State.retrain_keeps
    | with_reducible apply State.wrB_keeps | with_reducible apply Keeps.ite

theorem State.writeRateCtrl_keeps {s0 s : State} (hk : Keeps s0 s) (req : Req) (k : Nat) (v : Nat) (act : Nat) : Keeps s0 (State.writeRateCtrl s req k v act) := by
  unfold State.writeRateCtrl
  repeat' first
    | with_reducible assumption | with_reducible apply State.armUpdate_keeps | with_reducible apply State.plainWrite_keeps
    | with_reducible apply State.rateRetry_keeps | with_reducible apply Keeps.ite

theorem State.writeQuiesce_keeps {s0 s : State} (hk : Keeps s0 s) (p : Nat) (v : Nat) (act : Nat) : Keeps s0 (State.writeQuiesce s p v act) := by
  unfold State.writeQuiesce
  repeat' first
    | with_reducible assumption | with_reducible apply State.quiesceAbort_keeps | with_reducible apply State.quiesceOff_keeps
    | with_reducible apply State.quiesceOn_keeps | with_reducible apply Keeps.ite

theorem State.writeQuar_keeps {s0 s : State} (hk : Keeps s0 s) (p : PartId) (v : Nat) (act : Nat) : Keeps s0 (State.writeQuar s p v act) := by
  unfold State.writeQuar
  repeat' first
    | with_reducible assumption | with_reducible apply State.lift_keeps | with_reducible apply State.quarantineReq_keeps
    | with_reducible apply State.release_keeps | with_reducible apply Keeps.ite

theorem State.writeFlip_keeps {s0 s : State} (hk : Keeps s0 s) (r : RegId) (v : Nat) (act : Nat) : Keeps s0 (State.writeFlip s r v act) := by
  unfold State.writeFlip
  repeat' first
    | with_reducible assumption | with_reducible apply State.plainWrite_keeps | with_reducible apply State.wrB_keeps | with_reducible apply Keeps.ite

theorem State.writeSlotCtrl_keeps {s0 s : State} (hk : Keeps s0 s) (b : Nat) (v : Nat) (act : Nat) : Keeps s0 (State.writeSlotCtrl s b v act) := by
  unfold State.writeSlotCtrl
  repeat' first
    | with_reducible assumption | with_reducible apply State.plainWrite_keeps | with_reducible apply State.powerOnCmd_keeps
    | with_reducible apply State.removeCmd_keeps | with_reducible apply State.slotAbort_keeps | with_reducible apply State.wrF_keeps
    | with_reducible apply Keeps.ite

theorem State.writeMirCtrl_keeps {s0 s : State} (hk : Keeps s0 s) (p : PartId) (v : Nat) (act : Nat) : Keeps s0 (State.writeMirCtrl s p v act) := by
  unfold State.writeMirCtrl
  repeat' first
    | with_reducible assumption | with_reducible apply State.attachCmd_keeps | with_reducible apply State.demoteCmd_keeps
    | with_reducible apply State.detachCmd_keeps | with_reducible apply State.fpWait_keeps | with_reducible apply State.promoteCmd_keeps
    | with_reducible apply State.snapshotCmd_keeps | with_reducible apply State.switchCmd_keeps | with_reducible apply State.unfence_keeps
    | with_reducible apply State.wrB_keeps | with_reducible apply Keeps.ite

theorem State.writeLimits_keeps {s0 s : State} (hk : Keeps s0 s) (r : RegId) (v : Nat) (act : Nat) (len : Nat) (lo : Nat) (hi : Nat) : Keeps s0 (State.writeLimits s r v act len lo hi) := by
  unfold State.writeLimits
  repeat' first
    | with_reducible assumption | with_reducible apply Keeps.writeReg

theorem State.writeReflect_keeps {s0 s : State} (hk : Keeps s0 s) (r : RegId) (v : Nat) (act : Nat) : Keeps s0 (State.writeReflect s r v act) := by
  unfold State.writeReflect
  repeat' first
    | with_reducible assumption | with_reducible apply Keeps.writeReg

theorem State.regWrite_keeps {s0 s : State} (hk : Keeps s0 s) (req : Req) (r : RegId) (v : Nat) (act : Nat) : Keeps s0 (State.regWrite s req r v act) := by
  unfold State.regWrite
  repeat' first
    | with_reducible assumption | (intro v; clear_value v) | intro _ | with_reducible apply State.boundsUpdate_keeps
    | with_reducible apply State.capTest_keeps | with_reducible apply State.clearPend_keeps | with_reducible apply State.clrB_keeps
    | with_reducible apply State.doorbell_keeps | with_reducible apply State.feWrite_keeps | with_reducible apply State.fpRestart_keeps
    | with_reducible apply State.liveness_keeps | with_reducible apply State.livenessTimeout_keeps | with_reducible apply State.loadStart_keeps
    | with_reducible apply State.partFlush_keeps | with_reducible apply State.plainWrite_keeps | with_reducible apply State.powerReq_keeps
    | with_reducible apply State.readMap_keeps | with_reducible apply State.rebuildStart_keeps | with_reducible apply State.restripeCmd_keeps
    | with_reducible apply State.revoke_keeps | with_reducible apply State.setObj_keeps | with_reducible apply State.shipObj_keeps
    | with_reducible apply State.shutdownCmd_keeps | with_reducible apply State.shwWriteHi_keeps | with_reducible apply State.shwWriteLo_keeps
    | with_reducible apply State.warmWrite_keeps | with_reducible apply State.wrB_keeps | with_reducible apply State.wrF_keeps
    | with_reducible apply State.writeFlip_keeps | with_reducible apply State.writeLimits_keeps | with_reducible apply State.writeLnkCtrl_keeps
    | with_reducible apply State.writeMirCtrl_keeps | with_reducible apply State.writeQdCtrl_keeps | with_reducible apply State.writeQuar_keeps
    | with_reducible apply State.writeQuiesce_keeps | with_reducible apply State.writeRateCtrl_keeps | with_reducible apply State.writeReflect_keeps
    | with_reducible apply State.writeRingBase_keeps | with_reducible apply State.writeSeed_keeps | with_reducible apply State.writeShare_keeps
    | with_reducible apply State.writeSlotCtrl_keeps | with_reducible apply State.writeWatermark_keeps | with_reducible apply Keeps.foldl
    | with_reducible apply Keeps.ite | lift_lets -underBinder | split

theorem State.mboxRead_keeps {s0 s : State} (hk : Keeps s0 s) (off : Nat) (size : Nat) : Keeps s0 (State.mboxRead off size s).1 := by
  unfold State.mboxRead
  repeat' first
    | with_reducible assumption | with_reducible apply State.readAccess_keeps | with_reducible refine Keeps.fst ?_ (by assumption)
    | with_reducible apply Keeps.ite_fst | lift_lets -underBinder | split

theorem State.viewWrite_keeps {s0 s : State} (hk : Keeps s0 s) (req : Req) (off : Nat) (r : RegId) (v : Nat) (act : Nat) : Keeps s0 (State.viewWrite s req off r v act) := by
  unfold State.viewWrite
  repeat' first
    | with_reducible assumption | (intro v; clear_value v) | with_reducible apply State.regWrite_keeps | with_reducible refine KeepsMk.of ?_
    | with_reducible apply Keeps.ite | lift_lets -underBinder | simp -proj only [Keeps.mk_eq, TierSt.frames_mk]

theorem State.regStore_keeps {s0 s : State} (hk : Keeps s0 s) (req : Req) (off : Nat) (r : RegId) (byte : Nat) (size : Nat) (v : Nat) : KeepsO s0 (State.regStore s req off r byte size v) := by
  unfold State.regStore
  repeat' first
    | with_reducible assumption | (intro v; clear_value v) | with_reducible apply State.viewWrite_keeps | with_reducible apply KeepsO.ite
    | with_reducible apply KeepsO.some | with_reducible exact KeepsO.none | with_reducible refine KeepsMk.of ?_ | lift_lets -underBinder | split
    | simp -proj only [Keeps.mk_eq, TierSt.frames_mk]

theorem State.writeAccess_keeps {s0 s : State} (hk : Keeps s0 s) (req : Req) (off : Nat) (size : Nat) (v : Nat) : Keeps s0 (State.writeAccess s req off size v).1 := by
  unfold State.writeAccess
  repeat' first
    | with_reducible assumption | (intro v; clear_value v) | with_reducible apply State.regStore_keeps | with_reducible apply State.setLd_keeps
    | with_reducible apply State.stageWrite_keeps | with_reducible apply KeepsO.get (e := by assumption) | with_reducible refine KeepsMk.of ?_
    | with_reducible apply Keeps.ite | with_reducible apply Keeps.ite_fst | lift_lets -underBinder | split
    | simp -proj only [Keeps.mk_eq, TierSt.frames_mk]

theorem State.mboxWrite_keeps {s0 s : State} (hk : Keeps s0 s) (off : Nat) (size : Nat) (v : Nat) : Keeps s0 (State.mboxWrite off size v s).1 := by
  unfold State.mboxWrite
  repeat' first
    | with_reducible assumption | with_reducible apply State.writeAccess_keeps | with_reducible refine Keeps.fst ?_ (by assumption)
    | with_reducible apply Keeps.ite_fst | lift_lets -underBinder | split

theorem execReadRegister_keeps {s0 s : State} (hk : Keeps s0 s) (off : Nat) (size : Nat) : KeepsR s0 (execReadRegister off size s) := by
  unfold execReadRegister
  repeat' first
    | with_reducible assumption | intro _ | with_reducible apply State.mboxRead_keeps | with_reducible apply State.mgmtMbox_keeps
    | with_reducible apply KeepsR.next

theorem execWriteRegister_keeps {s0 s : State} (hk : Keeps s0 s) (off : Nat) (size : Nat) (val : Nat) : KeepsR s0 (execWriteRegister off size val s) := by
  unfold execWriteRegister
  repeat' first
    | with_reducible assumption | intro _ | with_reducible apply State.mboxWrite_keeps | with_reducible apply State.mgmtMbox_keeps
    | with_reducible apply KeepsR.next

theorem State.mboxRequest_keeps {s0 s : State} (hk : Keeps s0 s)  : Keeps s0 (State.mboxRequest s).1 := by
  unfold State.mboxRequest
  repeat' first
    | with_reducible assumption | with_reducible apply State.mboxClear_keeps | with_reducible apply State.mboxOwnerKey_keeps
    | with_reducible apply State.mboxRead_keeps | with_reducible apply State.mboxRestart_keeps | with_reducible apply State.mboxWrite_keeps
    | with_reducible apply State.takeEvents_keeps | with_reducible apply Keeps.ite_fst

theorem State.mboxRun_keeps {s0 s : State} (hk : Keeps s0 s)  : Keeps s0 (State.mboxRun s) := by
  unfold State.mboxRun
  repeat' first
    | with_reducible assumption | (intro v; have hv : Keeps s0 v := ?_; clear_value v) | (intro v; clear_value v)
    | with_reducible apply State.clrB_keeps | with_reducible apply State.mboxRequest_keeps | with_reducible apply State.wr_keeps
    | with_reducible refine KeepsMk.of ?_ | lift_lets -underBinder | simp -proj only [Keeps.mk_eq, TierSt.frames_mk]

theorem State.mboxGo_keeps {s0 s : State} (hk : Keeps s0 s)  : Keeps s0 (State.mboxGo s) := by
  unfold State.mboxGo
  repeat' first
    | with_reducible assumption | with_reducible apply State.mboxRun_keeps | with_reducible apply State.setB_keeps | with_reducible apply Keeps.ite

theorem State.writeFor_keeps {s0 s : State} (hk : Keeps s0 s) (req : Req) (off : Nat) (size : Nat) (v : Nat) : Keeps s0 (State.writeFor s req off size v) := by
  unfold State.writeFor
  repeat' first
    | with_reducible assumption | with_reducible apply State.answer_keeps | with_reducible apply State.mboxGo_keeps
    | with_reducible apply State.writeAccess_keeps | with_reducible apply Keeps.ite

theorem execRegisterWrite_keeps {s0 s : State} (hk : Keeps s0 s) (req : Req) (off : Nat) (size : Nat) (val : Nat) : KeepsR s0 (execRegisterWrite req off size val s) := by
  unfold execRegisterWrite
  repeat' first
    | with_reducible assumption | with_reducible apply State.writeFor_keeps | with_reducible apply KeepsR.next

theorem execWriteLoHeld_keeps {s0 s : State} (hk : Keeps s0 s) (req : Req) (off : Nat) (val : BitVec 32) : KeepsR s0 (execWriteLoHeld req off val s) := by
  unfold execWriteLoHeld
  repeat' first
    | with_reducible assumption | with_reducible apply State.writeFor_keeps | with_reducible apply KeepsR.next

theorem execWriteHiApply_keeps {s0 s : State} (hk : Keeps s0 s) (req : Req) (off : Nat) (val : BitVec 32) : KeepsR s0 (execWriteHiApply req off val s) := by
  unfold execWriteHiApply
  repeat' first
    | with_reducible assumption | with_reducible apply State.writeFor_keeps | with_reducible apply KeepsR.next

theorem execFeRegisterAccess_keeps {s0 s : State} (hk : Keeps s0 s) (req : Req) (off : Nat) (size : Nat) (write : Option Nat) : KeepsR s0 (execFeRegisterAccess req off size write s) := by
  unfold execFeRegisterAccess
  repeat' first
    | with_reducible assumption | with_reducible apply State.readFor_keeps | with_reducible apply State.writeFor_keeps
    | with_reducible apply KeepsR.next | lift_lets -underBinder | split

theorem execFpHeartbeat_keeps {s0 s : State} (hk : Keeps s0 s) (fp : Fin 12) : KeepsR s0 (execFpHeartbeat fp s) := by
  unfold execFpHeartbeat
  repeat' first
    | with_reducible assumption | (intro v; clear_value v) | with_reducible apply State.fpResume_keeps | with_reducible apply State.mboxRun_keeps
    | with_reducible apply KeepsR.next | with_reducible refine KeepsMk.of ?_ | with_reducible apply Keeps.ite | lift_lets -underBinder
    | simp -proj only [Keeps.mk_eq, TierSt.frames_mk]

theorem State.heldWrites_keeps {s0 s : State} (hk : Keeps s0 s)  : Keeps s0 (State.heldWrites s) := by
  unfold State.heldWrites
  repeat' first
    | with_reducible assumption | (intro v; clear_value v) | intro _ | with_reducible apply State.regWrite_keeps | with_reducible apply Keeps.foldl
    | with_reducible refine KeepsMk.of ?_ | lift_lets -underBinder | simp -proj only [Keeps.mk_eq, TierSt.frames_mk]

theorem execPowerTransitionDone_keeps {s0 s : State} (hk : Keeps s0 s) (savedBad : Bool) (resweep : List Nat) (marginal : List (Nat × Nat × Bool)) (badBanks : BitVec 2) : KeepsR s0 (execPowerTransitionDone savedBad resweep marginal badBanks s) := by
  unfold execPowerTransitionDone
  repeat' first
    | with_reducible assumption | intro _ | with_reducible apply State.enterState_keeps | with_reducible apply State.heldWrites_keeps
    | with_reducible apply State.leaveState_keeps | with_reducible apply State.pwrEnd_keeps | with_reducible apply State.pwrResult_keeps
    | with_reducible apply KeepsR.next | with_reducible apply Keeps.ite

end Sys2Proof.Machine
end

