-- ==== Sys2Proof/Laws/State.lean ====
section
/-! SUPPORT. What each named update of State leaves alone, field by field, and what a register, a link, an LD, a partition, a core, a queue or a sync object reads as after a write. -/

namespace Sys2Proof.Machine

variable (s : State)

@[simp] theorem State.wr_time (n : RegName) (v : Word) (i j : Nat) : (s.wr n v i j).time = s.time := rfl
@[simp] theorem State.wr_free (n : RegName) (v : Word) (i j : Nat) : (s.wr n v i j).free = s.free := rfl
@[simp] theorem State.wr_pending (n : RegName) (v : Word) (i j : Nat) : (s.wr n v i j).pending = s.pending := rfl
@[simp] theorem State.wr_out (n : RegName) (v : Word) (i j : Nat) : (s.wr n v i j).out = s.out := rfl
@[simp] theorem State.wr_acc (n : RegName) (v : Word) (i j : Nat) : (s.wr n v i j).acc = s.acc := rfl
@[simp] theorem State.wr_ev (n : RegName) (v : Word) (i j : Nat) : (s.wr n v i j).ev = s.ev := rfl
@[simp] theorem State.wr_img (n : RegName) (v : Word) (i j : Nat) : (s.wr n v i j).img = s.img := rfl
@[simp] theorem State.wr_links (n : RegName) (v : Word) (i j : Nat) : (s.wr n v i j).links = s.links := rfl
@[simp] theorem State.wr_lds (n : RegName) (v : Word) (i j : Nat) : (s.wr n v i j).lds = s.lds := rfl
@[simp] theorem State.wr_binding (n : RegName) (v : Word) (i j : Nat) : (s.wr n v i j).binding = s.binding := rfl
@[simp] theorem State.wr_iso (n : RegName) (v : Word) (i j : Nat) : (s.wr n v i j).iso = s.iso := rfl
@[simp] theorem State.wr_parts (n : RegName) (v : Word) (i j : Nat) : (s.wr n v i j).parts = s.parts := rfl
@[simp] theorem State.wr_lens (n : RegName) (v : Word) (i j : Nat) : (s.wr n v i j).lens = s.lens := rfl
@[simp] theorem State.wr_tier (n : RegName) (v : Word) (i j : Nat) : (s.wr n v i j).tier = s.tier := rfl
@[simp] theorem State.wr_dram (n : RegName) (v : Word) (i j : Nat) : (s.wr n v i j).dram = s.dram := rfl
@[simp] theorem State.wr_flash (n : RegName) (v : Word) (i j : Nat) : (s.wr n v i j).flash = s.flash := rfl
@[simp] theorem State.wr_qos (n : RegName) (v : Word) (i j : Nat) : (s.wr n v i j).qos = s.qos := rfl
@[simp] theorem State.wr_mir (n : RegName) (v : Word) (i j : Nat) : (s.wr n v i j).mir = s.mir := rfl
@[simp] theorem State.wr_power (n : RegName) (v : Word) (i j : Nat) : (s.wr n v i j).power = s.power := rfl
@[simp] theorem State.wr_start (n : RegName) (v : Word) (i j : Nat) : (s.wr n v i j).start = s.start := rfl
@[simp] theorem State.wr_hup (n : RegName) (v : Word) (i j : Nat) : (s.wr n v i j).hup = s.hup := rfl
@[simp] theorem State.wr_fw (n : RegName) (v : Word) (i j : Nat) : (s.wr n v i j).fw = s.fw := rfl
@[simp] theorem State.wr_shw (n : RegName) (v : Word) (i j : Nat) : (s.wr n v i j).shw = s.shw := rfl
@[simp] theorem State.wr_cross (n : RegName) (v : Word) (i j : Nat) : (s.wr n v i j).cross = s.cross := rfl
@[simp] theorem State.wr_queues (n : RegName) (v : Word) (i j : Nat) : (s.wr n v i j).queues = s.queues := rfl
@[simp] theorem State.wr_sync (n : RegName) (v : Word) (i j : Nat) : (s.wr n v i j).sync = s.sync := rfl
@[simp] theorem State.wr_cores (n : RegName) (v : Word) (i j : Nat) : (s.wr n v i j).cores = s.cores := rfl
@[simp] theorem State.wr_shared (n : RegName) (v : Word) (i j : Nat) : (s.wr n v i j).shared = s.shared := rfl
@[simp] theorem State.wr_comp (n : RegName) (v : Word) (i j : Nat) : (s.wr n v i j).comp = s.comp := rfl
@[simp] theorem State.wr_pool (n : RegName) (v : Word) (i j : Nat) : (s.wr n v i j).pool = s.pool := rfl

@[simp] theorem State.wrF_time (n : RegName) (lo len v i j : Nat) : (s.wrF n lo len v i j).time = s.time := rfl
@[simp] theorem State.wrF_free (n : RegName) (lo len v i j : Nat) : (s.wrF n lo len v i j).free = s.free := rfl
@[simp] theorem State.wrF_pending (n : RegName) (lo len v i j : Nat) : (s.wrF n lo len v i j).pending = s.pending := rfl
@[simp] theorem State.wrF_out (n : RegName) (lo len v i j : Nat) : (s.wrF n lo len v i j).out = s.out := rfl
@[simp] theorem State.wrF_acc (n : RegName) (lo len v i j : Nat) : (s.wrF n lo len v i j).acc = s.acc := rfl
@[simp] theorem State.wrF_ev (n : RegName) (lo len v i j : Nat) : (s.wrF n lo len v i j).ev = s.ev := rfl
@[simp] theorem State.wrF_img (n : RegName) (lo len v i j : Nat) : (s.wrF n lo len v i j).img = s.img := rfl
@[simp] theorem State.wrF_links (n : RegName) (lo len v i j : Nat) : (s.wrF n lo len v i j).links = s.links := rfl
@[simp] theorem State.wrF_lds (n : RegName) (lo len v i j : Nat) : (s.wrF n lo len v i j).lds = s.lds := rfl
@[simp] theorem State.wrF_binding (n : RegName) (lo len v i j : Nat) : (s.wrF n lo len v i j).binding = s.binding := rfl
@[simp] theorem State.wrF_iso (n : RegName) (lo len v i j : Nat) : (s.wrF n lo len v i j).iso = s.iso := rfl
@[simp] theorem State.wrF_parts (n : RegName) (lo len v i j : Nat) : (s.wrF n lo len v i j).parts = s.parts := rfl
@[simp] theorem State.wrF_lens (n : RegName) (lo len v i j : Nat) : (s.wrF n lo len v i j).lens = s.lens := rfl
@[simp] theorem State.wrF_tier (n : RegName) (lo len v i j : Nat) : (s.wrF n lo len v i j).tier = s.tier := rfl
@[simp] theorem State.wrF_dram (n : RegName) (lo len v i j : Nat) : (s.wrF n lo len v i j).dram = s.dram := rfl
@[simp] theorem State.wrF_flash (n : RegName) (lo len v i j : Nat) : (s.wrF n lo len v i j).flash = s.flash := rfl
@[simp] theorem State.wrF_qos (n : RegName) (lo len v i j : Nat) : (s.wrF n lo len v i j).qos = s.qos := rfl
@[simp] theorem State.wrF_mir (n : RegName) (lo len v i j : Nat) : (s.wrF n lo len v i j).mir = s.mir := rfl
@[simp] theorem State.wrF_power (n : RegName) (lo len v i j : Nat) : (s.wrF n lo len v i j).power = s.power := rfl
@[simp] theorem State.wrF_start (n : RegName) (lo len v i j : Nat) : (s.wrF n lo len v i j).start = s.start := rfl
@[simp] theorem State.wrF_hup (n : RegName) (lo len v i j : Nat) : (s.wrF n lo len v i j).hup = s.hup := rfl
@[simp] theorem State.wrF_fw (n : RegName) (lo len v i j : Nat) : (s.wrF n lo len v i j).fw = s.fw := rfl
@[simp] theorem State.wrF_shw (n : RegName) (lo len v i j : Nat) : (s.wrF n lo len v i j).shw = s.shw := rfl
@[simp] theorem State.wrF_cross (n : RegName) (lo len v i j : Nat) : (s.wrF n lo len v i j).cross = s.cross := rfl
@[simp] theorem State.wrF_queues (n : RegName) (lo len v i j : Nat) : (s.wrF n lo len v i j).queues = s.queues := rfl
@[simp] theorem State.wrF_sync (n : RegName) (lo len v i j : Nat) : (s.wrF n lo len v i j).sync = s.sync := rfl
@[simp] theorem State.wrF_cores (n : RegName) (lo len v i j : Nat) : (s.wrF n lo len v i j).cores = s.cores := rfl
@[simp] theorem State.wrF_shared (n : RegName) (lo len v i j : Nat) : (s.wrF n lo len v i j).shared = s.shared := rfl
@[simp] theorem State.wrF_comp (n : RegName) (lo len v i j : Nat) : (s.wrF n lo len v i j).comp = s.comp := rfl
@[simp] theorem State.wrF_pool (n : RegName) (lo len v i j : Nat) : (s.wrF n lo len v i j).pool = s.pool := rfl

@[simp] theorem State.wrB_time (n : RegName) (b : Nat) (v : Bool) (i j : Nat) : (s.wrB n b v i j).time = s.time := rfl
@[simp] theorem State.wrB_free (n : RegName) (b : Nat) (v : Bool) (i j : Nat) : (s.wrB n b v i j).free = s.free := rfl
@[simp] theorem State.wrB_pending (n : RegName) (b : Nat) (v : Bool) (i j : Nat) : (s.wrB n b v i j).pending = s.pending := rfl
@[simp] theorem State.wrB_out (n : RegName) (b : Nat) (v : Bool) (i j : Nat) : (s.wrB n b v i j).out = s.out := rfl
@[simp] theorem State.wrB_acc (n : RegName) (b : Nat) (v : Bool) (i j : Nat) : (s.wrB n b v i j).acc = s.acc := rfl
@[simp] theorem State.wrB_ev (n : RegName) (b : Nat) (v : Bool) (i j : Nat) : (s.wrB n b v i j).ev = s.ev := rfl
@[simp] theorem State.wrB_img (n : RegName) (b : Nat) (v : Bool) (i j : Nat) : (s.wrB n b v i j).img = s.img := rfl
@[simp] theorem State.wrB_links (n : RegName) (b : Nat) (v : Bool) (i j : Nat) : (s.wrB n b v i j).links = s.links := rfl
@[simp] theorem State.wrB_lds (n : RegName) (b : Nat) (v : Bool) (i j : Nat) : (s.wrB n b v i j).lds = s.lds := rfl
@[simp] theorem State.wrB_binding (n : RegName) (b : Nat) (v : Bool) (i j : Nat) : (s.wrB n b v i j).binding = s.binding := rfl
@[simp] theorem State.wrB_iso (n : RegName) (b : Nat) (v : Bool) (i j : Nat) : (s.wrB n b v i j).iso = s.iso := rfl
@[simp] theorem State.wrB_parts (n : RegName) (b : Nat) (v : Bool) (i j : Nat) : (s.wrB n b v i j).parts = s.parts := rfl
@[simp] theorem State.wrB_lens (n : RegName) (b : Nat) (v : Bool) (i j : Nat) : (s.wrB n b v i j).lens = s.lens := rfl
@[simp] theorem State.wrB_tier (n : RegName) (b : Nat) (v : Bool) (i j : Nat) : (s.wrB n b v i j).tier = s.tier := rfl
@[simp] theorem State.wrB_dram (n : RegName) (b : Nat) (v : Bool) (i j : Nat) : (s.wrB n b v i j).dram = s.dram := rfl
@[simp] theorem State.wrB_flash (n : RegName) (b : Nat) (v : Bool) (i j : Nat) : (s.wrB n b v i j).flash = s.flash := rfl
@[simp] theorem State.wrB_qos (n : RegName) (b : Nat) (v : Bool) (i j : Nat) : (s.wrB n b v i j).qos = s.qos := rfl
@[simp] theorem State.wrB_mir (n : RegName) (b : Nat) (v : Bool) (i j : Nat) : (s.wrB n b v i j).mir = s.mir := rfl
@[simp] theorem State.wrB_power (n : RegName) (b : Nat) (v : Bool) (i j : Nat) : (s.wrB n b v i j).power = s.power := rfl
@[simp] theorem State.wrB_start (n : RegName) (b : Nat) (v : Bool) (i j : Nat) : (s.wrB n b v i j).start = s.start := rfl
@[simp] theorem State.wrB_hup (n : RegName) (b : Nat) (v : Bool) (i j : Nat) : (s.wrB n b v i j).hup = s.hup := rfl
@[simp] theorem State.wrB_fw (n : RegName) (b : Nat) (v : Bool) (i j : Nat) : (s.wrB n b v i j).fw = s.fw := rfl
@[simp] theorem State.wrB_shw (n : RegName) (b : Nat) (v : Bool) (i j : Nat) : (s.wrB n b v i j).shw = s.shw := rfl
@[simp] theorem State.wrB_cross (n : RegName) (b : Nat) (v : Bool) (i j : Nat) : (s.wrB n b v i j).cross = s.cross := rfl
@[simp] theorem State.wrB_queues (n : RegName) (b : Nat) (v : Bool) (i j : Nat) : (s.wrB n b v i j).queues = s.queues := rfl
@[simp] theorem State.wrB_sync (n : RegName) (b : Nat) (v : Bool) (i j : Nat) : (s.wrB n b v i j).sync = s.sync := rfl
@[simp] theorem State.wrB_cores (n : RegName) (b : Nat) (v : Bool) (i j : Nat) : (s.wrB n b v i j).cores = s.cores := rfl
@[simp] theorem State.wrB_shared (n : RegName) (b : Nat) (v : Bool) (i j : Nat) : (s.wrB n b v i j).shared = s.shared := rfl
@[simp] theorem State.wrB_comp (n : RegName) (b : Nat) (v : Bool) (i j : Nat) : (s.wrB n b v i j).comp = s.comp := rfl
@[simp] theorem State.wrB_pool (n : RegName) (b : Nat) (v : Bool) (i j : Nat) : (s.wrB n b v i j).pool = s.pool := rfl

@[simp] theorem State.setB_time (n : RegName) (b i : Nat) : (s.setB n b i).time = s.time := rfl
@[simp] theorem State.setB_free (n : RegName) (b i : Nat) : (s.setB n b i).free = s.free := rfl
@[simp] theorem State.setB_pending (n : RegName) (b i : Nat) : (s.setB n b i).pending = s.pending := rfl
@[simp] theorem State.setB_out (n : RegName) (b i : Nat) : (s.setB n b i).out = s.out := rfl
@[simp] theorem State.setB_acc (n : RegName) (b i : Nat) : (s.setB n b i).acc = s.acc := rfl
@[simp] theorem State.setB_ev (n : RegName) (b i : Nat) : (s.setB n b i).ev = s.ev := rfl
@[simp] theorem State.setB_img (n : RegName) (b i : Nat) : (s.setB n b i).img = s.img := rfl
@[simp] theorem State.setB_links (n : RegName) (b i : Nat) : (s.setB n b i).links = s.links := rfl
@[simp] theorem State.setB_lds (n : RegName) (b i : Nat) : (s.setB n b i).lds = s.lds := rfl
@[simp] theorem State.setB_binding (n : RegName) (b i : Nat) : (s.setB n b i).binding = s.binding := rfl
@[simp] theorem State.setB_iso (n : RegName) (b i : Nat) : (s.setB n b i).iso = s.iso := rfl
@[simp] theorem State.setB_parts (n : RegName) (b i : Nat) : (s.setB n b i).parts = s.parts := rfl
@[simp] theorem State.setB_lens (n : RegName) (b i : Nat) : (s.setB n b i).lens = s.lens := rfl
@[simp] theorem State.setB_tier (n : RegName) (b i : Nat) : (s.setB n b i).tier = s.tier := rfl
@[simp] theorem State.setB_dram (n : RegName) (b i : Nat) : (s.setB n b i).dram = s.dram := rfl
@[simp] theorem State.setB_flash (n : RegName) (b i : Nat) : (s.setB n b i).flash = s.flash := rfl
@[simp] theorem State.setB_qos (n : RegName) (b i : Nat) : (s.setB n b i).qos = s.qos := rfl
@[simp] theorem State.setB_mir (n : RegName) (b i : Nat) : (s.setB n b i).mir = s.mir := rfl
@[simp] theorem State.setB_power (n : RegName) (b i : Nat) : (s.setB n b i).power = s.power := rfl
@[simp] theorem State.setB_start (n : RegName) (b i : Nat) : (s.setB n b i).start = s.start := rfl
@[simp] theorem State.setB_hup (n : RegName) (b i : Nat) : (s.setB n b i).hup = s.hup := rfl
@[simp] theorem State.setB_fw (n : RegName) (b i : Nat) : (s.setB n b i).fw = s.fw := rfl
@[simp] theorem State.setB_shw (n : RegName) (b i : Nat) : (s.setB n b i).shw = s.shw := rfl
@[simp] theorem State.setB_cross (n : RegName) (b i : Nat) : (s.setB n b i).cross = s.cross := rfl
@[simp] theorem State.setB_queues (n : RegName) (b i : Nat) : (s.setB n b i).queues = s.queues := rfl
@[simp] theorem State.setB_sync (n : RegName) (b i : Nat) : (s.setB n b i).sync = s.sync := rfl
@[simp] theorem State.setB_cores (n : RegName) (b i : Nat) : (s.setB n b i).cores = s.cores := rfl
@[simp] theorem State.setB_shared (n : RegName) (b i : Nat) : (s.setB n b i).shared = s.shared := rfl
@[simp] theorem State.setB_comp (n : RegName) (b i : Nat) : (s.setB n b i).comp = s.comp := rfl
@[simp] theorem State.setB_pool (n : RegName) (b i : Nat) : (s.setB n b i).pool = s.pool := rfl

@[simp] theorem State.clrB_time (n : RegName) (b i : Nat) : (s.clrB n b i).time = s.time := rfl
@[simp] theorem State.clrB_free (n : RegName) (b i : Nat) : (s.clrB n b i).free = s.free := rfl
@[simp] theorem State.clrB_pending (n : RegName) (b i : Nat) : (s.clrB n b i).pending = s.pending := rfl
@[simp] theorem State.clrB_out (n : RegName) (b i : Nat) : (s.clrB n b i).out = s.out := rfl
@[simp] theorem State.clrB_acc (n : RegName) (b i : Nat) : (s.clrB n b i).acc = s.acc := rfl
@[simp] theorem State.clrB_ev (n : RegName) (b i : Nat) : (s.clrB n b i).ev = s.ev := rfl
@[simp] theorem State.clrB_img (n : RegName) (b i : Nat) : (s.clrB n b i).img = s.img := rfl
@[simp] theorem State.clrB_links (n : RegName) (b i : Nat) : (s.clrB n b i).links = s.links := rfl
@[simp] theorem State.clrB_lds (n : RegName) (b i : Nat) : (s.clrB n b i).lds = s.lds := rfl
@[simp] theorem State.clrB_binding (n : RegName) (b i : Nat) : (s.clrB n b i).binding = s.binding := rfl
@[simp] theorem State.clrB_iso (n : RegName) (b i : Nat) : (s.clrB n b i).iso = s.iso := rfl
@[simp] theorem State.clrB_parts (n : RegName) (b i : Nat) : (s.clrB n b i).parts = s.parts := rfl
@[simp] theorem State.clrB_lens (n : RegName) (b i : Nat) : (s.clrB n b i).lens = s.lens := rfl
@[simp] theorem State.clrB_tier (n : RegName) (b i : Nat) : (s.clrB n b i).tier = s.tier := rfl
@[simp] theorem State.clrB_dram (n : RegName) (b i : Nat) : (s.clrB n b i).dram = s.dram := rfl
@[simp] theorem State.clrB_flash (n : RegName) (b i : Nat) : (s.clrB n b i).flash = s.flash := rfl
@[simp] theorem State.clrB_qos (n : RegName) (b i : Nat) : (s.clrB n b i).qos = s.qos := rfl
@[simp] theorem State.clrB_mir (n : RegName) (b i : Nat) : (s.clrB n b i).mir = s.mir := rfl
@[simp] theorem State.clrB_power (n : RegName) (b i : Nat) : (s.clrB n b i).power = s.power := rfl
@[simp] theorem State.clrB_start (n : RegName) (b i : Nat) : (s.clrB n b i).start = s.start := rfl
@[simp] theorem State.clrB_hup (n : RegName) (b i : Nat) : (s.clrB n b i).hup = s.hup := rfl
@[simp] theorem State.clrB_fw (n : RegName) (b i : Nat) : (s.clrB n b i).fw = s.fw := rfl
@[simp] theorem State.clrB_shw (n : RegName) (b i : Nat) : (s.clrB n b i).shw = s.shw := rfl
@[simp] theorem State.clrB_cross (n : RegName) (b i : Nat) : (s.clrB n b i).cross = s.cross := rfl
@[simp] theorem State.clrB_queues (n : RegName) (b i : Nat) : (s.clrB n b i).queues = s.queues := rfl
@[simp] theorem State.clrB_sync (n : RegName) (b i : Nat) : (s.clrB n b i).sync = s.sync := rfl
@[simp] theorem State.clrB_cores (n : RegName) (b i : Nat) : (s.clrB n b i).cores = s.cores := rfl
@[simp] theorem State.clrB_shared (n : RegName) (b i : Nat) : (s.clrB n b i).shared = s.shared := rfl
@[simp] theorem State.clrB_comp (n : RegName) (b i : Nat) : (s.clrB n b i).comp = s.comp := rfl
@[simp] theorem State.clrB_pool (n : RegName) (b i : Nat) : (s.clrB n b i).pool = s.pool := rfl

@[simp] theorem State.incErr_time (n : RegName) (i k : Nat) : (s.incErr n i k).time = s.time := rfl
@[simp] theorem State.incErr_free (n : RegName) (i k : Nat) : (s.incErr n i k).free = s.free := rfl
@[simp] theorem State.incErr_pending (n : RegName) (i k : Nat) : (s.incErr n i k).pending = s.pending := rfl
@[simp] theorem State.incErr_out (n : RegName) (i k : Nat) : (s.incErr n i k).out = s.out := rfl
@[simp] theorem State.incErr_acc (n : RegName) (i k : Nat) : (s.incErr n i k).acc = s.acc := rfl
@[simp] theorem State.incErr_ev (n : RegName) (i k : Nat) : (s.incErr n i k).ev = s.ev := rfl
@[simp] theorem State.incErr_img (n : RegName) (i k : Nat) : (s.incErr n i k).img = s.img := rfl
@[simp] theorem State.incErr_links (n : RegName) (i k : Nat) : (s.incErr n i k).links = s.links := rfl
@[simp] theorem State.incErr_lds (n : RegName) (i k : Nat) : (s.incErr n i k).lds = s.lds := rfl
@[simp] theorem State.incErr_binding (n : RegName) (i k : Nat) : (s.incErr n i k).binding = s.binding := rfl
@[simp] theorem State.incErr_iso (n : RegName) (i k : Nat) : (s.incErr n i k).iso = s.iso := rfl
@[simp] theorem State.incErr_parts (n : RegName) (i k : Nat) : (s.incErr n i k).parts = s.parts := rfl
@[simp] theorem State.incErr_lens (n : RegName) (i k : Nat) : (s.incErr n i k).lens = s.lens := rfl
@[simp] theorem State.incErr_tier (n : RegName) (i k : Nat) : (s.incErr n i k).tier = s.tier := rfl
@[simp] theorem State.incErr_dram (n : RegName) (i k : Nat) : (s.incErr n i k).dram = s.dram := rfl
@[simp] theorem State.incErr_flash (n : RegName) (i k : Nat) : (s.incErr n i k).flash = s.flash := rfl
@[simp] theorem State.incErr_qos (n : RegName) (i k : Nat) : (s.incErr n i k).qos = s.qos := rfl
@[simp] theorem State.incErr_mir (n : RegName) (i k : Nat) : (s.incErr n i k).mir = s.mir := rfl
@[simp] theorem State.incErr_power (n : RegName) (i k : Nat) : (s.incErr n i k).power = s.power := rfl
@[simp] theorem State.incErr_start (n : RegName) (i k : Nat) : (s.incErr n i k).start = s.start := rfl
@[simp] theorem State.incErr_hup (n : RegName) (i k : Nat) : (s.incErr n i k).hup = s.hup := rfl
@[simp] theorem State.incErr_fw (n : RegName) (i k : Nat) : (s.incErr n i k).fw = s.fw := rfl
@[simp] theorem State.incErr_shw (n : RegName) (i k : Nat) : (s.incErr n i k).shw = s.shw := rfl
@[simp] theorem State.incErr_cross (n : RegName) (i k : Nat) : (s.incErr n i k).cross = s.cross := rfl
@[simp] theorem State.incErr_queues (n : RegName) (i k : Nat) : (s.incErr n i k).queues = s.queues := rfl
@[simp] theorem State.incErr_sync (n : RegName) (i k : Nat) : (s.incErr n i k).sync = s.sync := rfl
@[simp] theorem State.incErr_cores (n : RegName) (i k : Nat) : (s.incErr n i k).cores = s.cores := rfl
@[simp] theorem State.incErr_shared (n : RegName) (i k : Nat) : (s.incErr n i k).shared = s.shared := rfl
@[simp] theorem State.incErr_comp (n : RegName) (i k : Nat) : (s.incErr n i k).comp = s.comp := rfl
@[simp] theorem State.incErr_pool (n : RegName) (i k : Nat) : (s.incErr n i k).pool = s.pool := rfl

@[simp] theorem State.incEvt_time (n : RegName) (i k : Nat) : (s.incEvt n i k).time = s.time := rfl
@[simp] theorem State.incEvt_free (n : RegName) (i k : Nat) : (s.incEvt n i k).free = s.free := rfl
@[simp] theorem State.incEvt_pending (n : RegName) (i k : Nat) : (s.incEvt n i k).pending = s.pending := rfl
@[simp] theorem State.incEvt_out (n : RegName) (i k : Nat) : (s.incEvt n i k).out = s.out := rfl
@[simp] theorem State.incEvt_acc (n : RegName) (i k : Nat) : (s.incEvt n i k).acc = s.acc := rfl
@[simp] theorem State.incEvt_ev (n : RegName) (i k : Nat) : (s.incEvt n i k).ev = s.ev := rfl
@[simp] theorem State.incEvt_img (n : RegName) (i k : Nat) : (s.incEvt n i k).img = s.img := rfl
@[simp] theorem State.incEvt_links (n : RegName) (i k : Nat) : (s.incEvt n i k).links = s.links := rfl
@[simp] theorem State.incEvt_lds (n : RegName) (i k : Nat) : (s.incEvt n i k).lds = s.lds := rfl
@[simp] theorem State.incEvt_binding (n : RegName) (i k : Nat) : (s.incEvt n i k).binding = s.binding := rfl
@[simp] theorem State.incEvt_iso (n : RegName) (i k : Nat) : (s.incEvt n i k).iso = s.iso := rfl
@[simp] theorem State.incEvt_parts (n : RegName) (i k : Nat) : (s.incEvt n i k).parts = s.parts := rfl
@[simp] theorem State.incEvt_lens (n : RegName) (i k : Nat) : (s.incEvt n i k).lens = s.lens := rfl
@[simp] theorem State.incEvt_tier (n : RegName) (i k : Nat) : (s.incEvt n i k).tier = s.tier := rfl
@[simp] theorem State.incEvt_dram (n : RegName) (i k : Nat) : (s.incEvt n i k).dram = s.dram := rfl
@[simp] theorem State.incEvt_flash (n : RegName) (i k : Nat) : (s.incEvt n i k).flash = s.flash := rfl
@[simp] theorem State.incEvt_qos (n : RegName) (i k : Nat) : (s.incEvt n i k).qos = s.qos := rfl
@[simp] theorem State.incEvt_mir (n : RegName) (i k : Nat) : (s.incEvt n i k).mir = s.mir := rfl
@[simp] theorem State.incEvt_power (n : RegName) (i k : Nat) : (s.incEvt n i k).power = s.power := rfl
@[simp] theorem State.incEvt_start (n : RegName) (i k : Nat) : (s.incEvt n i k).start = s.start := rfl
@[simp] theorem State.incEvt_hup (n : RegName) (i k : Nat) : (s.incEvt n i k).hup = s.hup := rfl
@[simp] theorem State.incEvt_fw (n : RegName) (i k : Nat) : (s.incEvt n i k).fw = s.fw := rfl
@[simp] theorem State.incEvt_shw (n : RegName) (i k : Nat) : (s.incEvt n i k).shw = s.shw := rfl
@[simp] theorem State.incEvt_cross (n : RegName) (i k : Nat) : (s.incEvt n i k).cross = s.cross := rfl
@[simp] theorem State.incEvt_queues (n : RegName) (i k : Nat) : (s.incEvt n i k).queues = s.queues := rfl
@[simp] theorem State.incEvt_sync (n : RegName) (i k : Nat) : (s.incEvt n i k).sync = s.sync := rfl
@[simp] theorem State.incEvt_cores (n : RegName) (i k : Nat) : (s.incEvt n i k).cores = s.cores := rfl
@[simp] theorem State.incEvt_shared (n : RegName) (i k : Nat) : (s.incEvt n i k).shared = s.shared := rfl
@[simp] theorem State.incEvt_comp (n : RegName) (i k : Nat) : (s.incEvt n i k).comp = s.comp := rfl
@[simp] theorem State.incEvt_pool (n : RegName) (i k : Nat) : (s.incEvt n i k).pool = s.pool := rfl

@[simp] theorem State.reach_free (t : Nat) : (s.reach t).free = s.free := rfl
@[simp] theorem State.reach_pending (t : Nat) : (s.reach t).pending = s.pending := rfl
@[simp] theorem State.reach_out (t : Nat) : (s.reach t).out = s.out := rfl
@[simp] theorem State.reach_regs (t : Nat) : (s.reach t).regs = s.regs := rfl
@[simp] theorem State.reach_acc (t : Nat) : (s.reach t).acc = s.acc := rfl
@[simp] theorem State.reach_ev (t : Nat) : (s.reach t).ev = s.ev := rfl
@[simp] theorem State.reach_img (t : Nat) : (s.reach t).img = s.img := rfl
@[simp] theorem State.reach_links (t : Nat) : (s.reach t).links = s.links := rfl
@[simp] theorem State.reach_lds (t : Nat) : (s.reach t).lds = s.lds := rfl
@[simp] theorem State.reach_binding (t : Nat) : (s.reach t).binding = s.binding := rfl
@[simp] theorem State.reach_iso (t : Nat) : (s.reach t).iso = s.iso := rfl
@[simp] theorem State.reach_parts (t : Nat) : (s.reach t).parts = s.parts := rfl
@[simp] theorem State.reach_lens (t : Nat) : (s.reach t).lens = s.lens := rfl
@[simp] theorem State.reach_tier (t : Nat) : (s.reach t).tier = s.tier := rfl
@[simp] theorem State.reach_dram (t : Nat) : (s.reach t).dram = s.dram := rfl
@[simp] theorem State.reach_flash (t : Nat) : (s.reach t).flash = s.flash := rfl
@[simp] theorem State.reach_qos (t : Nat) : (s.reach t).qos = s.qos := rfl
@[simp] theorem State.reach_mir (t : Nat) : (s.reach t).mir = s.mir := rfl
@[simp] theorem State.reach_power (t : Nat) : (s.reach t).power = s.power := rfl
@[simp] theorem State.reach_start (t : Nat) : (s.reach t).start = s.start := rfl
@[simp] theorem State.reach_hup (t : Nat) : (s.reach t).hup = s.hup := rfl
@[simp] theorem State.reach_fw (t : Nat) : (s.reach t).fw = s.fw := rfl
@[simp] theorem State.reach_shw (t : Nat) : (s.reach t).shw = s.shw := rfl
@[simp] theorem State.reach_cross (t : Nat) : (s.reach t).cross = s.cross := rfl
@[simp] theorem State.reach_queues (t : Nat) : (s.reach t).queues = s.queues := rfl
@[simp] theorem State.reach_sync (t : Nat) : (s.reach t).sync = s.sync := rfl
@[simp] theorem State.reach_cores (t : Nat) : (s.reach t).cores = s.cores := rfl
@[simp] theorem State.reach_shared (t : Nat) : (s.reach t).shared = s.shared := rfl
@[simp] theorem State.reach_comp (t : Nat) : (s.reach t).comp = s.comp := rfl
@[simp] theorem State.reach_pool (t : Nat) : (s.reach t).pool = s.pool := rfl

@[simp] theorem State.send_time (o : Output) : (s.send o).time = s.time := rfl
@[simp] theorem State.send_free (o : Output) : (s.send o).free = s.free := rfl
@[simp] theorem State.send_pending (o : Output) : (s.send o).pending = s.pending := rfl
@[simp] theorem State.send_regs (o : Output) : (s.send o).regs = s.regs := rfl
@[simp] theorem State.send_acc (o : Output) : (s.send o).acc = s.acc := rfl
@[simp] theorem State.send_ev (o : Output) : (s.send o).ev = s.ev := rfl
@[simp] theorem State.send_img (o : Output) : (s.send o).img = s.img := rfl
@[simp] theorem State.send_links (o : Output) : (s.send o).links = s.links := rfl
@[simp] theorem State.send_lds (o : Output) : (s.send o).lds = s.lds := rfl
@[simp] theorem State.send_binding (o : Output) : (s.send o).binding = s.binding := rfl
@[simp] theorem State.send_iso (o : Output) : (s.send o).iso = s.iso := rfl
@[simp] theorem State.send_parts (o : Output) : (s.send o).parts = s.parts := rfl
@[simp] theorem State.send_lens (o : Output) : (s.send o).lens = s.lens := rfl
@[simp] theorem State.send_tier (o : Output) : (s.send o).tier = s.tier := rfl
@[simp] theorem State.send_dram (o : Output) : (s.send o).dram = s.dram := rfl
@[simp] theorem State.send_flash (o : Output) : (s.send o).flash = s.flash := rfl
@[simp] theorem State.send_qos (o : Output) : (s.send o).qos = s.qos := rfl
@[simp] theorem State.send_mir (o : Output) : (s.send o).mir = s.mir := rfl
@[simp] theorem State.send_power (o : Output) : (s.send o).power = s.power := rfl
@[simp] theorem State.send_start (o : Output) : (s.send o).start = s.start := rfl
@[simp] theorem State.send_hup (o : Output) : (s.send o).hup = s.hup := rfl
@[simp] theorem State.send_fw (o : Output) : (s.send o).fw = s.fw := rfl
@[simp] theorem State.send_shw (o : Output) : (s.send o).shw = s.shw := rfl
@[simp] theorem State.send_cross (o : Output) : (s.send o).cross = s.cross := rfl
@[simp] theorem State.send_queues (o : Output) : (s.send o).queues = s.queues := rfl
@[simp] theorem State.send_sync (o : Output) : (s.send o).sync = s.sync := rfl
@[simp] theorem State.send_cores (o : Output) : (s.send o).cores = s.cores := rfl
@[simp] theorem State.send_shared (o : Output) : (s.send o).shared = s.shared := rfl
@[simp] theorem State.send_comp (o : Output) : (s.send o).comp = s.comp := rfl
@[simp] theorem State.send_pool (o : Output) : (s.send o).pool = s.pool := rfl

@[simp] theorem State.setLink_time (n : Nat) (l : LinkSt) : (s.setLink n l).time = s.time := rfl
@[simp] theorem State.setLink_free (n : Nat) (l : LinkSt) : (s.setLink n l).free = s.free := rfl
@[simp] theorem State.setLink_pending (n : Nat) (l : LinkSt) : (s.setLink n l).pending = s.pending := rfl
@[simp] theorem State.setLink_out (n : Nat) (l : LinkSt) : (s.setLink n l).out = s.out := rfl
@[simp] theorem State.setLink_regs (n : Nat) (l : LinkSt) : (s.setLink n l).regs = s.regs := rfl
@[simp] theorem State.setLink_acc (n : Nat) (l : LinkSt) : (s.setLink n l).acc = s.acc := rfl
@[simp] theorem State.setLink_ev (n : Nat) (l : LinkSt) : (s.setLink n l).ev = s.ev := rfl
@[simp] theorem State.setLink_img (n : Nat) (l : LinkSt) : (s.setLink n l).img = s.img := rfl
@[simp] theorem State.setLink_lds (n : Nat) (l : LinkSt) : (s.setLink n l).lds = s.lds := rfl
@[simp] theorem State.setLink_binding (n : Nat) (l : LinkSt) : (s.setLink n l).binding = s.binding := rfl
@[simp] theorem State.setLink_iso (n : Nat) (l : LinkSt) : (s.setLink n l).iso = s.iso := rfl
@[simp] theorem State.setLink_parts (n : Nat) (l : LinkSt) : (s.setLink n l).parts = s.parts := rfl
@[simp] theorem State.setLink_lens (n : Nat) (l : LinkSt) : (s.setLink n l).lens = s.lens := rfl
@[simp] theorem State.setLink_tier (n : Nat) (l : LinkSt) : (s.setLink n l).tier = s.tier := rfl
@[simp] theorem State.setLink_dram (n : Nat) (l : LinkSt) : (s.setLink n l).dram = s.dram := rfl
@[simp] theorem State.setLink_flash (n : Nat) (l : LinkSt) : (s.setLink n l).flash = s.flash := rfl
@[simp] theorem State.setLink_qos (n : Nat) (l : LinkSt) : (s.setLink n l).qos = s.qos := rfl
@[simp] theorem State.setLink_mir (n : Nat) (l : LinkSt) : (s.setLink n l).mir = s.mir := rfl
@[simp] theorem State.setLink_power (n : Nat) (l : LinkSt) : (s.setLink n l).power = s.power := rfl
@[simp] theorem State.setLink_start (n : Nat) (l : LinkSt) : (s.setLink n l).start = s.start := rfl
@[simp] theorem State.setLink_hup (n : Nat) (l : LinkSt) : (s.setLink n l).hup = s.hup := rfl
@[simp] theorem State.setLink_fw (n : Nat) (l : LinkSt) : (s.setLink n l).fw = s.fw := rfl
@[simp] theorem State.setLink_shw (n : Nat) (l : LinkSt) : (s.setLink n l).shw = s.shw := rfl
@[simp] theorem State.setLink_cross (n : Nat) (l : LinkSt) : (s.setLink n l).cross = s.cross := rfl
@[simp] theorem State.setLink_queues (n : Nat) (l : LinkSt) : (s.setLink n l).queues = s.queues := rfl
@[simp] theorem State.setLink_sync (n : Nat) (l : LinkSt) : (s.setLink n l).sync = s.sync := rfl
@[simp] theorem State.setLink_cores (n : Nat) (l : LinkSt) : (s.setLink n l).cores = s.cores := rfl
@[simp] theorem State.setLink_shared (n : Nat) (l : LinkSt) : (s.setLink n l).shared = s.shared := rfl
@[simp] theorem State.setLink_comp (n : Nat) (l : LinkSt) : (s.setLink n l).comp = s.comp := rfl
@[simp] theorem State.setLink_pool (n : Nat) (l : LinkSt) : (s.setLink n l).pool = s.pool := rfl

@[simp] theorem State.setLd_time (k d : Nat) (v : LdSt) : (s.setLd k d v).time = s.time := rfl
@[simp] theorem State.setLd_free (k d : Nat) (v : LdSt) : (s.setLd k d v).free = s.free := rfl
@[simp] theorem State.setLd_pending (k d : Nat) (v : LdSt) : (s.setLd k d v).pending = s.pending := rfl
@[simp] theorem State.setLd_out (k d : Nat) (v : LdSt) : (s.setLd k d v).out = s.out := rfl
@[simp] theorem State.setLd_regs (k d : Nat) (v : LdSt) : (s.setLd k d v).regs = s.regs := rfl
@[simp] theorem State.setLd_acc (k d : Nat) (v : LdSt) : (s.setLd k d v).acc = s.acc := rfl
@[simp] theorem State.setLd_ev (k d : Nat) (v : LdSt) : (s.setLd k d v).ev = s.ev := rfl
@[simp] theorem State.setLd_img (k d : Nat) (v : LdSt) : (s.setLd k d v).img = s.img := rfl
@[simp] theorem State.setLd_links (k d : Nat) (v : LdSt) : (s.setLd k d v).links = s.links := rfl
@[simp] theorem State.setLd_binding (k d : Nat) (v : LdSt) : (s.setLd k d v).binding = s.binding := rfl
@[simp] theorem State.setLd_iso (k d : Nat) (v : LdSt) : (s.setLd k d v).iso = s.iso := rfl
@[simp] theorem State.setLd_parts (k d : Nat) (v : LdSt) : (s.setLd k d v).parts = s.parts := rfl
@[simp] theorem State.setLd_lens (k d : Nat) (v : LdSt) : (s.setLd k d v).lens = s.lens := rfl
@[simp] theorem State.setLd_tier (k d : Nat) (v : LdSt) : (s.setLd k d v).tier = s.tier := rfl
@[simp] theorem State.setLd_dram (k d : Nat) (v : LdSt) : (s.setLd k d v).dram = s.dram := rfl
@[simp] theorem State.setLd_flash (k d : Nat) (v : LdSt) : (s.setLd k d v).flash = s.flash := rfl
@[simp] theorem State.setLd_qos (k d : Nat) (v : LdSt) : (s.setLd k d v).qos = s.qos := rfl
@[simp] theorem State.setLd_mir (k d : Nat) (v : LdSt) : (s.setLd k d v).mir = s.mir := rfl
@[simp] theorem State.setLd_power (k d : Nat) (v : LdSt) : (s.setLd k d v).power = s.power := rfl
@[simp] theorem State.setLd_start (k d : Nat) (v : LdSt) : (s.setLd k d v).start = s.start := rfl
@[simp] theorem State.setLd_hup (k d : Nat) (v : LdSt) : (s.setLd k d v).hup = s.hup := rfl
@[simp] theorem State.setLd_fw (k d : Nat) (v : LdSt) : (s.setLd k d v).fw = s.fw := rfl
@[simp] theorem State.setLd_shw (k d : Nat) (v : LdSt) : (s.setLd k d v).shw = s.shw := rfl
@[simp] theorem State.setLd_cross (k d : Nat) (v : LdSt) : (s.setLd k d v).cross = s.cross := rfl
@[simp] theorem State.setLd_queues (k d : Nat) (v : LdSt) : (s.setLd k d v).queues = s.queues := rfl
@[simp] theorem State.setLd_sync (k d : Nat) (v : LdSt) : (s.setLd k d v).sync = s.sync := rfl
@[simp] theorem State.setLd_cores (k d : Nat) (v : LdSt) : (s.setLd k d v).cores = s.cores := rfl
@[simp] theorem State.setLd_shared (k d : Nat) (v : LdSt) : (s.setLd k d v).shared = s.shared := rfl
@[simp] theorem State.setLd_comp (k d : Nat) (v : LdSt) : (s.setLd k d v).comp = s.comp := rfl
@[simp] theorem State.setLd_pool (k d : Nat) (v : LdSt) : (s.setLd k d v).pool = s.pool := rfl

@[simp] theorem State.setPart_time (p : Nat) (v : PartSt) : (s.setPart p v).time = s.time := rfl
@[simp] theorem State.setPart_free (p : Nat) (v : PartSt) : (s.setPart p v).free = s.free := rfl
@[simp] theorem State.setPart_pending (p : Nat) (v : PartSt) : (s.setPart p v).pending = s.pending := rfl
@[simp] theorem State.setPart_out (p : Nat) (v : PartSt) : (s.setPart p v).out = s.out := rfl
@[simp] theorem State.setPart_regs (p : Nat) (v : PartSt) : (s.setPart p v).regs = s.regs := rfl
@[simp] theorem State.setPart_acc (p : Nat) (v : PartSt) : (s.setPart p v).acc = s.acc := rfl
@[simp] theorem State.setPart_ev (p : Nat) (v : PartSt) : (s.setPart p v).ev = s.ev := rfl
@[simp] theorem State.setPart_img (p : Nat) (v : PartSt) : (s.setPart p v).img = s.img := rfl
@[simp] theorem State.setPart_links (p : Nat) (v : PartSt) : (s.setPart p v).links = s.links := rfl
@[simp] theorem State.setPart_lds (p : Nat) (v : PartSt) : (s.setPart p v).lds = s.lds := rfl
@[simp] theorem State.setPart_binding (p : Nat) (v : PartSt) : (s.setPart p v).binding = s.binding := rfl
@[simp] theorem State.setPart_iso (p : Nat) (v : PartSt) : (s.setPart p v).iso = s.iso := rfl
@[simp] theorem State.setPart_lens (p : Nat) (v : PartSt) : (s.setPart p v).lens = s.lens := rfl
@[simp] theorem State.setPart_tier (p : Nat) (v : PartSt) : (s.setPart p v).tier = s.tier := rfl
@[simp] theorem State.setPart_dram (p : Nat) (v : PartSt) : (s.setPart p v).dram = s.dram := rfl
@[simp] theorem State.setPart_flash (p : Nat) (v : PartSt) : (s.setPart p v).flash = s.flash := rfl
@[simp] theorem State.setPart_qos (p : Nat) (v : PartSt) : (s.setPart p v).qos = s.qos := rfl
@[simp] theorem State.setPart_mir (p : Nat) (v : PartSt) : (s.setPart p v).mir = s.mir := rfl
@[simp] theorem State.setPart_power (p : Nat) (v : PartSt) : (s.setPart p v).power = s.power := rfl
@[simp] theorem State.setPart_start (p : Nat) (v : PartSt) : (s.setPart p v).start = s.start := rfl
@[simp] theorem State.setPart_hup (p : Nat) (v : PartSt) : (s.setPart p v).hup = s.hup := rfl
@[simp] theorem State.setPart_fw (p : Nat) (v : PartSt) : (s.setPart p v).fw = s.fw := rfl
@[simp] theorem State.setPart_shw (p : Nat) (v : PartSt) : (s.setPart p v).shw = s.shw := rfl
@[simp] theorem State.setPart_cross (p : Nat) (v : PartSt) : (s.setPart p v).cross = s.cross := rfl
@[simp] theorem State.setPart_queues (p : Nat) (v : PartSt) : (s.setPart p v).queues = s.queues := rfl
@[simp] theorem State.setPart_sync (p : Nat) (v : PartSt) : (s.setPart p v).sync = s.sync := rfl
@[simp] theorem State.setPart_cores (p : Nat) (v : PartSt) : (s.setPart p v).cores = s.cores := rfl
@[simp] theorem State.setPart_shared (p : Nat) (v : PartSt) : (s.setPart p v).shared = s.shared := rfl
@[simp] theorem State.setPart_comp (p : Nat) (v : PartSt) : (s.setPart p v).comp = s.comp := rfl
@[simp] theorem State.setPart_pool (p : Nat) (v : PartSt) : (s.setPart p v).pool = s.pool := rfl

@[simp] theorem State.setMirPart_time (p : Nat) (v : MirPart) : (s.setMirPart p v).time = s.time := rfl
@[simp] theorem State.setMirPart_free (p : Nat) (v : MirPart) : (s.setMirPart p v).free = s.free := rfl
@[simp] theorem State.setMirPart_pending (p : Nat) (v : MirPart) : (s.setMirPart p v).pending = s.pending := rfl
@[simp] theorem State.setMirPart_out (p : Nat) (v : MirPart) : (s.setMirPart p v).out = s.out := rfl
@[simp] theorem State.setMirPart_regs (p : Nat) (v : MirPart) : (s.setMirPart p v).regs = s.regs := rfl
@[simp] theorem State.setMirPart_acc (p : Nat) (v : MirPart) : (s.setMirPart p v).acc = s.acc := rfl
@[simp] theorem State.setMirPart_ev (p : Nat) (v : MirPart) : (s.setMirPart p v).ev = s.ev := rfl
@[simp] theorem State.setMirPart_img (p : Nat) (v : MirPart) : (s.setMirPart p v).img = s.img := rfl
@[simp] theorem State.setMirPart_links (p : Nat) (v : MirPart) : (s.setMirPart p v).links = s.links := rfl
@[simp] theorem State.setMirPart_lds (p : Nat) (v : MirPart) : (s.setMirPart p v).lds = s.lds := rfl
@[simp] theorem State.setMirPart_binding (p : Nat) (v : MirPart) : (s.setMirPart p v).binding = s.binding := rfl
@[simp] theorem State.setMirPart_iso (p : Nat) (v : MirPart) : (s.setMirPart p v).iso = s.iso := rfl
@[simp] theorem State.setMirPart_parts (p : Nat) (v : MirPart) : (s.setMirPart p v).parts = s.parts := rfl
@[simp] theorem State.setMirPart_lens (p : Nat) (v : MirPart) : (s.setMirPart p v).lens = s.lens := rfl
@[simp] theorem State.setMirPart_tier (p : Nat) (v : MirPart) : (s.setMirPart p v).tier = s.tier := rfl
@[simp] theorem State.setMirPart_dram (p : Nat) (v : MirPart) : (s.setMirPart p v).dram = s.dram := rfl
@[simp] theorem State.setMirPart_flash (p : Nat) (v : MirPart) : (s.setMirPart p v).flash = s.flash := rfl
@[simp] theorem State.setMirPart_qos (p : Nat) (v : MirPart) : (s.setMirPart p v).qos = s.qos := rfl
@[simp] theorem State.setMirPart_power (p : Nat) (v : MirPart) : (s.setMirPart p v).power = s.power := rfl
@[simp] theorem State.setMirPart_start (p : Nat) (v : MirPart) : (s.setMirPart p v).start = s.start := rfl
@[simp] theorem State.setMirPart_hup (p : Nat) (v : MirPart) : (s.setMirPart p v).hup = s.hup := rfl
@[simp] theorem State.setMirPart_fw (p : Nat) (v : MirPart) : (s.setMirPart p v).fw = s.fw := rfl
@[simp] theorem State.setMirPart_shw (p : Nat) (v : MirPart) : (s.setMirPart p v).shw = s.shw := rfl
@[simp] theorem State.setMirPart_cross (p : Nat) (v : MirPart) : (s.setMirPart p v).cross = s.cross := rfl
@[simp] theorem State.setMirPart_queues (p : Nat) (v : MirPart) : (s.setMirPart p v).queues = s.queues := rfl
@[simp] theorem State.setMirPart_sync (p : Nat) (v : MirPart) : (s.setMirPart p v).sync = s.sync := rfl
@[simp] theorem State.setMirPart_cores (p : Nat) (v : MirPart) : (s.setMirPart p v).cores = s.cores := rfl
@[simp] theorem State.setMirPart_shared (p : Nat) (v : MirPart) : (s.setMirPart p v).shared = s.shared := rfl
@[simp] theorem State.setMirPart_comp (p : Nat) (v : MirPart) : (s.setMirPart p v).comp = s.comp := rfl
@[simp] theorem State.setMirPart_pool (p : Nat) (v : MirPart) : (s.setMirPart p v).pool = s.pool := rfl

@[simp] theorem State.setFrame_time (p f : Nat) (v : FrameSt) : (s.setFrame p f v).time = s.time := rfl
@[simp] theorem State.setFrame_free (p f : Nat) (v : FrameSt) : (s.setFrame p f v).free = s.free := rfl
@[simp] theorem State.setFrame_pending (p f : Nat) (v : FrameSt) : (s.setFrame p f v).pending = s.pending := rfl
@[simp] theorem State.setFrame_out (p f : Nat) (v : FrameSt) : (s.setFrame p f v).out = s.out := rfl
@[simp] theorem State.setFrame_regs (p f : Nat) (v : FrameSt) : (s.setFrame p f v).regs = s.regs := rfl
@[simp] theorem State.setFrame_acc (p f : Nat) (v : FrameSt) : (s.setFrame p f v).acc = s.acc := rfl
@[simp] theorem State.setFrame_ev (p f : Nat) (v : FrameSt) : (s.setFrame p f v).ev = s.ev := rfl
@[simp] theorem State.setFrame_img (p f : Nat) (v : FrameSt) : (s.setFrame p f v).img = s.img := rfl
@[simp] theorem State.setFrame_links (p f : Nat) (v : FrameSt) : (s.setFrame p f v).links = s.links := rfl
@[simp] theorem State.setFrame_lds (p f : Nat) (v : FrameSt) : (s.setFrame p f v).lds = s.lds := rfl
@[simp] theorem State.setFrame_binding (p f : Nat) (v : FrameSt) : (s.setFrame p f v).binding = s.binding := rfl
@[simp] theorem State.setFrame_iso (p f : Nat) (v : FrameSt) : (s.setFrame p f v).iso = s.iso := rfl
@[simp] theorem State.setFrame_parts (p f : Nat) (v : FrameSt) : (s.setFrame p f v).parts = s.parts := rfl
@[simp] theorem State.setFrame_lens (p f : Nat) (v : FrameSt) : (s.setFrame p f v).lens = s.lens := rfl
@[simp] theorem State.setFrame_dram (p f : Nat) (v : FrameSt) : (s.setFrame p f v).dram = s.dram := rfl
@[simp] theorem State.setFrame_flash (p f : Nat) (v : FrameSt) : (s.setFrame p f v).flash = s.flash := rfl
@[simp] theorem State.setFrame_qos (p f : Nat) (v : FrameSt) : (s.setFrame p f v).qos = s.qos := rfl
@[simp] theorem State.setFrame_mir (p f : Nat) (v : FrameSt) : (s.setFrame p f v).mir = s.mir := rfl
@[simp] theorem State.setFrame_power (p f : Nat) (v : FrameSt) : (s.setFrame p f v).power = s.power := rfl
@[simp] theorem State.setFrame_start (p f : Nat) (v : FrameSt) : (s.setFrame p f v).start = s.start := rfl
@[simp] theorem State.setFrame_hup (p f : Nat) (v : FrameSt) : (s.setFrame p f v).hup = s.hup := rfl
@[simp] theorem State.setFrame_fw (p f : Nat) (v : FrameSt) : (s.setFrame p f v).fw = s.fw := rfl
@[simp] theorem State.setFrame_shw (p f : Nat) (v : FrameSt) : (s.setFrame p f v).shw = s.shw := rfl
@[simp] theorem State.setFrame_cross (p f : Nat) (v : FrameSt) : (s.setFrame p f v).cross = s.cross := rfl
@[simp] theorem State.setFrame_queues (p f : Nat) (v : FrameSt) : (s.setFrame p f v).queues = s.queues := rfl
@[simp] theorem State.setFrame_sync (p f : Nat) (v : FrameSt) : (s.setFrame p f v).sync = s.sync := rfl
@[simp] theorem State.setFrame_cores (p f : Nat) (v : FrameSt) : (s.setFrame p f v).cores = s.cores := rfl
@[simp] theorem State.setFrame_shared (p f : Nat) (v : FrameSt) : (s.setFrame p f v).shared = s.shared := rfl
@[simp] theorem State.setFrame_comp (p f : Nat) (v : FrameSt) : (s.setFrame p f v).comp = s.comp := rfl
@[simp] theorem State.setFrame_pool (p f : Nat) (v : FrameSt) : (s.setFrame p f v).pool = s.pool := rfl

@[simp] theorem State.setPoolPage_time (p page : Nat) (v : Page) : (s.setPoolPage p page v).time = s.time := rfl
@[simp] theorem State.setPoolPage_free (p page : Nat) (v : Page) : (s.setPoolPage p page v).free = s.free := rfl
@[simp] theorem State.setPoolPage_pending (p page : Nat) (v : Page) : (s.setPoolPage p page v).pending = s.pending := rfl
@[simp] theorem State.setPoolPage_out (p page : Nat) (v : Page) : (s.setPoolPage p page v).out = s.out := rfl
@[simp] theorem State.setPoolPage_regs (p page : Nat) (v : Page) : (s.setPoolPage p page v).regs = s.regs := rfl
@[simp] theorem State.setPoolPage_acc (p page : Nat) (v : Page) : (s.setPoolPage p page v).acc = s.acc := rfl
@[simp] theorem State.setPoolPage_ev (p page : Nat) (v : Page) : (s.setPoolPage p page v).ev = s.ev := rfl
@[simp] theorem State.setPoolPage_img (p page : Nat) (v : Page) : (s.setPoolPage p page v).img = s.img := rfl
@[simp] theorem State.setPoolPage_links (p page : Nat) (v : Page) : (s.setPoolPage p page v).links = s.links := rfl
@[simp] theorem State.setPoolPage_lds (p page : Nat) (v : Page) : (s.setPoolPage p page v).lds = s.lds := rfl
@[simp] theorem State.setPoolPage_binding (p page : Nat) (v : Page) : (s.setPoolPage p page v).binding = s.binding := rfl
@[simp] theorem State.setPoolPage_iso (p page : Nat) (v : Page) : (s.setPoolPage p page v).iso = s.iso := rfl
@[simp] theorem State.setPoolPage_parts (p page : Nat) (v : Page) : (s.setPoolPage p page v).parts = s.parts := rfl
@[simp] theorem State.setPoolPage_lens (p page : Nat) (v : Page) : (s.setPoolPage p page v).lens = s.lens := rfl
@[simp] theorem State.setPoolPage_tier (p page : Nat) (v : Page) : (s.setPoolPage p page v).tier = s.tier := rfl
@[simp] theorem State.setPoolPage_dram (p page : Nat) (v : Page) : (s.setPoolPage p page v).dram = s.dram := rfl
@[simp] theorem State.setPoolPage_flash (p page : Nat) (v : Page) : (s.setPoolPage p page v).flash = s.flash := rfl
@[simp] theorem State.setPoolPage_qos (p page : Nat) (v : Page) : (s.setPoolPage p page v).qos = s.qos := rfl
@[simp] theorem State.setPoolPage_mir (p page : Nat) (v : Page) : (s.setPoolPage p page v).mir = s.mir := rfl
@[simp] theorem State.setPoolPage_power (p page : Nat) (v : Page) : (s.setPoolPage p page v).power = s.power := rfl
@[simp] theorem State.setPoolPage_start (p page : Nat) (v : Page) : (s.setPoolPage p page v).start = s.start := rfl
@[simp] theorem State.setPoolPage_hup (p page : Nat) (v : Page) : (s.setPoolPage p page v).hup = s.hup := rfl
@[simp] theorem State.setPoolPage_fw (p page : Nat) (v : Page) : (s.setPoolPage p page v).fw = s.fw := rfl
@[simp] theorem State.setPoolPage_shw (p page : Nat) (v : Page) : (s.setPoolPage p page v).shw = s.shw := rfl
@[simp] theorem State.setPoolPage_cross (p page : Nat) (v : Page) : (s.setPoolPage p page v).cross = s.cross := rfl
@[simp] theorem State.setPoolPage_queues (p page : Nat) (v : Page) : (s.setPoolPage p page v).queues = s.queues := rfl
@[simp] theorem State.setPoolPage_sync (p page : Nat) (v : Page) : (s.setPoolPage p page v).sync = s.sync := rfl
@[simp] theorem State.setPoolPage_cores (p page : Nat) (v : Page) : (s.setPoolPage p page v).cores = s.cores := rfl
@[simp] theorem State.setPoolPage_shared (p page : Nat) (v : Page) : (s.setPoolPage p page v).shared = s.shared := rfl
@[simp] theorem State.setPoolPage_comp (p page : Nat) (v : Page) : (s.setPoolPage p page v).comp = s.comp := rfl

@[simp] theorem State.setSlot_time (v : SlotSt) : (s.setSlot v).time = s.time := rfl
@[simp] theorem State.setSlot_free (v : SlotSt) : (s.setSlot v).free = s.free := rfl
@[simp] theorem State.setSlot_pending (v : SlotSt) : (s.setSlot v).pending = s.pending := rfl
@[simp] theorem State.setSlot_out (v : SlotSt) : (s.setSlot v).out = s.out := rfl
@[simp] theorem State.setSlot_regs (v : SlotSt) : (s.setSlot v).regs = s.regs := rfl
@[simp] theorem State.setSlot_acc (v : SlotSt) : (s.setSlot v).acc = s.acc := rfl
@[simp] theorem State.setSlot_ev (v : SlotSt) : (s.setSlot v).ev = s.ev := rfl
@[simp] theorem State.setSlot_img (v : SlotSt) : (s.setSlot v).img = s.img := rfl
@[simp] theorem State.setSlot_links (v : SlotSt) : (s.setSlot v).links = s.links := rfl
@[simp] theorem State.setSlot_lds (v : SlotSt) : (s.setSlot v).lds = s.lds := rfl
@[simp] theorem State.setSlot_binding (v : SlotSt) : (s.setSlot v).binding = s.binding := rfl
@[simp] theorem State.setSlot_iso (v : SlotSt) : (s.setSlot v).iso = s.iso := rfl
@[simp] theorem State.setSlot_parts (v : SlotSt) : (s.setSlot v).parts = s.parts := rfl
@[simp] theorem State.setSlot_tier (v : SlotSt) : (s.setSlot v).tier = s.tier := rfl
@[simp] theorem State.setSlot_dram (v : SlotSt) : (s.setSlot v).dram = s.dram := rfl
@[simp] theorem State.setSlot_flash (v : SlotSt) : (s.setSlot v).flash = s.flash := rfl
@[simp] theorem State.setSlot_qos (v : SlotSt) : (s.setSlot v).qos = s.qos := rfl
@[simp] theorem State.setSlot_mir (v : SlotSt) : (s.setSlot v).mir = s.mir := rfl
@[simp] theorem State.setSlot_power (v : SlotSt) : (s.setSlot v).power = s.power := rfl
@[simp] theorem State.setSlot_start (v : SlotSt) : (s.setSlot v).start = s.start := rfl
@[simp] theorem State.setSlot_hup (v : SlotSt) : (s.setSlot v).hup = s.hup := rfl
@[simp] theorem State.setSlot_fw (v : SlotSt) : (s.setSlot v).fw = s.fw := rfl
@[simp] theorem State.setSlot_shw (v : SlotSt) : (s.setSlot v).shw = s.shw := rfl
@[simp] theorem State.setSlot_cross (v : SlotSt) : (s.setSlot v).cross = s.cross := rfl
@[simp] theorem State.setSlot_queues (v : SlotSt) : (s.setSlot v).queues = s.queues := rfl
@[simp] theorem State.setSlot_sync (v : SlotSt) : (s.setSlot v).sync = s.sync := rfl
@[simp] theorem State.setSlot_cores (v : SlotSt) : (s.setSlot v).cores = s.cores := rfl
@[simp] theorem State.setSlot_shared (v : SlotSt) : (s.setSlot v).shared = s.shared := rfl
@[simp] theorem State.setSlot_comp (v : SlotSt) : (s.setSlot v).comp = s.comp := rfl
@[simp] theorem State.setSlot_pool (v : SlotSt) : (s.setSlot v).pool = s.pool := rfl

@[simp] theorem State.setBay_time (b : Nat) (v : BaySt) : (s.setBay b v).time = s.time := rfl
@[simp] theorem State.setBay_free (b : Nat) (v : BaySt) : (s.setBay b v).free = s.free := rfl
@[simp] theorem State.setBay_pending (b : Nat) (v : BaySt) : (s.setBay b v).pending = s.pending := rfl
@[simp] theorem State.setBay_out (b : Nat) (v : BaySt) : (s.setBay b v).out = s.out := rfl
@[simp] theorem State.setBay_regs (b : Nat) (v : BaySt) : (s.setBay b v).regs = s.regs := rfl
@[simp] theorem State.setBay_acc (b : Nat) (v : BaySt) : (s.setBay b v).acc = s.acc := rfl
@[simp] theorem State.setBay_ev (b : Nat) (v : BaySt) : (s.setBay b v).ev = s.ev := rfl
@[simp] theorem State.setBay_img (b : Nat) (v : BaySt) : (s.setBay b v).img = s.img := rfl
@[simp] theorem State.setBay_links (b : Nat) (v : BaySt) : (s.setBay b v).links = s.links := rfl
@[simp] theorem State.setBay_lds (b : Nat) (v : BaySt) : (s.setBay b v).lds = s.lds := rfl
@[simp] theorem State.setBay_binding (b : Nat) (v : BaySt) : (s.setBay b v).binding = s.binding := rfl
@[simp] theorem State.setBay_iso (b : Nat) (v : BaySt) : (s.setBay b v).iso = s.iso := rfl
@[simp] theorem State.setBay_parts (b : Nat) (v : BaySt) : (s.setBay b v).parts = s.parts := rfl
@[simp] theorem State.setBay_lens (b : Nat) (v : BaySt) : (s.setBay b v).lens = s.lens := rfl
@[simp] theorem State.setBay_tier (b : Nat) (v : BaySt) : (s.setBay b v).tier = s.tier := rfl
@[simp] theorem State.setBay_dram (b : Nat) (v : BaySt) : (s.setBay b v).dram = s.dram := rfl
@[simp] theorem State.setBay_qos (b : Nat) (v : BaySt) : (s.setBay b v).qos = s.qos := rfl
@[simp] theorem State.setBay_mir (b : Nat) (v : BaySt) : (s.setBay b v).mir = s.mir := rfl
@[simp] theorem State.setBay_power (b : Nat) (v : BaySt) : (s.setBay b v).power = s.power := rfl
@[simp] theorem State.setBay_start (b : Nat) (v : BaySt) : (s.setBay b v).start = s.start := rfl
@[simp] theorem State.setBay_hup (b : Nat) (v : BaySt) : (s.setBay b v).hup = s.hup := rfl
@[simp] theorem State.setBay_fw (b : Nat) (v : BaySt) : (s.setBay b v).fw = s.fw := rfl
@[simp] theorem State.setBay_shw (b : Nat) (v : BaySt) : (s.setBay b v).shw = s.shw := rfl
@[simp] theorem State.setBay_cross (b : Nat) (v : BaySt) : (s.setBay b v).cross = s.cross := rfl
@[simp] theorem State.setBay_queues (b : Nat) (v : BaySt) : (s.setBay b v).queues = s.queues := rfl
@[simp] theorem State.setBay_sync (b : Nat) (v : BaySt) : (s.setBay b v).sync = s.sync := rfl
@[simp] theorem State.setBay_cores (b : Nat) (v : BaySt) : (s.setBay b v).cores = s.cores := rfl
@[simp] theorem State.setBay_shared (b : Nat) (v : BaySt) : (s.setBay b v).shared = s.shared := rfl
@[simp] theorem State.setBay_comp (b : Nat) (v : BaySt) : (s.setBay b v).comp = s.comp := rfl
@[simp] theorem State.setBay_pool (b : Nat) (v : BaySt) : (s.setBay b v).pool = s.pool := rfl

@[simp] theorem State.setQueue_time (q : Nat) (v : QueueSt) : (s.setQueue q v).time = s.time := rfl
@[simp] theorem State.setQueue_free (q : Nat) (v : QueueSt) : (s.setQueue q v).free = s.free := rfl
@[simp] theorem State.setQueue_pending (q : Nat) (v : QueueSt) : (s.setQueue q v).pending = s.pending := rfl
@[simp] theorem State.setQueue_out (q : Nat) (v : QueueSt) : (s.setQueue q v).out = s.out := rfl
@[simp] theorem State.setQueue_regs (q : Nat) (v : QueueSt) : (s.setQueue q v).regs = s.regs := rfl
@[simp] theorem State.setQueue_acc (q : Nat) (v : QueueSt) : (s.setQueue q v).acc = s.acc := rfl
@[simp] theorem State.setQueue_ev (q : Nat) (v : QueueSt) : (s.setQueue q v).ev = s.ev := rfl
@[simp] theorem State.setQueue_img (q : Nat) (v : QueueSt) : (s.setQueue q v).img = s.img := rfl
@[simp] theorem State.setQueue_links (q : Nat) (v : QueueSt) : (s.setQueue q v).links = s.links := rfl
@[simp] theorem State.setQueue_lds (q : Nat) (v : QueueSt) : (s.setQueue q v).lds = s.lds := rfl
@[simp] theorem State.setQueue_binding (q : Nat) (v : QueueSt) : (s.setQueue q v).binding = s.binding := rfl
@[simp] theorem State.setQueue_iso (q : Nat) (v : QueueSt) : (s.setQueue q v).iso = s.iso := rfl
@[simp] theorem State.setQueue_parts (q : Nat) (v : QueueSt) : (s.setQueue q v).parts = s.parts := rfl
@[simp] theorem State.setQueue_lens (q : Nat) (v : QueueSt) : (s.setQueue q v).lens = s.lens := rfl
@[simp] theorem State.setQueue_tier (q : Nat) (v : QueueSt) : (s.setQueue q v).tier = s.tier := rfl
@[simp] theorem State.setQueue_dram (q : Nat) (v : QueueSt) : (s.setQueue q v).dram = s.dram := rfl
@[simp] theorem State.setQueue_flash (q : Nat) (v : QueueSt) : (s.setQueue q v).flash = s.flash := rfl
@[simp] theorem State.setQueue_qos (q : Nat) (v : QueueSt) : (s.setQueue q v).qos = s.qos := rfl
@[simp] theorem State.setQueue_mir (q : Nat) (v : QueueSt) : (s.setQueue q v).mir = s.mir := rfl
@[simp] theorem State.setQueue_power (q : Nat) (v : QueueSt) : (s.setQueue q v).power = s.power := rfl
@[simp] theorem State.setQueue_start (q : Nat) (v : QueueSt) : (s.setQueue q v).start = s.start := rfl
@[simp] theorem State.setQueue_hup (q : Nat) (v : QueueSt) : (s.setQueue q v).hup = s.hup := rfl
@[simp] theorem State.setQueue_fw (q : Nat) (v : QueueSt) : (s.setQueue q v).fw = s.fw := rfl
@[simp] theorem State.setQueue_shw (q : Nat) (v : QueueSt) : (s.setQueue q v).shw = s.shw := rfl
@[simp] theorem State.setQueue_cross (q : Nat) (v : QueueSt) : (s.setQueue q v).cross = s.cross := rfl
@[simp] theorem State.setQueue_sync (q : Nat) (v : QueueSt) : (s.setQueue q v).sync = s.sync := rfl
@[simp] theorem State.setQueue_cores (q : Nat) (v : QueueSt) : (s.setQueue q v).cores = s.cores := rfl
@[simp] theorem State.setQueue_shared (q : Nat) (v : QueueSt) : (s.setQueue q v).shared = s.shared := rfl
@[simp] theorem State.setQueue_comp (q : Nat) (v : QueueSt) : (s.setQueue q v).comp = s.comp := rfl
@[simp] theorem State.setQueue_pool (q : Nat) (v : QueueSt) : (s.setQueue q v).pool = s.pool := rfl

@[simp] theorem State.setCore_time (c : Nat) (v : CoreSt) : (s.setCore c v).time = s.time := rfl
@[simp] theorem State.setCore_free (c : Nat) (v : CoreSt) : (s.setCore c v).free = s.free := rfl
@[simp] theorem State.setCore_pending (c : Nat) (v : CoreSt) : (s.setCore c v).pending = s.pending := rfl
@[simp] theorem State.setCore_out (c : Nat) (v : CoreSt) : (s.setCore c v).out = s.out := rfl
@[simp] theorem State.setCore_regs (c : Nat) (v : CoreSt) : (s.setCore c v).regs = s.regs := rfl
@[simp] theorem State.setCore_acc (c : Nat) (v : CoreSt) : (s.setCore c v).acc = s.acc := rfl
@[simp] theorem State.setCore_ev (c : Nat) (v : CoreSt) : (s.setCore c v).ev = s.ev := rfl
@[simp] theorem State.setCore_img (c : Nat) (v : CoreSt) : (s.setCore c v).img = s.img := rfl
@[simp] theorem State.setCore_links (c : Nat) (v : CoreSt) : (s.setCore c v).links = s.links := rfl
@[simp] theorem State.setCore_lds (c : Nat) (v : CoreSt) : (s.setCore c v).lds = s.lds := rfl
@[simp] theorem State.setCore_binding (c : Nat) (v : CoreSt) : (s.setCore c v).binding = s.binding := rfl
@[simp] theorem State.setCore_iso (c : Nat) (v : CoreSt) : (s.setCore c v).iso = s.iso := rfl
@[simp] theorem State.setCore_parts (c : Nat) (v : CoreSt) : (s.setCore c v).parts = s.parts := rfl
@[simp] theorem State.setCore_lens (c : Nat) (v : CoreSt) : (s.setCore c v).lens = s.lens := rfl
@[simp] theorem State.setCore_tier (c : Nat) (v : CoreSt) : (s.setCore c v).tier = s.tier := rfl
@[simp] theorem State.setCore_dram (c : Nat) (v : CoreSt) : (s.setCore c v).dram = s.dram := rfl
@[simp] theorem State.setCore_flash (c : Nat) (v : CoreSt) : (s.setCore c v).flash = s.flash := rfl
@[simp] theorem State.setCore_qos (c : Nat) (v : CoreSt) : (s.setCore c v).qos = s.qos := rfl
@[simp] theorem State.setCore_mir (c : Nat) (v : CoreSt) : (s.setCore c v).mir = s.mir := rfl
@[simp] theorem State.setCore_power (c : Nat) (v : CoreSt) : (s.setCore c v).power = s.power := rfl
@[simp] theorem State.setCore_start (c : Nat) (v : CoreSt) : (s.setCore c v).start = s.start := rfl
@[simp] theorem State.setCore_hup (c : Nat) (v : CoreSt) : (s.setCore c v).hup = s.hup := rfl
@[simp] theorem State.setCore_fw (c : Nat) (v : CoreSt) : (s.setCore c v).fw = s.fw := rfl
@[simp] theorem State.setCore_shw (c : Nat) (v : CoreSt) : (s.setCore c v).shw = s.shw := rfl
@[simp] theorem State.setCore_cross (c : Nat) (v : CoreSt) : (s.setCore c v).cross = s.cross := rfl
@[simp] theorem State.setCore_queues (c : Nat) (v : CoreSt) : (s.setCore c v).queues = s.queues := rfl
@[simp] theorem State.setCore_sync (c : Nat) (v : CoreSt) : (s.setCore c v).sync = s.sync := rfl
@[simp] theorem State.setCore_shared (c : Nat) (v : CoreSt) : (s.setCore c v).shared = s.shared := rfl
@[simp] theorem State.setCore_comp (c : Nat) (v : CoreSt) : (s.setCore c v).comp = s.comp := rfl
@[simp] theorem State.setCore_pool (c : Nat) (v : CoreSt) : (s.setCore c v).pool = s.pool := rfl

@[simp] theorem State.setObj_time (k : Nat) (v : SyncObj) : (s.setObj k v).time = s.time := rfl
@[simp] theorem State.setObj_free (k : Nat) (v : SyncObj) : (s.setObj k v).free = s.free := rfl
@[simp] theorem State.setObj_pending (k : Nat) (v : SyncObj) : (s.setObj k v).pending = s.pending := rfl
@[simp] theorem State.setObj_out (k : Nat) (v : SyncObj) : (s.setObj k v).out = s.out := rfl
@[simp] theorem State.setObj_regs (k : Nat) (v : SyncObj) : (s.setObj k v).regs = s.regs := rfl
@[simp] theorem State.setObj_acc (k : Nat) (v : SyncObj) : (s.setObj k v).acc = s.acc := rfl
@[simp] theorem State.setObj_ev (k : Nat) (v : SyncObj) : (s.setObj k v).ev = s.ev := rfl
@[simp] theorem State.setObj_img (k : Nat) (v : SyncObj) : (s.setObj k v).img = s.img := rfl
@[simp] theorem State.setObj_links (k : Nat) (v : SyncObj) : (s.setObj k v).links = s.links := rfl
@[simp] theorem State.setObj_lds (k : Nat) (v : SyncObj) : (s.setObj k v).lds = s.lds := rfl
@[simp] theorem State.setObj_binding (k : Nat) (v : SyncObj) : (s.setObj k v).binding = s.binding := rfl
@[simp] theorem State.setObj_iso (k : Nat) (v : SyncObj) : (s.setObj k v).iso = s.iso := rfl
@[simp] theorem State.setObj_parts (k : Nat) (v : SyncObj) : (s.setObj k v).parts = s.parts := rfl
@[simp] theorem State.setObj_lens (k : Nat) (v : SyncObj) : (s.setObj k v).lens = s.lens := rfl
@[simp] theorem State.setObj_tier (k : Nat) (v : SyncObj) : (s.setObj k v).tier = s.tier := rfl
@[simp] theorem State.setObj_dram (k : Nat) (v : SyncObj) : (s.setObj k v).dram = s.dram := rfl
@[simp] theorem State.setObj_flash (k : Nat) (v : SyncObj) : (s.setObj k v).flash = s.flash := rfl
@[simp] theorem State.setObj_qos (k : Nat) (v : SyncObj) : (s.setObj k v).qos = s.qos := rfl
@[simp] theorem State.setObj_mir (k : Nat) (v : SyncObj) : (s.setObj k v).mir = s.mir := rfl
@[simp] theorem State.setObj_power (k : Nat) (v : SyncObj) : (s.setObj k v).power = s.power := rfl
@[simp] theorem State.setObj_start (k : Nat) (v : SyncObj) : (s.setObj k v).start = s.start := rfl
@[simp] theorem State.setObj_hup (k : Nat) (v : SyncObj) : (s.setObj k v).hup = s.hup := rfl
@[simp] theorem State.setObj_fw (k : Nat) (v : SyncObj) : (s.setObj k v).fw = s.fw := rfl
@[simp] theorem State.setObj_shw (k : Nat) (v : SyncObj) : (s.setObj k v).shw = s.shw := rfl
@[simp] theorem State.setObj_cross (k : Nat) (v : SyncObj) : (s.setObj k v).cross = s.cross := rfl
@[simp] theorem State.setObj_queues (k : Nat) (v : SyncObj) : (s.setObj k v).queues = s.queues := rfl
@[simp] theorem State.setObj_cores (k : Nat) (v : SyncObj) : (s.setObj k v).cores = s.cores := rfl
@[simp] theorem State.setObj_shared (k : Nat) (v : SyncObj) : (s.setObj k v).shared = s.shared := rfl
@[simp] theorem State.setObj_comp (k : Nat) (v : SyncObj) : (s.setObj k v).comp = s.comp := rfl
@[simp] theorem State.setObj_pool (k : Nat) (v : SyncObj) : (s.setObj k v).pool = s.pool := rfl

@[simp] theorem State.setDesc_time (q : Nat) (d : DescSt) : (s.setDesc q d).time = s.time := rfl
@[simp] theorem State.setDesc_free (q : Nat) (d : DescSt) : (s.setDesc q d).free = s.free := rfl
@[simp] theorem State.setDesc_pending (q : Nat) (d : DescSt) : (s.setDesc q d).pending = s.pending := rfl
@[simp] theorem State.setDesc_out (q : Nat) (d : DescSt) : (s.setDesc q d).out = s.out := rfl
@[simp] theorem State.setDesc_regs (q : Nat) (d : DescSt) : (s.setDesc q d).regs = s.regs := rfl
@[simp] theorem State.setDesc_acc (q : Nat) (d : DescSt) : (s.setDesc q d).acc = s.acc := rfl
@[simp] theorem State.setDesc_ev (q : Nat) (d : DescSt) : (s.setDesc q d).ev = s.ev := rfl
@[simp] theorem State.setDesc_img (q : Nat) (d : DescSt) : (s.setDesc q d).img = s.img := rfl
@[simp] theorem State.setDesc_links (q : Nat) (d : DescSt) : (s.setDesc q d).links = s.links := rfl
@[simp] theorem State.setDesc_lds (q : Nat) (d : DescSt) : (s.setDesc q d).lds = s.lds := rfl
@[simp] theorem State.setDesc_binding (q : Nat) (d : DescSt) : (s.setDesc q d).binding = s.binding := rfl
@[simp] theorem State.setDesc_iso (q : Nat) (d : DescSt) : (s.setDesc q d).iso = s.iso := rfl
@[simp] theorem State.setDesc_parts (q : Nat) (d : DescSt) : (s.setDesc q d).parts = s.parts := rfl
@[simp] theorem State.setDesc_lens (q : Nat) (d : DescSt) : (s.setDesc q d).lens = s.lens := rfl
@[simp] theorem State.setDesc_tier (q : Nat) (d : DescSt) : (s.setDesc q d).tier = s.tier := rfl
@[simp] theorem State.setDesc_dram (q : Nat) (d : DescSt) : (s.setDesc q d).dram = s.dram := rfl
@[simp] theorem State.setDesc_flash (q : Nat) (d : DescSt) : (s.setDesc q d).flash = s.flash := rfl
@[simp] theorem State.setDesc_qos (q : Nat) (d : DescSt) : (s.setDesc q d).qos = s.qos := rfl
@[simp] theorem State.setDesc_mir (q : Nat) (d : DescSt) : (s.setDesc q d).mir = s.mir := rfl
@[simp] theorem State.setDesc_power (q : Nat) (d : DescSt) : (s.setDesc q d).power = s.power := rfl
@[simp] theorem State.setDesc_start (q : Nat) (d : DescSt) : (s.setDesc q d).start = s.start := rfl
@[simp] theorem State.setDesc_hup (q : Nat) (d : DescSt) : (s.setDesc q d).hup = s.hup := rfl
@[simp] theorem State.setDesc_fw (q : Nat) (d : DescSt) : (s.setDesc q d).fw = s.fw := rfl
@[simp] theorem State.setDesc_shw (q : Nat) (d : DescSt) : (s.setDesc q d).shw = s.shw := rfl
@[simp] theorem State.setDesc_cross (q : Nat) (d : DescSt) : (s.setDesc q d).cross = s.cross := rfl
@[simp] theorem State.setDesc_sync (q : Nat) (d : DescSt) : (s.setDesc q d).sync = s.sync := rfl
@[simp] theorem State.setDesc_cores (q : Nat) (d : DescSt) : (s.setDesc q d).cores = s.cores := rfl
@[simp] theorem State.setDesc_shared (q : Nat) (d : DescSt) : (s.setDesc q d).shared = s.shared := rfl
@[simp] theorem State.setDesc_comp (q : Nat) (d : DescSt) : (s.setDesc q d).comp = s.comp := rfl
@[simp] theorem State.setDesc_pool (q : Nat) (d : DescSt) : (s.setDesc q d).pool = s.pool := rfl

/-! The fields that an update changes. -/

@[simp] theorem State.reach_time (t : Nat) : (s.reach t).time = max s.time t := rfl
@[simp] theorem State.send_out (o : Output) : (s.send o).out = s.out ++ [o] := rfl

/-! A register after a write. -/

theorem RegName.ctorIdx_inj {m n : RegName} (h : m.ctorIdx = n.ctorIdx) : m = n := by
  have e (x : RegName) : RegName.ofNat x.ctorIdx = x := by cases x <;> rfl
  rw [← e m, ← e n, h]

/-- Two keys are equal only for one name and equal indices. -/
theorem RegId.key_eq {q r : RegId} (h : q.key = r.key) : q.name = r.name ∧ q.i % 8192 = r.i % 8192 ∧ q.j % 8192 = r.j % 8192 := by
  unfold RegId.key at h
  refine ⟨RegName.ctorIdx_inj ?_, ?_, ?_⟩ <;> omega

theorem RegFile.wf_rising {f : RegFile} (h : f.wf = true) : Store.rising 0 f = true := by
  simp only [RegFile.wf, Bool.and_eq_true] at h
  exact Store.wf_rising h.1

theorem RegFile.read_write_self {f : RegFile} (h : f.wf = true) (r : RegId) (v : Word) :
    (f.write r v).read r = if r.name.row.width = 32 then v &&& 0xFFFFFFFF else v := Store.get_set_self (RegFile.wf_rising h)

theorem RegFile.read_write_ne {f : RegFile} (h : f.wf = true) {q r : RegId} (v : Word) (hk : q.key ≠ r.key) : (f.write r v).read q = f.read q :=
  Store.get_set_ne (RegFile.wf_rising h) hk

/-- A written register reads as what was written, cut to its width. -/
theorem State.rd_wr_self {s : State} (h : s.regs.wf = true) (n : RegName) (v : Word) (i j : Nat) :
    (s.wr n v i j).rd n i j = if n.row.width = 32 then v &&& 0xFFFFFFFF else v := RegFile.read_write_self h _ _

/-- A register write leaves every register of another name alone. -/
@[simp] theorem State.rd_wr_name {s : State} (h : s.regs.wf = true) {m n : RegName} (hn : m ≠ n) (v : Word) (i j a b : Nat) : (s.wr n v i j).rd m a b = s.rd m a b :=
  RegFile.read_write_ne h _ (fun e => hn (RegId.key_eq e).1)

/-- A register write leaves the other registers of an array alone. -/
theorem State.rd_wr_index {s : State} (h : s.regs.wf = true) {n : RegName} (v : Word) {i j a b : Nat} (hi : a % 8192 ≠ i % 8192 ∨ b % 8192 ≠ j % 8192) :
    (s.wr n v i j).rd n a b = s.rd n a b :=
  RegFile.read_write_ne h _ (fun e => by have := RegId.key_eq e; simp_all)

@[simp] theorem State.rd_wrF_name {s : State} (h : s.regs.wf = true) {m n : RegName} (hn : m ≠ n) (lo len v i j a b : Nat) : (s.wrF n lo len v i j).rd m a b = s.rd m a b :=
  State.rd_wr_name h hn ..
@[simp] theorem State.rd_wrB_name {s : State} (h : s.regs.wf = true) {m n : RegName} (hn : m ≠ n) (k : Nat) (v : Bool) (i j a b : Nat) : (s.wrB n k v i j).rd m a b = s.rd m a b :=
  State.rd_wr_name h hn ..
@[simp] theorem State.rd_setB_name {s : State} (h : s.regs.wf = true) {m n : RegName} (hn : m ≠ n) (k i a b : Nat) : (s.setB n k i).rd m a b = s.rd m a b :=
  State.rd_wr_name h hn ..
@[simp] theorem State.rd_clrB_name {s : State} (h : s.regs.wf = true) {m n : RegName} (hn : m ≠ n) (k i a b : Nat) : (s.clrB n k i).rd m a b = s.rd m a b :=
  State.rd_wr_name h hn ..

/-- Every register write keeps the register file's canonical form. -/
@[simp] theorem State.wr_regs_wf {s : State} (h : s.regs.wf = true) (n : RegName) (v : Word) (i j : Nat) : (s.wr n v i j).regs.wf = true := RegFile.write_wf h _ _
@[simp] theorem State.wrF_regs_wf {s : State} (h : s.regs.wf = true) (n : RegName) (lo len v i j : Nat) : (s.wrF n lo len v i j).regs.wf = true := RegFile.write_wf h _ _
@[simp] theorem State.wrB_regs_wf {s : State} (h : s.regs.wf = true) (n : RegName) (b : Nat) (v : Bool) (i j : Nat) : (s.wrB n b v i j).regs.wf = true := RegFile.write_wf h _ _

/-! Fields of a word. -/

theorem fld_eq_extract (w : Word) (lo len : Nat) : fld w lo len = (w.extractLsb' lo len).toNat := by
  simp [fld, BitVec.extractLsb'_toNat]

theorem setFld_getLsbD (w : Word) (lo len v k : Nat) (hk : k < 64) :
    (setFld w lo len v).getLsbD k = if lo ≤ k ∧ k < lo + len then v.testBit (k - lo) else w.getLsbD k := by
  unfold setFld
  rw [BitVec.getLsbD_or, BitVec.getLsbD_and, BitVec.getLsbD_not, BitVec.getLsbD_ofNat, BitVec.getLsbD_ofNat]
  simp only [hk, decide_true, Bool.true_and, Nat.testBit_shiftLeft, Nat.testBit_two_pow_sub_one, Nat.testBit_mod_two_pow]
  by_cases h1 : lo ≤ k
  · by_cases h2 : k < lo + len
    · have h3 : k - lo < len := by omega
      simp [h1, h2, h3]
    · have h3 : ¬ k - lo < len := by omega
      simp [h1, h2, h3]
  · simp [h1]

/-- A field reads as it was set. -/
theorem fld_setFld_self (w : Word) (lo len v : Nat) (h : lo + len ≤ 64) : fld (setFld w lo len v) lo len = v % 2 ^ len := by
  rw [fld_eq_extract]
  apply Nat.eq_of_testBit_eq
  intro k
  rw [BitVec.testBit_toNat, BitVec.getLsbD_extractLsb', Nat.testBit_mod_two_pow]
  by_cases hk : k < len
  · rw [setFld_getLsbD _ _ _ _ _ (by omega)]
    have : lo ≤ lo + k ∧ lo + k < lo + len := by omega
    simp [hk]
  · simp [hk]

/-- Setting a field leaves a field that does not meet it alone. -/
theorem fld_setFld_ne (w : Word) (lo len v a n : Nat) (h : a + n ≤ lo ∨ lo + len ≤ a) (h64 : a + n ≤ 64) : fld (setFld w lo len v) a n = fld w a n := by
  rw [fld_eq_extract, fld_eq_extract]
  apply Nat.eq_of_testBit_eq
  intro k
  rw [BitVec.testBit_toNat, BitVec.testBit_toNat, BitVec.getLsbD_extractLsb', BitVec.getLsbD_extractLsb']
  by_cases hk : k < n
  · rw [setFld_getLsbD _ _ _ _ _ (by omega)]
    have : ¬ (lo ≤ a + k ∧ a + k < lo + len) := by omega
    simp [this]
  · simp [hk]

/-- Cutting a word to 32 bits leaves a field below bit 32 alone. -/
theorem fld_cut (w : Word) (lo len : Nat) (h : lo + len ≤ 32) : fld (w &&& 0xFFFFFFFF) lo len = fld w lo len := by
  rw [fld_eq_extract, fld_eq_extract]
  apply Nat.eq_of_testBit_eq
  intro k
  rw [BitVec.testBit_toNat, BitVec.testBit_toNat, BitVec.getLsbD_extractLsb', BitVec.getLsbD_extractLsb']
  by_cases hk : k < len
  · have e : (0xFFFFFFFF : Word).getLsbD (lo + k) = true := by
      rw [show (0xFFFFFFFF : Word) = BitVec.ofNat 64 (2 ^ 32 - 1) by rfl, BitVec.getLsbD_ofNat, Nat.testBit_two_pow_sub_one]
      simp; omega
    rw [BitVec.getLsbD_and, e, Bool.and_true]
  · simp [hk]

/-- A written field reads as what was written. -/
theorem State.rdF_wrF_self {s : State} (h : s.regs.wf = true) (n : RegName) (lo len v i j : Nat) (hl : lo + len ≤ 32) :
    (s.wrF n lo len v i j).rdF n lo len i j = v % 2 ^ len := by
  unfold State.rdF State.wrF
  rw [State.rd_wr_self h]
  split
  · rw [fld_cut _ _ _ hl, fld_setFld_self _ _ _ _ (by omega)]
  · rw [fld_setFld_self _ _ _ _ (by omega)]

/-- A field write leaves the register's other fields alone. -/
theorem State.rdF_wrF_field {s : State} (h : s.regs.wf = true) (n : RegName) (lo len v a k i j : Nat) (hd : a + k ≤ lo ∨ lo + len ≤ a) (hl : a + k ≤ 32) :
    (s.wrF n lo len v i j).rdF n a k i j = s.rdF n a k i j := by
  unfold State.rdF State.wrF
  rw [State.rd_wr_self h]
  split
  · rw [fld_cut _ _ _ hl, fld_setFld_ne _ _ _ _ _ _ hd (by omega)]
  · rw [fld_setFld_ne _ _ _ _ _ _ hd (by omega)]

/-- A field write leaves registers of another name alone. -/
theorem State.rdF_wrF_name {s : State} (h : s.regs.wf = true) {m n : RegName} (hn : m ≠ n) (lo len v i j a k c d : Nat) :
    (s.wrF n lo len v i j).rdF m a k c d = s.rdF m a k c d := by
  unfold State.rdF; rw [State.rd_wrF_name h hn]

/-- A written bit reads as what was written. -/
theorem State.rdB_wrB_self {s : State} (h : s.regs.wf = true) (n : RegName) (b : Nat) (v : Bool) (i j : Nat) (hl : b < 32) : (s.wrB n b v i j).rdB n b i j = v := by
  unfold State.rdB State.wrB
  rw [State.rdF_wrF_self h _ _ _ _ _ _ (by omega)]
  cases v <;> rfl

/-- A bit write leaves the register's other bits alone. -/
theorem State.rdB_wrB_bit {s : State} (h : s.regs.wf = true) (n : RegName) (b c : Nat) (v : Bool) (i j : Nat) (hc : c ≠ b) (hl : c < 32) : (s.wrB n b v i j).rdB n c i j = s.rdB n c i j := by
  unfold State.rdB State.wrB
  rw [State.rdF_wrF_field h _ _ _ _ _ _ _ _ (by omega) (by omega)]

/-- A bit write leaves registers of another name alone. -/
theorem State.rdB_wrB_name {s : State} (h : s.regs.wf = true) {m n : RegName} (hn : m ≠ n) (b c : Nat) (v : Bool) (i j a d : Nat) : (s.wrB n b v i j).rdB m c a d = s.rdB m c a d := by
  unfold State.rdB State.rdF State.wrB; rw [State.rd_wrF_name h hn]

/-! Entries of the numbered tables after a write. -/

@[simp] theorem State.link_setLink_self {s : State} (h : s.Canonical) (n : Nat) (v : LinkSt) : (s.setLink n v).link n = v := Store.get_set_self (Store.wf_rising h.links)
@[simp] theorem State.link_setLink_ne {s : State} (h : s.Canonical) {n m : Nat} (hm : m ≠ n) (v : LinkSt) : (s.setLink n v).link m = s.link m := Store.get_set_ne (Store.wf_rising h.links) hm
@[simp] theorem State.ld_setLd_self {s : State} (h : s.Canonical) (k d : Nat) (v : LdSt) : (s.setLd k d v).ld k d = v := Store.get_set_self (Store.wf_rising h.lds)
@[simp] theorem State.part_setPart_self {s : State} (h : s.Canonical) (p : Nat) (v : PartSt) : (s.setPart p v).part p = v := Store.get_set_self (Store.wf_rising h.parts)
@[simp] theorem State.part_setPart_ne {s : State} (h : s.Canonical) {p m : Nat} (hm : m ≠ p) (v : PartSt) : (s.setPart p v).part m = s.part m := Store.get_set_ne (Store.wf_rising h.parts) hm
@[simp] theorem State.core_setCore_self {s : State} (h : s.Canonical) (c : Nat) (v : CoreSt) : (s.setCore c v).core c = v := Store.get_set_self (Store.wf_rising h.cores)
@[simp] theorem State.core_setCore_ne {s : State} (h : s.Canonical) {c m : Nat} (hm : m ≠ c) (v : CoreSt) : (s.setCore c v).core m = s.core m := Store.get_set_ne (Store.wf_rising h.cores) hm
@[simp] theorem State.queue_setQueue_self {s : State} (h : s.Canonical) (q : Nat) (v : QueueSt) : (s.setQueue q v).queue q = v := Store.get_set_self (Store.wf_rising h.queues)
@[simp] theorem State.queue_setQueue_ne {s : State} (h : s.Canonical) {q m : Nat} (hm : m ≠ q) (v : QueueSt) : (s.setQueue q v).queue m = s.queue m := Store.get_set_ne (Store.wf_rising h.queues) hm
@[simp] theorem State.obj_setObj_self {s : State} (h : s.Canonical) (k : Nat) (v : SyncObj) : (s.setObj k v).obj k = v := Store.get_set_self (Store.wf_rising h.sync)
@[simp] theorem State.obj_setObj_ne {s : State} (h : s.Canonical) {k m : Nat} (hm : m ≠ k) (v : SyncObj) : (s.setObj k v).obj m = s.obj m := Store.get_set_ne (Store.wf_rising h.sync) hm

end Sys2Proof.Machine
end

