-- ==== Sys2Proof/WellFormed.lean ====
section
/-! DEFINITION. Which commands a sender can form: sizes, alignments and field widths. A meaning does not need them: exec is total. -/

namespace Sys2Proof

/-- A value fits a field of `w` bits. -/
def fits (w v : Nat) : Bool := decide (v < 2 ^ w)
/-- An optional value fits. -/
def optFits (w : Nat) : Option Nat → Bool
  | none => true
  | some v => fits w v
/-- A PCIe access of 1, 2, 4 or 8 bytes that crosses no 8-byte boundary; R10 says which of them a register block takes. -/
def accessOk (off size : Nat) : Bool := decide ((size = 1 ∨ size = 2 ∨ size = 4 ∨ size = 8) ∧ off % 8 + size ≤ 8)
/-- A line address of CXL.mem (R112). -/
def lineAt (a : Nat) : Bool := decide (a % 64 = 0) && fits 52 a
/-- An island that exists (R30). -/
def islandOk : Island → Bool
  | .core n => decide (n < 256)
  | .cluster n => decide (n < 32)
  | .hub n => decide (n < 2)
  | .hbm n => decide (n < 8)
  | .lpddr n => decide (n < 34)
  | .onfi n => decide (n < 32)
  | .link n => decide (n < 32)
  | .mirror n => decide (n < 2)
  | .always => true
/-- A waiting operation names a tag or a count of its field's width. -/
def waitOk : WaitOp → Bool
  | .hostRead _ tag => fits 16 tag
  | .hostWrite _ tag => fits 16 tag
  | .access _ off => fits 64 off
  | .sync src => match src with | .desc _ n => fits 32 n | .core _ => true
  | .move _ frame => fits 31 frame
  | .desc _ n => fits 32 n
  | .kernel _ => true
/-- Narrow eyes name a controller, 0 to 33 or 64 + stack, and one of its byte lanes (R285). -/
def marginalOk (l : List (Nat × Nat × Bool)) : Bool := l.all (fun x => decide (x.1 < 34 ∧ x.2.1 < 8 ∨ 64 ≤ x.1 ∧ x.1 < 72 ∧ x.2.1 < 256))
/-- Eleven strap pins are sampled; trained controllers are numbered 0 to 33 and 0 to 7 (R42, R285). -/
def envOk (e : StartEnv) : Bool :=
  decide (e.samples.length = 11) && e.lpFail.all (fun c => decide (c < 34)) && e.hbmFail.all (fun c => decide (c < 8)) && marginalOk e.marginal && e.resweep.all (fun m => decide (m < 34 ∨ 64 ≤ m ∧ m < 72))
/-- A partner names at least one rate, a link width, and at most two retimers (R107, R116, R118). -/
def partnerOk (p : Partner) : Bool := decide (p.rates ≠ [] ∧ 1 ≤ p.width ∧ p.width ≤ 16 ∧ p.retimers ≤ 2)
/-- Traffic is in thousandths (R125). -/
def measureOk : WidthMeasure → Bool
  | .narrow w => decide (w ≤ 1000)
  | .widen w _ => decide (w ≤ 1000)
/-- A descriptor count fits its register. -/
def flushWhoOk : FlushWho → Bool
  | .part _ => true
  | .desc _ n => fits 32 n
/-- A descriptor count fits its register. -/
def waiterOk : FlashWaiter → Bool
  | .desc _ n => fits 32 n
  | .kernel _ => true
  | .ring _ => true
/-- A descriptor count fits its register. -/
def srcOk : SyncSrc → Bool
  | .desc _ n => fits 32 n
  | .core _ => true
/-- A HELLO speaks of 16 partitions and of mirror port 0 or 1 (R525). -/
def helloOk (h : Hello) : Bool := decide (h.port < 2 ∧ h.parts.length = 16)
/-- Epoch number and generation are 32-bit (R531). -/
def epochOk (e : Epoch) : Bool := fits 32 e.number && fits 32 e.generation
/-- Twelve cells, twelve temperatures (R569). -/
def sampleOk (s : StoreSample) : Bool := decide (s.cells.length = 12 ∧ s.temps.length = 12)
/-- Temperatures name cores 0 to 255, stacks 0 to 7 and bays 0 to 3 (R593, R594). -/
def loopOk (s : LoopSample) : Bool :=
  s.coreTemps.all (fun e => decide (e.1 < 256)) && s.stackTemps.all (fun e => decide (e.1 < 8)) && s.carrierTemps.all (fun e => decide (e.1 < 4))
/-- A component's identifier and versions fit their fields (R597). -/
def compOk (c : Component) : Bool := fits 16 c.id && fits 64 c.version && fits 32 c.security

/-- The sender can form this command. -/
def Instr.wellFormed : Instr → Bool
  | .registerWrite _ off size val => accessOk off size && fits (8 * size) val
  | .readLoLatch _ off => accessOk off 4
  | .writeLoHeld _ off _ => accessOk off 4
  | .writeHiApply _ off _ => accessOk off 4
  | .readClear _ off size => accessOk off size
  | .feRegisterAccess _ off size write => accessOk off size && optFits (8 * size) write
  | .crossingWatchdogExpiry a b _ waiting => islandOk a && islandOk b && waiting.all waitOk
  | .crossingAcknowledge a b => islandOk a && islandOk b
  | .hostMemRead _ _ tag hpa _ => fits 16 tag && lineAt hpa
  | .hostMemWrite _ _ tag hpa _ _ _ => fits 16 tag && lineAt hpa
  | .hostMemInvalidate _ _ tag hpa _ => fits 16 tag && lineAt hpa
  | .eventGatherWindowEnd kind key => decide (kind < 8) && fits 16 key
  | .stagingWrite off size val => accessOk off size && fits (8 * size) val
  | .imageLoadStart => true
  | .imageLoadComplete => true
  | .clearPending => true
  | .keyRevoke _ => true
  | .modRstAssert _ => true
  | .modRstDeassert env => envOk env
  | .warmReset env => envOk env
  | .shutdown => true
  | .shutdownComplete => true
  | .flr _ _ => true
  | .ldReset _ _ => true
  | .perstAssert _ _ => true
  | .perstDeassert _ => true
  | .linkUp _ partner => partnerOk partner
  | .linkDown _ => true
  | .enable128 _ => true
  | .retry _ => true
  | .eqFail128 _ => true
  | .retrain _ => true
  | .linkDisable _ => true
  | .linkEnable _ => true
  | .l0pWidthChange _ m => measureOk m
  | .aspmL1Entry _ _ _ => true
  | .aspmL1Exit _ _ => true
  | .ideKeyExchange _ _ _ _ => true
  | .ideCheckFail _ => true
  | .busMasterDisable _ _ => true
  | .busMasterEnable _ _ => true
  | .cxlioCompletion _ tag _ => fits 10 tag
  | .cxlioCompletionTimeout _ tag => fits 10 tag
  | .gpfPhase2 _ => true
  | .fmLdBindUnbind _ _ _ => true
  | .fmLinkStateQuery _ => true
  | .getEventRecords _ _ log => fits 8 log
  | .clearEventRecords _ _ log all handles => fits 8 log && handles.all (fits 16)
  | .getEventInterruptPolicy _ _ => true
  | .setEventInterruptPolicy _ _ policy => policy.all (fits 8)
  | .getFwInfo _ _ => true
  | .getTimestamp _ _ => true
  | .setTimestamp _ _ ns => fits 64 ns
  | .getSupportedLogs _ _ => true
  | .getLog _ _ log off len => decide (log < 2 ^ 128) && fits 32 off && fits 32 len
  | .identifyMemoryDevice _ _ => true
  | .getHealthInfo _ _ => true
  | .getAlertConfig _ _ => true
  | .setAlertConfig _ _ cfg => cfg.all (fits 8)
  | .getPoisonList _ _ dpa len => fits 64 dpa && fits 64 len
  | .injectPoison _ _ dpa => fits 64 dpa
  | .clearPoison _ _ dpa _ => fits 64 dpa
  | .getScanMediaCapabilities _ _ => true
  | .scanMedia _ _ dpa len => fits 64 dpa && fits 64 len
  | .getScanMediaResults _ _ => true
  | .getLostResponses _ _ _ => true
  | .cxlMboxUnsupported _ _ opcode => fits 16 opcode
  | .quiesceRequest _ => true
  | .partitionQuiesced _ => true
  | .quiesceLift _ => true
  | .quiesceAbort _ => true
  | .prtLivenessWrite _ _ _ => true
  | .livenessTimeout _ => true
  | .quarantine _ => true
  | .lift _ => true
  | .release _ => true
  | .shwIndexLoWrite _ _ _ => true
  | .shwIndexHiWrite _ _ _ => true
  | .shadowSwapSwitch _ => true
  | .shadowWritebackDone _ => true
  | .shadowWindowAccess _ _ off size write => decide (1 ≤ size ∧ size ≤ 64 ∧ off + size ≤ 2 ^ 20) && optFits (8 * size) (write.map (·.1))
  | .mergeFillArrive _ page => fits 35 page
  | .mergeAgeExpiry _ page => fits 35 page
  | .slotEncodeStart _ => true
  | .slotCommit _ page => fits 35 page
  | .heldWriteRelease _ => true
  | .watermarkWrite _ _ => true
  | .partitionFlush _ => true
  | .flushComplete who => flushWhoOk who
  | .relocMoveHome _ frame => fits 31 frame
  | .agingEpoch => true
  | .sweeperVisit _ frame => fits 31 frame
  | .moveStart _ => true
  | .moveCopyDone _ frame => fits 31 frame
  | .flashReadDataArrive _ page => fits 35 page
  | .deepMissExpiry _ tag => fits 16 tag
  | .mapRead => true
  | .hintPrefetch _ n => fits 32 n
  | .hintPin _ n => fits 32 n
  | .hintUnpin _ n => fits 32 n
  | .hintDemote _ n => fits 32 n
  | .trainingProbe m moves => moves.all (fun x => decide (x.lane < (match m with | .lpc _ => 8 | .hbc _ => 256)))
  | .refreshIssue m _ bank => fits (match m with | .lpc _ => 7 | .hbc _ => 9) bank
  | .rowhammerWindowEnd => true
  | .lpRebuildStart _ => true
  | .lpRebuildDone _ => true
  | .nandOpTimeout _ _ _ => true
  | .flashWaitTimeout who => waiterOk who
  | .ftlBackgroundWork _ => true
  | .restripe => true
  | .restripeComplete => true
  | .carrierInsert _ => true
  | .bayButtonPress _ => true
  | .remove _ => true
  | .removalAbort _ => true
  | .removalWindowExpiry _ => true
  | .evacuationComplete _ => true
  | .carrierPowerOn _ => true
  | .powerOnWindowExpiry _ => true
  | .carrierAdopted _ _ => true
  | .carrierRebuildDone _ => true
  | .carrierSurpriseRemoval _ => true
  | .slotOverCurrent _ => true
  | .deferredWritebackOpen _ => true
  | .flipArm _ => true
  | .flipDisarm _ => true
  | .doorbell _ _ _ _ => true
  | .queueEnable _ => true
  | .queueDisable _ => true
  | .qdSeedWrite _ _ => true
  | .descFetch _ => true
  | .descNop _ n => fits 32 n
  | .descLaunch _ n => fits 32 n
  | .descCopy _ n => fits 32 n
  | .descFill _ n => fits 32 n
  | .descScrub _ n => fits 32 n
  | .descFlush _ n => fits 32 n
  | .descComplete _ n => fits 32 n
  | .scrubPassComplete _ n => fits 32 n
  | .kernelDispatch _ => true
  | .kernelEnd _ _ => true
  | .kernelTimeLimit _ => true
  | .libraryActivate => true
  | .tEnd _ => true
  | .tNop _ => true
  | .tBra _ => true
  | .tBeq _ => true
  | .tBne _ => true
  | .tBlt _ => true
  | .tBge _ => true
  | .tBltu _ => true
  | .tLps _ => true
  | .tLpb _ => true
  | .tGet _ => true
  | .tWaitg _ => true
  | .tBar _ => true
  | .barrierRelease _ scope => decide (scope < 4)
  | .tAdd _ => true
  | .tSub _ => true
  | .tMul _ => true
  | .tAnd _ => true
  | .tOr _ => true
  | .tXor _ => true
  | .tShl _ => true
  | .tShr _ => true
  | .tSra _ => true
  | .tMin _ => true
  | .tMax _ => true
  | .tMovhi _ => true
  | .tMovi _ => true
  | .tFadd _ => true
  | .tFsub _ => true
  | .tFmul _ => true
  | .tFdiv _ => true
  | .tFsqrt _ => true
  | .tFfma _ => true
  | .tItof _ => true
  | .tFtoi _ => true
  | .tFlt _ => true
  | .tLd _ => true
  | .tSt _ => true
  | .tTld _ => true
  | .tldPageArrive _ _ => true
  | .tTst _ => true
  | .tXfer _ => true
  | .tMma _ => true
  | .tCvt _ => true
  | .tVopAdd _ => true
  | .tVopSub _ => true
  | .tVopMul _ => true
  | .tVopFma _ => true
  | .tVopFnma _ => true
  | .tVopMax _ => true
  | .tVopMin _ => true
  | .tVopDiv _ => true
  | .tVopSqrt _ => true
  | .tVopAbs _ => true
  | .tVopNeg _ => true
  | .tVopMov _ => true
  | .tVopClr _ => true
  | .tVopDot _ => true
  | .tVopRsum _ => true
  | .tVopRmax _ => true
  | .syncSet src => srcOk src
  | .syncAdd src => srcOk src
  | .syncWaitGe src => srcOk src
  | .syncWaitEq src => srcOk src
  | .syncCompareAndSwap src => srcOk src
  | .syncLock src => srcOk src
  | .syncUnlock src => srcOk src
  | .syncBarrierArrive src => srcOk src
  | .syncWaitTimeout src => srcOk src
  | .syncShareWrite _ _ => true
  | .qosWindowEnd _ samples => decide (samples.length ≤ 4)
  | .bgRateSample busy0 busy1 => decide (busy0 ≤ 100 ∧ busy1 ≤ 100)
  | .requestAgeExpiry _ tag => fits 16 tag
  | .urgPinChange _ _ => true
  | .urgPinStuck _ => true
  | .mirrorHello _ hello => helloOk hello
  | .reflectFlitCrcFail _ => true
  | .reflectKeepalive _ => true
  | .reflectLinkTimeout _ => true
  | .epochClose _ _ _ => true
  | .epochReceived e => epochOk e
  | .epochAck _ _ number _ => fits 64 number
  | .partnerFenceTimeout _ => true
  | .partnerTimeout _ => true
  | .promote _ => true
  | .unfence _ => true
  | .switch _ => true
  | .switchDrainEnd _ => true
  | .detach _ => true
  | .attach _ => true
  | .demote _ => true
  | .snapshot _ => true
  | .mirrorRebuildDone _ => true
  | .powerRequest _ => true
  | .powerCancel => true
  | .drainEnd => true
  | .drainTimeoutExpiry => true
  | .powerTransitionDone _ resweep marginal _ => resweep.all (fun m => decide (m < 34 ∨ 64 ≤ m ∧ m < 72)) && marginalOk marginal
  | .wakeInband _ => true
  | .wakeSidebandMatch _ => true
  | .storeMonitorSample s => sampleOk s
  | .budgetLimitUpdate => true
  | .capTest => true
  | .capTestDone dropMv => fits 16 dropMv
  | .inputBelow40v => true
  | .inputGlitch => true
  | .inputPowerLost => true
  | .inputPowerGood => true
  | .flushVlowStop => true
  | .holdupFlushDone => true
  | .thermalTrip => true
  | .fpHeartbeat _ => true
  | .fpHeartbeatMiss _ => true
  | .fwRegionFault _ component addr => fits 8 component && fits 64 addr
  | .restart _ => true
  | .powerLoopPeriod s => loopOk s
  | .spdmRequest code payload => fits 8 code && payload.all (fits 8)
  | .queryDeviceIdentifiers => true
  | .getFirmwareParameters => true
  | .requestUpdate n => fits 16 n
  | .passComponentTable comps => comps.all compOk
  | .updateComponent c => compOk c
  | .requestFirmwareData len => fits 32 len
  | .transferComplete _ => true
  | .verifyComplete _ => true
  | .applyComplete _ => true
  | .activateFirmware _ => true
  | .getStatus => true
  | .cancelUpdateComponent => true
  | .cancelUpdate => true
  | .getIdentity => true
  | .writeOwnerKey slot _ => fits 8 slot
  | .restartProcessor n => fits 8 n
  | .getEvents skip => fits 32 skip
  | .clearEvents last => fits 32 last
  | .readRegister off size => fits 24 off && fits 8 size
  | .writeRegister off size val => fits 24 off && fits 8 size && fits 64 val
  | .mboxUnknownOpcode opcode => fits 16 opcode
  | .negotiate _ => true
  | .mirrorLinkPhyLeavesL0 _ => true
  | .linkEntersRecovery _ => true
  | .inputBelow48v => true
  | .firmwareFetchFault _ => true
  | .coreIslandHwClamp => true

end Sys2Proof
end

