-- ==== Sys2Proof/Tests/Slice0.lean ====
section
/-! SUPPORT. Tests: ill-formed commands that WellFormed refuses, the spec's worked examples, and for each obligation with hypotheses a concrete state and operands that meet them. -/

namespace Sys2Proof.Tests

open Sys2Proof Sys2Proof.Machine

set_option Elab.async false

/-! WellFormed refuses an ill-formed command for each of its checks. -/

theorem test_wellFormed_refuses_sizes :
    (Instr.registerWrite .mgmt 0 3 0).wellFormed = false ∧ (Instr.registerWrite .mgmt 0 4 (2 ^ 32)).wellFormed = false ∧
    (Instr.readLoLatch .mgmt 6).wellFormed = false ∧ (Instr.feRegisterAccess .mgmt 0 4 (some (2 ^ 32))).wellFormed = false ∧
    (Instr.hostMemRead 0 0 65536 0 .memRd).wellFormed = false ∧ (Instr.hostMemRead 0 0 0 32 .memRd).wellFormed = false ∧
    (Instr.eventGatherWindowEnd 8 0).wellFormed = false ∧ (Instr.cxlioCompletion 0 1024 0).wellFormed = false ∧
    (Instr.clearEventRecords 0 0 0 false [65536]).wellFormed = false ∧ (Instr.setEventInterruptPolicy 0 0 [256]).wellFormed = false ∧
    (Instr.getLog 0 0 0 (2 ^ 32) 0).wellFormed = false ∧ (Instr.shadowWindowAccess 0 0 (2 ^ 20) 4 none).wellFormed = false ∧
    (Instr.slotCommit 0 (2 ^ 35)).wellFormed = false ∧ (Instr.sweeperVisit 0 (2 ^ 31)).wellFormed = false ∧ (Instr.descNop 0 (2 ^ 32)).wellFormed = false := by decide

theorem test_wellFormed_refuses_records :
    (Instr.crossingAcknowledge (.core 256) .always).wellFormed = false ∧ (Instr.crossingWatchdogExpiry .always .always 0 [.desc 0 (2 ^ 32)]).wellFormed = false ∧ (Instr.crossingWatchdogExpiry .always .always 0 [.access .mgmt (2 ^ 64)]).wellFormed = false ∧
    (Instr.warmReset ⟨[], false, false, [], [], [], [], 0, 0⟩).wellFormed = false ∧ (Instr.linkUp 0 ⟨false, true, true, false, [], 16, false, false, 0⟩).wellFormed = false ∧
    (Instr.l0pWidthChange 0 (.narrow 1001)).wellFormed = false ∧ (Instr.flushComplete (.desc 0 (2 ^ 32))).wellFormed = false ∧ (Instr.flashWaitTimeout (.desc 0 (2 ^ 32))).wellFormed = false ∧
    (Instr.syncSet (.desc 0 (2 ^ 32))).wellFormed = false ∧ (Instr.barrierRelease 0 4).wellFormed = false ∧ (Instr.bgRateSample 101 0).wellFormed = false ∧
    (Instr.storeMonitorSample ⟨[], 0, [], 0⟩).wellFormed = false ∧ (Instr.powerLoopPeriod ⟨0, [(256, 0)], [], []⟩).wellFormed = false ∧
    (Instr.updateComponent ⟨65536, 0, 0, true, 0, 0⟩).wellFormed = false ∧ (Instr.powerTransitionDone false [42] [] 0).wellFormed = false ∧ (Instr.powerTransitionDone false [] [(3, 8, true)] 0).wellFormed = false ∧
    (Instr.mirrorHello 0 ⟨0, 2, false, false, 1, true, 64, []⟩).wellFormed = false ∧ (Instr.refreshIssue (.lpc 0) .perBank 256).wellFormed = false ∧ (Instr.epochAck 0 0 (2 ^ 64) .ok).wellFormed = false ∧
    (Instr.spdmRequest 256 []).wellFormed = false ∧ (Instr.readRegister (2 ^ 24) 4).wellFormed = false ∧ (Instr.qosWindowEnd 0 (List.replicate 5 ⟨0, 0, false, 0⟩)).wellFormed = false := by decide

theorem test_wellFormed_accepts : (Instr.registerWrite .mgmt 4 4 7).wellFormed = true ∧ (Instr.tAdd 0).wellFormed = true ∧ (Instr.hostMemRead 0 0 5 64 .memRd).wellFormed = true := by decide

/-! The spec's worked examples. Each expected value is the spec's own. -/

/-- R56: the CRC-32C of the ASCII bytes 123456789. -/
theorem test_crc32c : crc32c [0x31, 0x32, 0x33, 0x34, 0x35, 0x36, 0x37, 0x38, 0x39] = 0xE3069283 := by decide +kernel

/-- The example after R243: two reads of page 3 take it from 253 to 255, and all counters halve. -/
theorem test_heat_example : heatTouch (heatTouch (((List.replicate 16 0).set 3 253).set 7 40) 3) 3 = ((List.replicate 16 0).set 3 127).set 7 20 := by decide

/-- The example after R277: sector m = 18,790,544,664 of hub 0 lies in stripe 0x5000_1181 at position 4 of channel 12, at channel address 0x14_0004_6040, in PASR segment 5. -/
theorem test_sector_place : pos1 18790544664 = (0x50001181, 4, 12) ∧ State.reset.place1 18790544664 = ⟨12, 0, 0x1400046040⟩ ∧ pasrSeg 18790544664 = 5 := by decide +kernel

/-- The J2 record of the example of R399 and R402. -/
def exampleRec : Nat := 0xBF4005AAAAAA63013C

/-- The example's activations. -/
def exampleActs : List Machine.Num := (List.range 16).map (fun i => e4m3 ([0x40, 0x30, 0x38, 0xC4, 0, 0x48].getD i 0))

/-- R399, R402: the example block takes the accumulator from 1.0 to 7.375 on the block path, and the halo merge to 4.375. -/
theorem test_j2_block :
    ((parseRec 2 exampleRec).map (fun r => (pairStep ⟨0x3F800000, 0⟩ r.1 exampleActs false, (haloMerge ⟨0x40EC0000, 0⟩ 16 [some r.1] exampleActs).v))) =
      some ((⟨0x40EC0000, 0⟩, false), 0x408C0000) := by decide +kernel

/-- The example of R407: 4.375 in E4M3 is 4.5 to nearest, and 4.0 under ROUND 1 for g = 0xD1_2345. -/
theorem test_convert_example : convert 0 0x408C0000 none = 0x49 ∧ convert 0 0x408C0000 (some 0xD12345) = 0x48 ∧ convert 0 0x408C0000 (some 0xBFFFFF) = 0x49 := by decide +kernel

/-- R400: the JT example fires with the smallest activation 0x01, and does not with 0x18. -/
theorem test_glare_example :
    glares (List.replicate 62 (1, e4m3 0) ++ [(1, e4m3 0x7E), (1, e4m3 0x01)]) (bf16Num 0x3FFF) = true ∧
    glares (List.replicate 62 (1, e4m3 0) ++ [(1, e4m3 0x7E), (1, e4m3 0x18)]) (bf16Num 0x3FFF) = false := by decide +kernel

/-- The example of R379: path 1, 3, 6, bonus node 6, bonus token 5. -/
theorem test_tree_example : treeResult [(0, 0), (0, 17), (0, 40), (1, 9), (1, 9), (2, 33), (3, 71)] [17, 9, 33, 71, 12, 8, 5] = ([1, 3, 6], 6, 5) := by decide +kernel

/-- The example of R574: cells 4 and 5 at 2.780 V and 2.420 V name wire 5; cells 4 and 5 at 2.610 V and 2.420 V name none. -/
theorem test_wire_example :
    (List.range 13).filter (showsWire (((List.replicate 12 2600).set 4 2780).set 5 2420) 31200) = [5] ∧
    (List.range 13).filter (showsWire (((List.replicate 12 2600).set 4 2610).set 5 2420) 31200) = [] := by decide +kernel

/-- A state with a capacitance in mF, a pack voltage in mV and a write rate. -/
def storeAt (mF mv rate : Nat) : State := ((State.reset.wrF .hupCapMf 0 16 mF).wrF .hupPackMv 0 16 mv).wrF .carArrayState 8 8 rate

/-- The example of R577 without its 16 GiB of frame maps: 22.00 V and 31.10 V carry 2,714 J and 8,165 J, and 155 GiB and 526 GiB. -/
theorem test_energy_example : (storeAt 24000 22000 32).energy / 10 ^ 11 = 2714 ∧ (storeAt 24000 31100 32).energy / 10 ^ 11 = 8165 ∧
    (storeAt 24000 22000 32).energyLimit = 155 * 2 ^ 30 ∧ (storeAt 24000 31100 32).energyLimit = 526 * 2 ^ 30 ∧ (storeAt 29167 31200 48).energy / 10 ^ 11 = 10009 := by decide +kernel

/-! States that meet the hypotheses of the obligations. `wBase`: partition 0 with one private range, bound to LD 0 of link 0, which carries traffic; its memory is active. -/

/-- The PART record of the test partition. -/
def wRec : PartRec :=
  { id := 0, durable := false, bindings := [(0, 0)], ranges := [], deepMissUs := 100, mergeQuota := 16, apparent := 2 ^ 30, quota0 := 2 ^ 28, quota1 := 2 ^ 29, quota2 := 0,
    queueBase := 0, queueCount := 4, syncBase := 0, syncCount := 4 }

/-- The base state of the witnesses. -/
def wBase : State :=
  { (({} : State).wrF .lnkStatus 0 4 2 0).wrB .prtState 0 true 0 with
    parts := [(0, { cfg := some wRec })], lds := [(0, { memActive := true })], binding := [(0, some 0)], iso := [(0, some ⟨.priv, 0, 0, 2 ^ 30, 0, 0, false⟩)] }

/-- A kernel of one core runs on core 0, which is at an instruction word. -/
def wCode (w : Word) : State :=
  { wBase with
    cores := [(0, { kid := some 0, s := (List.range 32).map (fun i => BitVec.ofNat 64 (64 * i)), imem := Store.set 0 0 w [] })],
    comp := { wBase.comp with kernels := [{ id := 0, part := 0, queue := 0, count := 0, block := [], running := true, clusters := [0] }] } }

/-- An instruction word with opcode, D, A, B, I and IMM. -/
def wWord (op d a b i imm : Nat) : Word := BitVec.ofNat 64 (op * 2 ^ 56 + d * 2 ^ 51 + a * 2 ^ 46 + b * 2 ^ 41 + i * 2 ^ 40 + imm)

/-- A queue of partition 0 that holds one fetched descriptor. -/
def wDesc (raw : Nat) : State :=
  { (wBase.wrB .qdCtrl 0 true 0) with queues := [(0, { descs := [{ n := 0, raw := raw, link := 0, ld := 0 }] })] }

/-- Its descriptor. -/
def wD (raw : Nat) : DescSt := { n := 0, raw := raw, link := 0, ld := 0 }

/-! Witnesses: registers. -/

/-- BadAccessIsUnsupported, UnassignedOffsetsReadZero: STR_STATUS at 0, and an offset of block STR that no register takes. -/
theorem witness_register_targets : wBase.target .mgmt 0 = .reg ⟨.strStatus, 0, 0⟩ 0 ∧ wBase.target .mgmt 0xFFC = .hole ∧ (0xFFC : Nat) % 4 = 0 := by decide +kernel

/-- ReadsReturnValueAndLatch, HalvesWriteAsOneUpdate: a 32-bit register, and LO and HI of a 64-bit one, with a held LO and without. -/
theorem witness_halves : measuredBits RegName.strStatus = 0 ∧ RegName.strStatus.row.width = 32 ∧ measuredBits RegName.fwmVersion = 0 ∧ RegName.fwmVersion.row.width = 64 ∧
    wBase.target .mgmt 0xE00000 = .reg ⟨.fwmVersion, 0, 0⟩ 0 ∧ wBase.target .mgmt 0xE00004 = .reg ⟨.fwmVersion, 0, 0⟩ 4 ∧
    Store.get none (accKey .mgmt ⟨.fwmVersion, 0, 0⟩) wBase.acc.lo = none ∧
    Store.get none (accKey .mgmt ⟨.fwmVersion, 0, 0⟩) [(accKey .mgmt ⟨.fwmVersion, 0, 0⟩, some (5 : BitVec 32))] = some 5 := by decide +kernel

/-- WriteActsByAccessClass: a write to STR_STATUS of a canonical state in Daylight. -/
theorem witness_write_class : RegName.strStatus ∈ plainNames ∧ ¬ (wBase.rdF .pwrState 0 2 = 2 ∧ nightBlock 0 = false) := by decide +kernel

/-- CountersStickOrWrap: an error counter and an event counter. -/
theorem witness_counters : RegName.lnkErrCorr.row.width = 32 ∧ RegName.qdDone.row.width = 64 := by decide +kernel

/-- MailboxAccessesRegisters: a start has passed PHASE 2 and FP1 runs; each answer of an access occurs. -/
theorem witness_mailbox_registers : let s := wBase.wrF .strStartState 0 4 6
    s.mboxUp = true ∧ (s.readAccess .mgmt 0 4).2 = .value 0 ∧ (s.writeAccess .mgmt 0 4 0).2 = .silent ∧ (s.writeAccess .mgmt 0 2 0).2 = .unsupported := by decide +kernel

/-! Witnesses: tile programs. -/

/-- Every statement about an instruction: a core at a word of each opcode issues it. -/
theorem witness_issue : ∀ op ∈ [0x00, 0x01, 0x02, 0x03, 0x04, 0x05, 0x06, 0x07, 0x08, 0x09, 0x0A, 0x0B, 0x0C, 0x10, 0x11, 0x12, 0x13, 0x14, 0x15, 0x16, 0x17, 0x18, 0x19, 0x1A, 0x1B, 0x1C,
      0x20, 0x21, 0x22, 0x23, 0x24, 0x25, 0x26, 0x27, 0x28, 0x30, 0x31, 0x38, 0x39, 0x3A, 0x40, 0x48, 0x60, 0x70],
    ((wCode (wWord op 1 2 3 0 0)).issue 0).map (fun x => fld x.2.2 56 8) = some op := by decide +kernel

/-- LoopCountersCountDown: LPB with its counter above 1, at 1 and at 0. -/
theorem witness_loop : ∀ n ∈ [0, 1, 2], let s := wCode (wWord 9 1 0 0 0 0)
    let t := s.setCore 0 { s.core 0 with lc := [0, n, 0, 0] }
    (t.issue 0).map (fun x => x.2.1.lc.getD (rD x.2.2) 0) = some n := by decide +kernel

/-- WaitsAndSpecialValues: GET's selectors, WAITG with both forms, BAR and END of a settled core. -/
theorem witness_waits : (∀ i ∈ [0, 3, 4, 5, 6, 7], fld (wWord 0x0A 1 0 0 0 i) 0 32 = i) ∧ fld (wWord 0x0B 0 0 0 0 0) 40 1 = 0 ∧ fld (wWord 0x0B 0 0 0 1 0) 40 1 = 1 ∧
    (let s := wCode (wWord 0x0B 0 0 0 0 0); (∀ g < 8, s.outstanding 0 (s.core 0) g ≤ 0) ∧ s.settled 0 (s.core 0) = true) ∧
    (let s := wCode (wWord 0x0B 2 0 0 0 0); let x : CoreSt := { s.core 0 with tld := [{ xid := 0, group := 2, addr := 0, dsp := 0, em := 1, off := 0 }] }; 0 < s.outstanding 0 x 2) := by decide +kernel

/-- TileMemoryInstructions: the space of LD and ST, no page on its way, no store ahead, a pool read that answers and a pool store that is taken. -/
theorem witness_tile_memory : let s := wCode (wWord 0x30 1 2 0 0 0)
    (∀ sp ∈ [2, 3, 5], fld (wWord 0x31 1 2 0 0 0 + BitVec.ofNat 64 (sp * 2 ^ 37)) 37 3 = sp) ∧ (s.core 0).locked (regionsOf 2 0 128 1) = false ∧
    s.resolve 0 128 1 = some (0, 128) ∧ s.storeAhead 0 0 128 1 = false ∧ s.outstanding 0 (s.core 0) 0 < 64 ∧ (s.core 0).tld = [] ∧
    (match s.kernel 0 with | some k => (match (s.kernelRead k 128 1).2.2 with | .ok _ => true | _ => false) | none => false) = true ∧
    (match s.kernel 0 with | some k => (match (s.kernelStore (.core 0) k 128 8 5 0).2.2 with | .done => true | _ => false) | none => false) = true := by decide +kernel

/-- PagesArriveAndBarriersRelease: a page on its way that can be read; two cores at a barrier of scope 3, and one that has ended. -/
theorem witness_pages_barriers :
    (let s := wCode 0
     let t := s.setCore 0 { s.core 0 with tld := [{ xid := 0, group := 2, addr := 0, dsp := 0, em := 1, off := 0 }] }
     match (t.core 0).kid.bind t.kernel with
      | some k => k.running && k.fault.isNone && (t.resolve k.part 0 4096 == some (0, 0)) && (match (t.tldPage k 0 0 0 0).2 with | .ok _ => true | _ => false)
      | none => false) = true ∧
    (let s := wCode 0
     let k : KernelSt := { id := 0, part := 0, queue := 0, count := 0, block := [0, 0, 0, 0, 1], running := true, clusters := [0] }
     k.lid = 0 ∧ (s.setCore 1 { atBar := some 3 }).core 1 = { atBar := some 3 } ∧ k.cores.take 2 = [0, 1]) := by decide +kernel

/-- EngineInstructions, VectorInstructions: words of MMA, CVT and VOP whose registers no page on its way holds. -/
theorem witness_engine_words : fld (wWord 0x40 0 0 0 0 0) 7 1 = 0 ∧ (mmaWeights (wCode 0 |>.core 0) (wWord 0x40 0 0 0 0 (4 * 2 ^ 11))).2.1 = false ∧ ((wCode 0).core 0).locked (regionsOf 4 0 0 16384) = false ∧
    (∀ fn < 16, fld (wWord 0x60 fn 0 0 0 0) 51 5 = fn) ∧ ((wCode 0).core 0).locked (tileRegions [0, 0, 0]) = false := by decide +kernel

/-! Witnesses: synchronisation objects. -/

/-- SyncCommandsReachTheirObject: a core and a descriptor name object 1 of partition 0, for each operation. -/
theorem witness_sync_sources : (∀ op < 8, let s := wCode (wWord 0x70 0 0 0 0 op)
      (s.issue 0).map (fun x => (fld x.2.2 0 4, s.settled 0 x.2.1, decide ((x.2.1.s.getD (rA x.2.2) 0).toNat < wRec.syncCount))) = some (op, true, true)) ∧
    (∀ op < 8, let raw := 7 + 0xFFFF * 2 ^ 32 + 1 * 2 ^ 128 + op * 2 ^ 144
      let s := wDesc raw
      s.queueOwner 0 = some 0 ∧ s.desc 0 0 = some (wD raw) ∧ (wD raw).fld 0 1 = 7 ∧ (wD raw).fld 0x12 1 = op ∧ s.mayStart 0 (wD raw) = true ∧ s.quarantined 0 = false ∧
      s.descFails 0 { wD raw with started := true, startAt := s.time } = [] ∧ s.objRef 0 ((wD raw).fld 0x10 2) = .inl 1) := by decide +kernel

/-- SyncOperationsOnAnIdleObject: nothing waits on object 1, no mirror serves its partition, and its lock is free, held or abandoned. -/
theorem witness_idle_object : (wBase.obj 1).waits = [] ∧ wBase.syncOwner 1 = some 0 ∧ wBase.mirRole 0 = 0 ∧
    ∀ n < 3, ((wBase.setObj 1 { lock := n }).obj 1).lock = n := by decide +kernel

/-- SyncTimeoutsAndSharing: one wait with a deadline. -/
theorem witness_sync_timeout : let w : SyncWait := { src := .desc 0 0, kind := .ge 5, part := 0, queue := 0, deadline := some 1000 }
    let s := wBase.setObj 1 { waits := [w] }
    s.sync = [(1, { waits := [w] })] ∧ w.deadline = some 1000 := by decide +kernel

/-! Witnesses: queues and descriptors. -/

/-- QueueControlWrites: a disabled queue whose ring passes, one whose ring does not, and an enabled one. -/
theorem witness_queue_control : wBase.queueOwner 0 = some 0 ∧ wBase.qEnabled 0 = false ∧ wBase.ringCheck 0 0 = 0 ∧ (wBase.wr .qdRingBase 8 0).ringCheck 0 0 ≠ 0 ∧
    (wDesc 0).qEnabled 0 = true ∧ wBase.mirRole 0 ≠ 1 := by decide +kernel

/-- DoorbellsMoveTheTail: LD 0 of link 0 is bound to the owner; a count within the ring and one past it; a queue of no partition; a disabled queue; quarantine. -/
theorem witness_doorbell : (wDesc 0).bound 0 0 = some 0 ∧ (wDesc 0).queueOwner 5 ≠ some 0 ∧ wBase.qEnabled 0 = false ∧ (wDesc 0).quarantined 0 = false ∧ (wDesc 0).mirRole 0 ≠ 2 ∧
    (wDesc 0).ringSize 0 = 16 ∧ ((wDesc 0).setB .prtState 4 0).quarantined 0 = true := by decide +kernel

/-- FetchTakesTheHeadDescriptor: tail 1, head 0, and a ring that can be read; a ring that lies past the partition cannot be. -/
theorem witness_fetch : let s := (wDesc 0).wr .qdTail 1 0
    s.fetchHeld 0 = false ∧ (s.rd .qdHead 0).toNat ≠ (s.rd .qdTail 0).toNat ∧ (match (s.getBytes (reqComp 0) 0 0 64).2 with | .ok _ => true | _ => false) = true ∧
    (match ((s.setFrame 0 0 { state := .homed, pages := (List.replicate 16 { codec := 7 }) }).getBytes (reqComp 0) 0 0 64).2 with | .bad _ => true | _ => false) = true := by decide +kernel

/-- A descriptor starts and its checks pass. -/
def startsOk (s : State) (raw : Nat) : Bool :=
  s.queueOwner 0 == some 0 && s.desc 0 0 == some (wD raw) && s.mayStart 0 (wD raw) && !s.quarantined 0 && (s.descFails 0 { wD raw with started := true, startAt := s.time }).isEmpty

/-- NOP with no completion object. -/
def rawNop : Nat := 0xFFFF * 2 ^ 32
/-- Flush of one page. -/
def rawFlush : Nat := rawNop + 6 + 4096 * 2 ^ 192
/-- Scrub of one frame, its summary at 0x10000. -/
def rawScrub : Nat := rawNop + 5 + 65536 * 2 ^ 192 + 65536 * 2 ^ 256
/-- Fill of one line. -/
def rawFill : Nat := rawNop + 3 + 64 * 2 ^ 256 + 7 * 2 ^ 384
/-- Copy of one line to 64. -/
def rawCopy : Nat := rawNop + 2 + 64 * 2 ^ 192 + 64 * 2 ^ 256
/-- Hint `h` with level `lv` over one frame. -/
def rawHint (h lv : Nat) : Nat := rawNop + 4 + 65536 * 2 ^ 192 + h * 2 ^ 256 + lv * 2 ^ 264
/-- Launch with its argument block at 0. -/
def rawLaunch : Nat := rawNop + 1

/-- DescriptorsStartAndEnd: NOP, flush and scrub start; an unknown type fails; a flush that awaits nothing. -/
theorem witness_descriptors : startsOk (wDesc rawNop) rawNop = true ∧ startsOk (wDesc rawFlush) rawFlush = true ∧ startsOk (wDesc rawScrub) rawScrub = true ∧
    (wD rawFlush).fld 0 1 = 6 ∧ (wDesc rawFlush).resolve 0 0 4096 = some (0, 0) ∧ (wDesc (rawNop + 8)).descFails 0 (wD (rawNop + 8)) ≠ [] ∧
    (∀ k ∈ [2, 3, 5, 6], (wDesc (rawNop + k + 2 ^ 16)).descFails 0 (wD (rawNop + k + 2 ^ 16)) ≠ []) ∧
    ([⟨.part 0, []⟩, ⟨.desc 0 0, []⟩] : List Flush).any (fun f => f.who == .part 0 && f.pages.isEmpty) = true := by decide +kernel

/-- CopiesAndFillsMoveData: a fill and a copy of one line start, the line can be read and written; a copy from host memory; a completion that nothing awaits and one that the copy awaits. -/
theorem witness_moves : startsOk (wDesc rawFill) rawFill = true ∧ startsOk (wDesc rawCopy) rawCopy = true ∧ (wD rawFill).fld 0x20 8 = 64 ∧ (wD rawCopy).fld 0x18 8 = 64 ∧
    (let s := wDesc rawFill; s.inFrozen 0 0 64 = false ∧ (match (s.putRun (.desc 0 0) (reqComp 0) (s.compLevel 0 0 0) 0 0 64 (7 * ((256 ^ 64 - 1) / (2 ^ 64 - 1))) 0 3).2 with | (64, .done) => true | _ => false) = true) ∧
    (match ((wDesc rawCopy).getBytes (reqComp 0) 0 0 64).2 with | .ok _ => true | _ => false) = true ∧
    (let s := (wDesc (rawCopy + 2 ^ 320)).setLd 0 0 { bme := true }; startsOk s (rawCopy + 2 ^ 320) = true ∧ (s.ld 0 0).bme = true ∧ s.linkGone 0 = false) ∧
    takeFirst (fun (x : Nat × Nat × Nat) => x.1 == 3) [] = none ∧ takeFirst (fun (x : Nat × Nat × Nat) => x.1 == 3) [(3, 0, 0)] = some ((3, 0, 0), []) := by decide +kernel

/-- HintsActOnTheirFrames: each hint starts; a pin of one frame fits; a pin of tier 1 does not fit a partition without tier 1. -/
theorem witness_hints : startsOk (wDesc (rawHint 0 0)) (rawHint 0 0) = true ∧ startsOk (wDesc (rawHint 1 1)) (rawHint 1 1) = true ∧ startsOk (wDesc (rawHint 2 0)) (rawHint 2 0) = true ∧
    startsOk (wDesc (rawHint 3 0)) (rawHint 3 0) = true ∧ (wDesc (rawHint 1 1)).pinFits 0 0 65536 1 = true ∧
    (State.setFrame { wDesc (rawHint 1 1) with parts := [(0, { cfg := some { wRec with quota0 := 0, quota1 := 0 } })] } 0 0
      { state := .homed, home := 1, pages := List.replicate 16 { codec := 0, allot := 64, len := 4096 } }).pinFits 0 0 65536 1 = false := by decide +kernel

/-- CompletionsAreWrittenBack: an ended descriptor whose slot can be written, and one whose ring lies past the partition; an ended scrub pass. -/
theorem witness_completions : (let s := wDesc rawNop; s.inFrozen 0 0 64 = false ∧ 0 + 64 ≤ s.apparent 0 ∧ (wD rawNop).fld 4 2 = 0xFFFF ∧ s.mirSync 0 = false ∧ s.mirRole 0 ≠ 1 ∧
      (match (s.putRun (.desc 0 0) (reqComp 0) (s.compLevel 0 0 0) 0 8 8 0 0 4).2.2 with | .done => true | _ => false) = true) ∧
    wBase.apparent 0 < ((wBase.wr .qdRingBase (BitVec.ofNat 64 (2 ^ 30)) 0).rd .qdRingBase 0).toNat + 64 ∧
    (let s := wDesc rawScrub; let d : DescSt := { wD rawScrub with started := true }
     let x := (s.scrubSpan 0 0 65536 false false); (x.1.putSummary 0 0 d (x.2.record 0 0 false) true).2 = true) := by decide +kernel

/-- KernelsLaunchAndDispatch: a launch of a partition with and without compute clusters, in Daylight and below it; a queued kernel with and without free clusters, tile program and library kernel. -/
theorem witness_launch : (let s := wDesc rawLaunch; s.mayStart 0 (wD rawLaunch) = true ∧ s.descFails 0 (wD rawLaunch) = [] ∧ s.hup.flushAt = none ∧ s.rdF .pwrState 0 2 = 0 ∧ s.rdB .pwrState 7 = false ∧ s.rdB .strStatus 5 = false ∧
      (s.part 0).comp = 0 ∧ (match (s.readArgs 0 0).2 with | .ok _ => true | _ => false) = true ∧ (s.wrF .pwrState 0 2 1).rdF .pwrState 0 2 ≠ 0) ∧
    (let k : KernelSt := { id := 0, part := 0, queue := 0, count := 0, block := [0, 0, 0, 0, 1] }
     let s : State := { wBase with parts := [(0, { cfg := some wRec, comp := 3 })], comp := { wBase.comp with kernels := [k] } }
     s.pickLaunch 0 = some k ∧ k.arg 4 1 ≤ (s.freeClusters 0).length ∧ k.lid = 0 ∧ s.resolve 0 (k.arg 0x10 8) (k.arg 0x18 4) = some (0, 0) ∧ s.quarantined 0 = false ∧
     ({ s with parts := [(0, { cfg := some wRec })] } : State).freeClusters 0 = [] ∧ ({ k with block := [1, 0, 0, 0, 1] } : KernelSt).lid ≠ 0) := by decide +kernel

/-- KernelsEndAndTimeOut: running kernels with a time limit, a fault, ended cores, and of the library; a wait on flash. -/
theorem witness_kernel_ends : (let s := wCode 0; (s.kernel 0).map (fun k => (k.running, k.fault, k.lid, k.cores.length)) = some (true, none, 0, 8) ∧ (s.core 0).ended = false ∧
      (s.setCore 0 { s.core 0 with ended := true }).core 0 = { s.core 0 with ended := true }) ∧
    ({ id := 0, part := 0, queue := 0, count := 0, block := [1, 0, 0, 0, 0, 0, 5, 0] } : KernelSt).arg 6 2 = 5 ∧
    (let s := wBase.setFrame 0 0 { state := .homed, home := 2, pages := List.replicate 16 { codec := 0, allot := 64, len := 4096 } }; s.fromFlash 0 0 = true) := by decide +kernel

/-! Witnesses: host memory requests. -/

/-- HostReadsAreMatchedAndServed, HostWritesAndInvalidatesComplete, HostsReachOnlyTheirRanges: a request that meets the private range, one past it, one of an LD without a binding, one while the partition is inactive, one during a switchover. -/
theorem witness_host_requests : wBase.linkCarries 0 = true ∧ wBase.ideBlocked 0 = false ∧ (match wBase.hostMatch 0 0 64 with | .hit 0 0 _ 64 => true | _ => false) = true ∧
    (match wBase.hostMatch 0 0 (2 ^ 30) with | .unmatched 0 => true | _ => false) = true ∧ (match wBase.hostMatch 0 1 0 with | .unbound => true | _ => false) = true ∧
    (match (wBase.wrB .prtState 0 false 0).hostMatch 0 0 0 with | .inactive 0 => true | _ => false) = true ∧
    ((wBase.setMirPart 0 { switching := some 0 }).mirPart 0).switching.isSome = true ∧ (wBase.mirPart 0).switching = none ∧ wBase.inFrozen 0 64 64 = false ∧
    ({ wBase with iso := [(0, some ⟨.frozen, 0, 0, 2 ^ 30, 0, 0, false⟩)] } : State).inFrozen 0 64 64 = true := by decide +kernel

/-- HostReadsAreMatchedAndServed: a link whose IDE is required and not secure is blocked; the base link is not. -/
theorem witness_ide_blocked : (wBase.setLink 0 { idePolicy := 2 }).ideBlocked 0 = true := by decide +kernel

/-- A slot of page 0 of partition 0. -/
def wSlot : SlotSt := { hub := 0, part := 0, page := 0, state := .filling, filled := true }

/-- A state with one slot. -/
def wSlotState (x : SlotSt) : State := { wBase with lens := { wBase.lens with slots := [x] } }

/-- OpenSlotServesReads: a filled slot without damaged lines. -/
theorem witness_open_slot : (wSlotState wSlot).shwBuf 0 0 = none ∧ (wSlotState wSlot).slot 0 0 = some wSlot ∧ wSlot.lineReady 5 = true ∧ wSlot.bad.getLsbD 5 = false ∧ (wSlotState wSlot).linkGone 0 = false := by decide +kernel

/-- MergeSlotEvents: an unfilled and a filled slot; a sealed slot that a free Lens unit can take; an encoding slot whose commit finds room; a held write and a deferred write-back. -/
theorem witness_merge_slots : ((wSlotState { wSlot with filled := false }).slot 0 0).map (·.filled) = some false ∧
    (wSlotState wSlot).slotsFree 0 ≠ 0 ∧ wBase.rdB .lnsPFlushCtrl 0 0 = false ∧ (wBase.setB .eccCtrl 0).rdB .eccCtrl 0 = true ∧ hubOf 0 = 0 := by decide +kernel

/-- MergeSlotEvents: the Lens unit that takes the sealed slot is idle. -/
theorem witness_encode : (wSlotState { wSlot with state := .sealed }).rdB .lnsUStatus 0 0 = false ∧
    leastBy (fun (x : SlotSt) => (7 - x.level) * 2 ^ 64 + x.sealAt) ((wSlotState { wSlot with state := .sealed }).encodable 0) = some { wSlot with state := .sealed } := by decide +kernel

/-- MergeSlotEvents: a commit of a zero page finds room. -/
theorem witness_commit : ((wSlotState { wSlot with state := .encoding, snap := some (0, 0) }).commitContent 0 0 0 0 0 0).2 = true := by decide +kernel

/-- WrittenLineReadsBack, PoolPagesReadBack, HeatCountersHalveTogether: the bounds of their operands. -/
theorem witness_bounds : (63 : Nat) < 64 ∧ (2 ^ 35 - 1 : Nat) < 2 ^ 35 ∧ (List.replicate 16 255).length = 16 ∧ (∀ x ∈ List.replicate 16 (255 : Nat), x ≤ 255) ∧ (15 : Nat) < 16 := by decide

/-- TierManagerEvents: a homed frame without a queued move; a running move; a hub with a move to start; a page of tier 2; a held read past its ceiling; map reads inside and outside the partition. -/
theorem witness_tiers :
    (let s := wBase.setFrame 0 0 { state := .homed, home := 1 }
     (s.frame 0 0).state ≠ .zero ∧ s.moveOf 0 0 false = none ∧ (s.copyPages 0 0 (s.frame 0 0) (s.homeCopy (s.frame 0 0)) false).bad = none) ∧
    wBase.hubsOff = false ∧ (wBase.wrF .pwrState 0 2 2).hubsOff = true ∧ wBase.apparent (fld (wBase.rd .tirMapAddr) 60 4) > fld (wBase.rd .tirMapAddr) 16 31 * 65536 ∧ (wBase.setFrame 0 0 { pin := 2 }).resident 0 0 = true ∧
    ((wBase.setFrame 0 0 { pin := 2 }).frame 0 0).state = .zero ∧ ((wBase.setFrame 0 0 { pin := 2 }).frame 0 0).mapBad = 0 ∧
    (let s := wBase.wr .tirMapAddr (BitVec.ofNat 64 (16384 * 65536)); s.apparent (fld (s.rd .tirMapAddr) 60 4) ≤ fld (s.rd .tirMapAddr) 16 31 * 65536) := by decide +kernel

/-- TierManagerEvents: a hub with one move to start. -/
theorem witness_move_start :
    let m : Move := { part := 0, frame := 0, cls := 1, kind := .goHome, target := 1 }
    let s : State := { wBase with tier := { wBase.tier with moves := [m] } }
    s.nextMove 0 = some m ∧ s.migActive 0 < 256 ∧ s.nightBound = false ∧ s.hubHot 0 = false ∧ s.fpDown 3 = false ∧ s.fpDown 4 = false := by decide +kernel

/-- RelocatedFramesMoveHome: a frame with a run in the relocation area and room at its home. -/
theorem witness_relocated :
    let e : FrameSt := { state := .homed, home := 1, reloc := true, pages := List.replicate 16 { codec := 0, allot := 64, len := 4096 } }
    let s := wBase.setFrame 0 0 e
    (s.frame 0 0).reloc = true ∧ (s.frame 0 0).hasRun = true ∧
    (match s.moveDest { part := 0, frame := 0, cls := 1, kind := .goHome, target := 1 } e with | .at_ _ 1 _ => true | _ => false) = true := by decide +kernel

/-! Witnesses: memory upkeep, quality of service, carriers. -/

/-- A byte lane whose read delay stands 8 taps above its swept centre. -/
def wLane : LaneSt := { readDelay := 28, readEye := 24, writeDelay := 20, writeEye := 24, readDrift := 8 }

/-- MemoryUpkeepEvents: a lane of a controller, and one that stands 8 taps from its centre; an empty queue and one with a refresh; throttles of two windows and of one; a lost channel of group 0 with its spare present, and no rebuild running; a rebuild at its end; an open gather window. -/
theorem witness_memory_upkeep :
    (∀ k ∈ [ctrlId (.lpc 3), ctrlId (.hbc 3)], (Store.get [] k (Store.set [] k [wLane] []))[0]? = some wLane) ∧
    wLane.drifted = false ∧ (wLane.shift ⟨0, false, true⟩).drifted = true ∧ (wLane.shift ⟨0, true, true⟩).drifted = false ∧
    wBase.dram.queue = [] ∧ [({ bank := 0 } : CtrlReq), { bank := 0, refresh := true }].findIdx? (·.refresh) = some 1 ∧
    (∀ x ∈ [((3, 1, 2) : Nat × Nat × Nat)], 2 ≤ x.2.2) ∧
    (let s := ((wBase.wrF .lpcCState 0 3 2 5).wrF .lpcGroupState 0 2 1)
     s.rdB .lpcRebuildCtrl 0 = false ∧ (List.range 16).find? (fun i => (s.rdF .lpcCState 0 3 (17 * 0 + i) == 2 || s.rdF .lpcCState 0 3 (17 * 0 + i) == 4) && s.rdF .lpcGroupState (4 * (2 * 0 + i / 8)) 2 == 1) = some 5 ∧
     s.rdB .lpcSpare 6 = false ∧ s.rdF .lpcCState 0 3 16 ≠ 4) ∧
    (let s := ((wBase.wrF .lpcCState 0 3 3 16).wrF .lpcCState 8 2 1 16).wrF .lpcGroupState 4 2 2
     s.rdF .lpcCState 0 3 (17 * 0 + 16) = 3 ∧ s.rdF .lpcGroupState (4 * s.rdF .lpcCState 8 2 (17 * 0 + 16)) 2 = 2) ∧
    (∀ x ∈ [none, some ({ reg := .lnkEvent } : EvRec)], Store.get none (gatherKey 1 0) [(gatherKey 1 0, some ({ opened := 0, first := x } : Gather))] = some { opened := 0, first := x }) := by decide +kernel

/-- QosEvents: one class without a guarantee; a read that waits; a pin asserted for 10 ms, and one that is not. -/
theorem witness_qos : (wBase.qosRec 0).classes = [⟨0, 0, false⟩] ∧ (wBase.classRec 0 0).guaranteed = false ∧
    (let r : HeldRead := { link := 0, ld := 0, tag := 7, hpa := 0, reqPart := 0, owner := 0, addr := 0, level := 1, at_ := 0, fill := false }
     r.link = ((0 : LinkId) : Nat) ∧ r.tag = 7 ∧ wBase.lens.heldW = []) ∧
    wBase.rdB .qosUrgPins 0 = false ∧ (let s := (wBase.setB .qosUrgPins 0).pinSince 0 (some 5); s.rdB .qosUrgPins 0 = true ∧ s.rdB .qosUrgPins 4 = false ∧ s.qos.pinAt.getD 0 none = some 5) := by decide +kernel

/-- CarrierMediaEvents: timeouts below and at the eighth; a rebuild, an evacuation and a restripe, with stripes exposed and none; a carrier to adopt. -/
theorem witness_carrier_media :
    ((wBase.bay 0).expiries.filter (fun t => wBase.time < t + 1000000000)).length < 7 ∧
    (let s := wBase.setBay 0 { wBase.bay 0 with expiries := List.replicate 7 0 }; 7 ≤ ((s.bay 0).expiries.filter (fun t => s.time < t + 1000000000)).length) ∧
    (∀ n ∈ [2, 4, 5, 7], (wBase.setBayState 0 n).bayState 0 = n) ∧ wBase.flash.exposed = 0 ∧ ({ wBase.flash with exposed := 3, restriping := true } : FlashSt).exposed ≠ 0 ∧
    (wBase.bay 0).live = 0 ∧ ({ wBase.bay 0 with live := 2 } : BaySt).live ≠ 0 := by decide +kernel

/-- BaySlotEvents: a second press within 200 ms and a first one; each state of a bay; an open removal window and a power-on window; PRESENT, power and the REMOVE policy at 0 and 1. -/
theorem witness_bays :
    (let s := wBase.setBay 0 { wBase.bay 0 with pressedAt := some 0 }; (s.bay 0).pressedAt = some 0 ∧ s.time < 0 + 200000000) ∧
    (wBase.bay 0).pressedAt = none ∧ (0 < wBase.flash.bays.length) ∧ (wBase.bay 0).window = none ∧ wBase.bayState 0 = 0 ∧
    (let s := wBase.setBayState 0 3; s.bayState 0 = 3 ∧ s.rdB .carBSlotCtrl 7 0 = false ∧ s.arrayNotWhole 0 = false) ∧
    (∀ r ∈ [true, false], ((wBase.setBay 0 { wBase.bay 0 with window := some (r, 0) }).bay 0).window = some (r, 0)) ∧
    (∀ b ∈ [true, false], (wBase.wrB .carBSlotCtrl 5 b 0).rdB .carBSlotCtrl 5 0 = b ∧ (wBase.wrB .carBSlotStatus 0 b 0).rdB .carBSlotStatus 0 0 = b ∧ (wBase.wrB .carBSlotStatus 1 b 0).rdB .carBSlotStatus 1 0 = b) := by decide +kernel

/-! Witnesses: CXL mailbox, firmware, hold-up. -/

/-- CxlMailboxCommands, CxlMailboxQueriesOnlyAnswer: the mailbox reaches partition 0; a line of its private range; a log with a record and its handle; an LD without a binding and a link without traffic. -/
theorem witness_cxl_mailbox : wBase.linkCarries 0 = true ∧ wBase.bound 0 0 = some 0 ∧ wBase.inPrivate 0 0 64 = true ∧ (wBase.mboxLine 0 0 0 true).2 = 0 ∧ (wBase.mboxLine 0 0 5 false).2 = 0 ∧
    (let d : LdSt := { log := [(2, { reg := .lnkEvent, handle := 9 })] }; ∀ h ∈ [9], ∃ e ∈ d.log, e.1 = 2 ∧ e.2.handle = h) ∧ 0 + 4096 ≤ wBase.apparent 0 ∧
    wBase.bound 0 1 = none ∧ wBase.linkCarries 1 = false := by decide +kernel

/-- The state of a running module. -/
def wRun : State := wBase.wrF .strStartState 0 4 6

/-- FirmwareUpdateProtocol: FP1 answers outside a hand-over; a component whose check passes and one whose signature fails; each PLDM state; a hand-over. -/
theorem witness_update : wRun.pldmUp = true ∧ wRun.handover = false ∧ wRun.fw.pldm = 0 ∧
    (let c : Component := { id := 1, version := 0, security := 0, signatureOk := true, digest := 0, kernels := 0 }
     let s : State := { wRun with fw := { wRun.fw with pldm := 2, table := [c] } }
     s.componentCheck { c with version := s.rdF .fwmVersion 56 8 * 2 ^ 56, security := s.rdF .fwmSecVersion 0 16 } = 0 ∧ s.componentCheck { c with id := 3 } ≠ 0) ∧
    (let s : State := { wRun with hup := { wRun.hup with flushAt := some 0 } }; s.pldmUp = true ∧ s.handover = true) := by decide +kernel

/-- FirmwareProcessorEvents: running processors, an unwritten and a written key slot, a halted processor, an event and its handle; a fourth restart within 60 s; front-end processors up and down. -/
theorem witness_processors : wRun.fwRuns = true ∧ wRun.fpDown 1 = false ∧ wRun.fpDown 0 = false ∧ wRun.feDown = false ∧ wRun.img.keys.getD 1 none = none ∧ [none, some (5 : BitVec 768), none, none].getD 1 none = some 5 ∧
    wRun.rdF .fwmPState 0 2 4 = 0 ∧ (wRun.wrF .fwmPState 0 2 2 4).rdF .fwmPState 0 2 4 = 2 ∧ (wRun.fw.restarts.getD 4 []).length < 3 ∧
    [({ reg := .lnkEvent, handle := 9 } : EvRec)].findIdx? (fun r => r.handle == 9) = some 0 ∧
    (let l := [0, 1, 2]; 3 ≤ l.length ∧ (l.drop (l.length - 3)).head? = some 0 ∧ wRun.time ≤ 0 + 60 * 10 ^ 9) ∧
    (wRun.wrF .fwmPState 0 2 1 5).feDown = true ∧ (wRun.wrF .fwmPState 0 2 1 2).fpBusy 2 = true ∧ (wRun.wrF .fwmPState 0 2 1 6).fpDown 6 = true := by decide +kernel

/-- HoldUpEvents: no computation or sample yet; a test that may start and one that may not; a test that runs; a low input of 50 µs or less; PHASE below 8; a hand-over with the input lost. -/
theorem witness_hold_up : wRun.hup.limitAt = none ∧ wRun.hup.sampleAt = none ∧ wRun.rdB .hupStatus 5 = false ∧ (wRun.wrF .hupStatus 0 3 2).rdF .hupStatus 0 3 = 2 ∧ (wRun.wrF .hupStatus 0 3 1).rdF .hupStatus 0 3 ≠ 2 ∧
    (wRun.setB .hupStatus 5).rdB .hupStatus 5 = true ∧ 4 * 29170 ≤ 5 * min (4000000 / 137) 65535 ∧ 5 * min (4000000 / 400) 65535 < 4 * 29170 ∧
    wRun.hup.lowAt = none ∧ wRun.time < 0 + 50000 ∧ wRun.rdF .strStartState 0 4 ≠ 8 := by decide +kernel

/-- HoldUpEvents: the end of a hand-over. -/
theorem witness_hand_over : (let s : State := { wRun with hup := { wRun.hup with flushAt := some 0, trip := true } }
    s.handover = true ∧ ((s.flushDurable none).handoverEnd (s.flushDurable none).journalsWhole).hup.trip = true) := by decide +kernel

/-! Witnesses: links, mirroring. -/

/-- A partner of full capability. -/
def wPeer : Partner := { switch := false, cxl := true, flit256 := true, loFlit := true, rates := [16, 32, 64], width := 16, l0p := true, ide := true, retimers := 0 }

/-- LinkEvents: a link that may train and the rate it settles on; each state of a link; its rate armed; L0p, ASPM and IDE in force; late crossings. -/
theorem witness_links : (let s := (wRun.setB .strStartState 4).wrF .lnkStatus 0 4 1 0; s.mayTrain 0 = true ∧ s.linkState 0 = 1 ∧ s.settleRate 0 wPeer ≠ 0) ∧
    (∀ n < 9, (wRun.setLinkState 0 n).linkState 0 = n) ∧ (wRun.setB .cylRateStatus 0 0).rdB .cylRateStatus 0 0 = true ∧
    (let s := (((wRun.wrF .lnkStatus 8 5 16 0).wrF .lnkStatus 13 5 8 0).setB .lnkCtrl 0 0).setB .lnkCtrl 1 0
     s.linkCarries 0 = true ∧ s.rdB .lnkCtrl 0 0 = true ∧ s.rdF .lnkStatus 13 5 0 = 8 ∧ 8 < min (s.rdF .lnkStatus 8 5 0) (s.widthCap 0) ∧ s.rdB .lnkCtrl 1 0 = true ∧ s.linkIdle 0 = true) ∧
    (wRun.part 0).cfg.isSome = true ∧ Store.get none (16 * 0 + 5) wRun.binding = none ∧ wRun.cross.late = [] ∧
    (let t := (((wRun.flushSlots (fun _ => true)).releaseWrites 0).releaseWrites 1).flushSlots (fun _ => true); t.lens.heldW = [] ∧ ∀ x ∈ t.lens.slots, x.written = 0) := by decide +kernel

/-- The state with partition 0 in mirror role `r` and state `n`, and link 0 of the mirror up. -/
def wMirror (r n : Nat) : State := ((wRun.wrF .mirPState 0 2 r 0).wrF .mirPState 4 4 n 0).wrF .mirStatus 0 2 3

/-- MirrorEvents: a primary that mirrors, in either mode; a secondary; each state that a command asks for; a lost partner; takeover configured and not; a hello that is not bad. -/
theorem witness_mirror : (let s := wMirror 1 3; s.mayClose 0 = true ∧ s.mirState 0 = 3 ∧ s.mirAsync 0 = false ∧ (s.setB .mirPState 8 0).mirAsync 0 = true ∧ s.anyReflect = true ∧ s.mirRole 0 = 1 ∧
      (s.mirPart 0).snapEpoch = none ∧ (s.mirPart 0).switchEpoch = none ∧ (s.mirPart 0).switching = none ∧ s.reflectUp 0 = true ∧ s.mir.replays.getD 0 0 < 4 ∧ s.mayFence 0 = false ∧ s.switchIdle 0 = true) ∧
    (wMirror 2 2).mirRole 0 = 2 ∧ (wMirror 2 2).mirState 0 = 2 ∧ ((wMirror 2 2).mirPart 0).recv = [] ∧ ((wMirror 2 2).mirPart 0).retried = [] ∧
    (let m : MirrorRec := { timeoutUs := 1000, entries := [⟨1, false, true, 100⟩] }
     let i : Image := { kind := 0, target := 0, sequence := 1, minFw := 0, records := [.mirror m], digest := 0 }
     let s : State := { wMirror 1 3 with img := { wRun.img with inForce := some i }, mir := { wRun.mir with lostAt := some 0 } }
     s.mayFence 0 = true ∧ ({ wMirror 2 6 with img := { wRun.img with inForce := some i }, mir := { wRun.mir with lostAt := some 0 } } : State).mayFence 0 = false ∧
       (s.mirEntry 0).takeover = true ∧ s.mir.lostAt.isSome = true) ∧
    (∀ n ∈ [0, 2, 4, 5, 6, 9], (wMirror 1 n).mirState 0 = n) ∧ ((wMirror 2 6).setB .mirPState 9 0).hasCopy 0 = true ∧
    ((wMirror 1 2).rebuildMove 0 ((wMirror 1 2).framesOf 0).length).mirAsync 0 = false ∧ (((wMirror 1 2).setB .mirPState 8 0).rebuildMove 0 0).mirAsync 0 = true ∧
    (let s := wRun.setB .strStartState 4
     s.mir.barred = false ∧ s.portsReady = true ∧ s.reflectUp 0 = false ∧ s.helloBad 0 ⟨1, 0, s.rdF .strStraps 0 2 == 2, !(s.rdF .strStraps 0 2 == 2), s.rdF .fwmVersion 56 8, true, 64, []⟩ = false) := by decide +kernel

/-! Witnesses: partitions, power, resets. -/

/-- The shadow window selects partition 0 and shows its frame 0. -/
def wShadow : State := { ((wRun.setB .shwOwner 4).wrF .shwOwner 0 4 0) with shw := { wRun.shw with cur := some { index := 0 } } }

/-- PartitionControls: a quiescing idle partition; quarantine with the processors up and down; an armed liveness watchdog; the shadow window with its index in and out of range; a swap that runs and one written back. -/
theorem witness_partition : (let s := wRun.wrB .prtQuiesceCtrl 0 true 0; s.rdB .prtQuiesceCtrl 0 0 = true ∧ s.rdB .prtState 2 0 = false ∧ s.idlePart 0 = true) ∧ wRun.reloading 0 = false ∧ wRun.comp.kernels = [] ∧
    wRun.fpDown 5 = false ∧ wRun.fpDown 9 = false ∧ (wRun.wrF .fwmPState 0 2 1 9).fpDown 9 = true ∧ (∀ b ∈ [true, false], (wRun.wrB .prtState 4 b 0).rdB .prtState 4 0 = b) ∧
    (wRun.wrF .prtLivenessTimeout 0 14 5 0).rdF .prtLivenessTimeout 0 14 0 ≠ 0 ∧ (∀ d ∈ [1, 2], wRun.departed d = false ∧ (wRun.wrF .pwrState 0 2 2).departed d = true) ∧ wRun.memActive 0 = true ∧ (wRun.wrB .prtState 0 false 0).memActive 0 = false ∧ wRun.linkGone 0 = false ∧
    wShadow.shwOwner = some 0 ∧ wRun.shwOwner ≠ some 0 ∧ wShadow.quarantined 0 = false ∧ wShadow.shw.cur = some { index := 0 } ∧ wShadow.shw.old = none ∧
    shwAddr 0 + 2 ^ 20 ≤ wShadow.apparent 0 ∧ wShadow.shwDenied 0 0 = false ∧ wShadow.shwDenied 0 1 = false := by decide +kernel

/-- PartitionControls: a swap whose frame needs no flash read, and a buffer with nothing to write back. -/
theorem witness_shadow_swap : (wShadow.shwFetch 0 1).2 = false ∧ (wShadow.writeBackBuf 0 { index := 0 }).2 = [] := by decide +kernel

/-- PowerEvents: each power state; a drain that has ended and one that has not; a transition that goes on; a wake that may act; the module's sideband address and another. -/
theorem witness_power : (let s := (wRun.setB .pwrState 7).wrF .pwrState 2 2 1; s.entryDraining = true ∧ s.drained = true ∧ s.rdF .pwrState 2 2 < 2) ∧
    (let s := (wCode 0).setB .pwrState 7 |>.wrF .pwrState 2 2 1; s.entryDraining = true ∧ s.drained = false) ∧
    (let s := ((wRun.setB .pwrState 7).wrF .pwrState 2 2 1).wrF .pwrState 8 4 1; s.rdB .pwrState 7 = true ∧ s.entryDraining = false ∧ s.handover = false ∧ s.rdF .pwrState 0 2 < s.rdF .pwrState 2 2) ∧
    (∀ n < 4, (wRun.wrF .pwrState 0 2 n).rdF .pwrState 0 2 = n) ∧ (wRun.setB .pwrCtrl 2).rdB .pwrCtrl 2 = true ∧ wRun.rdF .pwrCtrl 0 2 < 2 ∧
    wRun.sbAddress (BitVec.ofNat 7 (0x58 + wRun.rdF .strStraps 6 3)) = true ∧ wRun.sbAddress 1 = false := by decide +kernel

/-- ResetAndImageEvents: a short and a long pulse; PHASE 6, 7 and below 6; a load that runs and none; a held cold start; a staged image that is refused. -/
theorem witness_resets : wRun.rdF .strStartState 0 4 = 6 ∧ wBase.rdF .strStartState 0 4 < 6 ∧ (wRun.wrF .strStartState 0 4 7).rdF .strStartState 0 4 = 7 ∧ wRun.handover = false ∧ wRun.img.loading = false ∧ wRun.img.heldReset = none ∧
    wRun.start.coldAfter = false ∧ (wRun.coldReset 1).start.held = true ∧ (wRun.flushDurable none).start.coldAfter = false ∧ wRun.rdB .pwrState 7 = false ∧ wRun.fpDown 0 = false ∧
    (match wRun.validate (fun _ => 0) true with | .bad _ 0xFFFF => true | _ => false) = true := by decide +kernel

/-! Witnesses: clauses with boundaries of their own. -/

/-- A frame of partition 0 whose run stands on flash. -/
def wFlash : State := wBase.setFrame 0 0 { state := .homed, home := 2, pages := List.replicate 16 { codec := 0, allot := 64, len := 4096 } }

/-- The statements that take the canonical form as a premise: states of these witnesses have it. -/
theorem witness_canonical : wBase.Canonical ∧ wRun.Canonical ∧ (wMirror 1 3).Canonical ∧ wShadow.Canonical ∧ (wCode 0).Canonical ∧ wFlash.Canonical := by
  refine ⟨?_, ?_, ?_, ?_, ?_, ?_⟩ <;> constructor <;> decide +kernel

/-- IdleStepPassesOneNs: no rebuild, and one that runs alone. -/
theorem witness_idle : wBase.pending = [] ∧ wBase.rebuilding 0 = false ∧ wBase.rebuilding 1 = false ∧
    (let s := wBase.wrF .lpcGroupState 0 2 2; s.rebuilding 0 = true ∧ s.rebuilding 1 = false ∧ (s.rd .lpcRebuildPtr 0).toNat < 2 ^ 31) := by decide +kernel

/-- ReadsReturnValueAndLatch: a register with measured bits and a bit that is stored, and the error counter LNK_ERR_CORR. -/
theorem witness_measured : measuredBits RegName.lpcCTemp ≠ 0 ∧ (measuredBits RegName.lpcCTemp).testBit 10 = false ∧ measuredBits RegName.lnkErrCorr = 0 := by decide +kernel

/-- A kernel whose core 0 is at a BAR of scope 1, whose cores 1 to 6 have ended, and whose core 7 is as `x` says. -/
def wBar (x : CoreSt) : State :=
  (List.range 8).foldl (fun s c => s.setCore c (if c = 0 then { s.core 0 with atBar := some 1 } else if c = 7 then x else { ended := true })) (wCode 0)

/-- PagesArriveAndBarriersRelease: a running tile kernel; core 0 goes on where core 7 has come to the BAR, and not where it has not. -/
theorem witness_barrier_release : (∀ x ∈ [({ atBar := some 1 } : CoreSt), {}], ((wBar x).kernel 0).map (fun k => (k.running, k.lid, k.fault, decide k.clusters.Nodup, k.cores)) = some (true, 0, none, true, [0, 1, 2, 3, 4, 5, 6, 7])) ∧
    ((wBar {}).core 7).ended = false ∧ ((wBar { atBar := some 1 }).core 0).atBar = some 1 ∧
    (∀ d ∈ [0, 1, 2, 3, 4, 5, 6, 7], ((wBar { atBar := some 1 }).core d).ended = true ∨ ((wBar { atBar := some 1 }).core d).atBar = some 1) := by decide +kernel

/-- R457: BARRIER_RELEASE lets core 0 go on at the last arrival, and not before. -/
theorem test_barrier_release :
    (match exec (.barrierRelease 0 1) (wBar { atBar := some 1 }) with | .next t => ((t.core 0).atBar == none && (t.core 0).pc == 1) | _ => false) = true ∧
    (match exec (.barrierRelease 0 1) (wBar {}) with | .next t => (t.core 0).atBar == some 1 | _ => false) = true := by decide +kernel

/-- DescriptorsStartAndEnd, SyncCommandsReachTheirObject: neither quarantine nor quiescence holds the partition; and quiescence holds one. -/
theorem witness_start_held : (wDesc rawNop).startHeld 0 = false ∧ ((wDesc rawNop).wrB .prtQuiesceCtrl 0 true 0).startHeld 0 = true := by decide +kernel

/-- CopiesAndFillsMoveData: a copy from host memory asks at most Max_Read_Request_Size within 4 KiB, and an IoTag that its descriptor awaits. -/
theorem witness_host_copy :
    (let raw := rawCopy + 2 ^ 320
     let s := (wDesc raw).setLd 0 0 { bme := true }
     (wD raw).fld 0 1 = 2 ∧ (wD raw).fld 0x28 1 = 1 ∧ (wD raw).asked = 0 ∧ (wD raw).fld 0x20 8 ≤ (s.ld 0 0).mrrs ∧ (wD raw).fld 0x10 8 % 4096 + (wD raw).fld 0x20 8 ≤ 4096 ∧ (s.link 0).ioTags.length < 768 ∧
       (wD raw).fromHost = true ∧ ({ wD raw with asked := 64 } : DescSt).fld 0x20 8 ≤ 64) ∧
    (let x : IoTag := { tag := 3, q := some 0, n := 0, off := 0, len := 64 }
     (takeFirst (fun (y : IoTag) => y.tag == 3) [x]) = some (x, []) ∧ takeFirst (fun (y : IoTag) => y.tag == 4) [x] = none) := by decide +kernel

/-- HostReadsAreMatchedAndServed: a hit needs the LD's Memory_Active; without it the binding is inactive. -/
theorem witness_memory_active : (wBase.ld 0 0).memActive = true ∧ (match (wBase.ldActive 0 0 false).hostMatch 0 0 0 with | .inactive 0 => true | _ => false) = true := by decide +kernel

/-- A host write of line 0 of partition 0. -/
def wWrite : HeldWrite := { link := 0, ld := 0, tag := 7, hpa := 0, reqPart := 0, owner := 0, addr := 0, data := 0, be := 0, poison := false, level := 3, at_ := 0 }

/-- MergeSlotEvents: a page that is not on flash and one that is; an encoding slot with its snapshot, of a correction and not; one held write of hub 0; a deferred write-back; units of both kinds for a flip mask. -/
theorem witness_merge_more : wBase.flashPage 0 0 = false ∧ wFlash.flashPage 0 0 = true ∧ wFlash.ftlDown (some 0) = false ∧
    (∀ b ∈ [true, false], let x := { wSlot with state := .encoding, snap := some (0, 0), corr := b }; (wSlotState x).slot 0 0 = some x ∧ x.state = .encoding) ∧
    (wSlotState { wSlot with state := .sealed }).rdB .lnsUStatus 0 0 = false ∧
    ({ wBase with lens := { wBase.lens with heldW := [wWrite] } } : State).lens.heldW = [wWrite] ∧ hubOf (wWrite.addr / 65536) = ((0 : HubId) : Nat) ∧
    (let s : State := { wBase with lens := { wBase.lens with wb := [(0, 0, 5)] } }; s.slotsFree 0 ≠ 0 ∧ s.lens.wb = [(0, 0, 5)]) ∧
    ((15 : Fin 48) : Nat) < 16 ∧ (wBase.clrB .eccCtrl 0).rdB .eccCtrl 0 = false := by decide +kernel

/-- OpenSlotServesReads: a slot of a frame that is not on flash. -/
theorem witness_slot_read : (wSlotState wSlot).flashFrame 0 0 = false ∧ wFlash.flashFrame 0 0 = true := by decide +kernel

/-- A running move of frame 0 of partition 0 to tier `t`. -/
def wMove (t : Nat) : State :=
  { wBase.setFrame 0 0 { state := .homed, home := 1 } with
    tier := { (wBase.setFrame 0 0 { state := .homed, home := 1 }).tier with moves := [{ part := 0, frame := 0, cls := 1, kind := .goHome, target := t, running := true, destTier := t }] } }

/-- TierManagerEvents: a running move to a tier that takes runs, and to flash, which takes none without three carriers; a page that comes from flash and one that does not; a held read past its ceiling; a map entry that is cached. -/
theorem witness_tier_more :
    (∀ t ∈ [1, 2], ((wMove t).moveOf 0 0 true).map (fun m => (m.destTier, decide (m.kind ≠ .replDown))) = some (t, true)) ∧ (wMove 2).halfOpen 2 0 = false ∧ ((wMove 2).wrF .carArrayState 2 3 3).halfOpen 2 0 = true ∧
    (((wMove 1).copyPages 0 0 ((wMove 1).frame 0 0) ((wMove 1).homeCopy ((wMove 1).frame 0 0)) false).bad = none) ∧
    wFlash.fromFlash 0 0 = true ∧ wBase.fromFlash 0 0 = false ∧ wBase.ftlDown (some 0) = false ∧ wBase.ftlDown none = false ∧
    (let r : HeldRead := { link := 0, ld := 0, tag := 7, hpa := 0, reqPart := 0, owner := 0, addr := 0, level := 1, at_ := 0, fill := false }
     let s : State := { wFlash with tier := { wFlash.tier with heldR := [r] } }
     s.tier.heldR = [r] ∧ r.fill = false ∧ (s.frame r.owner (r.addr / 65536)).home = 2) ∧
    (wBase.setFrame 0 0 { pin := 2 }).mapCached 0 0 = true := by decide +kernel

/-- MemoryUpkeepEvents: a throttle of one window. -/
theorem witness_throttle : ({ wBase with dram := { wBase.dram with throttle := [(3, 1, 1)] } } : State).dram.throttle = [(3, 1, 1)] := by decide +kernel

/-- CarrierMediaEvents: fewer than four carriers that take writes, and no stripe; a restripe that runs; a bay that rebuilds, one that evacuates; carriers with members and without; stripes exposed and none. -/
theorem witness_ftl : wBase.writable < 4 ∧ wBase.flash.stripes = [] ∧ wBase.hup.flushAt = none ∧
    (List.range 4).find? (fun x => (wBase.setBayState 2 7).bayState x == 7) = some ((2 : Fin 4) : Nat) ∧ (∀ n ∈ [4, 5], (wBase.setBayState 1 n).bayState 1 = n) ∧
    (wBase.setBayState 0 5).liveOn 0 = 0 ∧ ((wBase.setBayState 0 5).setBay 0 { (wBase.setBayState 0 5).bay 0 with live := 2 }).liveOn 0 ≠ 0 ∧
    wBase.exposedAll = 0 ∧ (∀ b ∈ [true, false], ({ wBase with flash := { wBase.flash with exposed := 3, restriping := b, short := !b } } : State).exposedAll ≠ 0) := by decide +kernel

/-- BaySlotEvents: a carrier in service whose removal opens a window, and a bay whose window is open. -/
theorem witness_bay_removal : (let s := wBase.setBayState 0 3; (s.bay 0).window = none ∧ s.bayState 0 ≠ 5 ∧ ((s.removeReq 0 false).bay 0).window.isSome = true) ∧
    ((wBase.setBay 0 { wBase.bay 0 with window := some (false, 0) }).bay 0).window ≠ none := by decide +kernel

/-- LinkEvents: a PCIe-only link; a reset of 1 µs; a traffic share of 400 and one above 800; an idle link past its L1 time and a busy one; the DOE mailbox of LD 0; IDE required, and the stream's key; a full partition; crossings of two cores of one die and of two. -/
theorem witness_links_more : (wRun.setLinkState 0 7).linkState 0 = 7 ∧ [0, 1, 8].contains ((wRun.setLinkState 0 2).linkState 0) = false ∧ (wRun.setLinkState 0 2).rdB .lnkCtrl 9 0 = false ∧
    wRun.rdF .lnkCtrl 2 4 0 < 1 ∧ (let s := wRun.setLink 0 { ioTags := [{ tag := 3, q := none, n := 0, off := 0, len := 64 }] }; s.linkIdle 0 = false) ∧
    (wRun.doeAt 0 (some 0) = true) ∧ (let s := wRun.setLink 0 { idePolicy := 2, ideBoth := true, keyed := true }; (s.link 0).idePolicy ≠ 0 ∧ (s.link 0).ideBoth = true ∧ (s.link 0).keyed = true) ∧ wRun.fpDown 0 = false ∧
    (wRun.binding.filter (fun e => e.2 == some 0)).length < 32 ∧
    (let s : State := { wRun with binding := (List.range 32).map (fun i => (i, some 0)) }; 32 ≤ (s.binding.filter (fun e => e.2 == some 0)).length ∧ Store.get none (16 * 31 + 15) s.binding = none) ∧
    wRun.departed 1 = false ∧ (wRun.wrF .pwrState 0 2 2).departed 1 = true ∧ wRun.ackedSince 5 0 = false ∧
    (let k := islandPair (.core 0) (.core 64); ({ wRun with cross := { wRun.cross with acked := [(k, some 9)], late := [k] } } : State).ackedSince k 9 = true) ∧
    (let t := (((wRun.flushSlots (fun _ => true)).releaseWrites 0).releaseWrites 1).commitAll; t.lens.heldW = [] ∧ (∀ x ∈ t.lens.slots, x.written = 0) ∧ t.shwClean = true) := by decide +kernel

/-- MirrorEvents: an epoch with 256 records on hub 0; after an acknowledgement no snapshot and no switch waits. -/
theorem witness_mirror_more :
    (let s := wMirror 1 3
     let t := s.setMirPart 0 { s.mirPart 0 with openRecs := [List.replicate 256 (.zero 0 0), []] }
     256 ≤ ((t.mirPart 0).openRecs.getD ((0 : HubId) : Nat) []).length) ∧
    ((wMirror 1 3).mirPart 0).snapEpoch = none ∧ ((wMirror 1 3).flitSeen.mirPart 0).switchEpoch = none ∧ (wMirror 2 3).anyReflect = true ∧ ((wMirror 2 3).mirPart 0).recv = [] ∧
    (let s : State := { wMirror 1 3 with mir := { (wMirror 1 3).mir with replays := [4, 0] } }; 4 ≤ s.mir.replays.getD 0 0) := by decide +kernel

/-- PartitionControls: writes with four bytes enabled and with three; a swap that waits for flash; a buffer whose dirty page finds no slot; an LD that is bound and one that is not; a link that is gone. -/
theorem witness_partition_more : enabledBytes 4 15 = 4 ∧ enabledBytes 4 7 = 3 ∧ wBase.linkGone 0 = false ∧ wBase.bound 0 0 = some 0 ∧ wBase.bound 0 1 = none ∧ wRun.linkGone 1 = true ∧
    (wShadow.setFrame 0 16 (wFlash.frame 0 0)).shw.next = none ∧ ((wShadow.setFrame 0 16 (wFlash.frame 0 0)).shwFetch 0 1).2 = true ∧
    (wShadow.writeBackBuf 0 { index := 0, dirty := [] }).2 = [] ∧ (wRun.wrB .prtState 4 true 0).rdB .prtQuiesceCtrl 0 0 = false := by decide +kernel

/-- PowerEvents: a drain of an entry of Twilight and of Night; a request that goes down from Night. -/
theorem witness_power_more : (∀ n ∈ [1, 2, 3], let s := (wCode 0).setB .pwrState 7 |>.wrF .pwrState 2 2 n; s.entryDraining = true ∧ s.drained = false ∧ s.rdF .pwrState 2 2 = n) ∧
    (wRun.wrF .pwrState 0 2 2).rdF .pwrState 0 2 ≠ 3 ∧ ((1 : Fin 4) : Nat) < (wRun.wrF .pwrState 0 2 2).rdF .pwrState 0 2 := by decide +kernel

/-! A structure image of one PART record, signed with the key of a test (R54 to R63). -/

/-- The key's public point. -/
def testKey : BitVec 768 :=
  0xe11a13c176223af905d2dd9a433a4df6606738ad6e20ec1b5d8e2169dedeb319fc247e9e317cfeb959088ecea8b38861b59c61ff3854831fb19d48927a72f167b58c97a2eed93ad266f4f7887ce6bd56240a9e2ac0a764b1845ea9628f7e39ad#768
/-- Header, record and trailer, least significant byte first. -/
def testImageBytes : BitVec 2368 :=
  0xf5e28ed0054a732ae2ebed80e360f776d9e185a8e4143252a98c40a52b7f85e28bb7ab526340c874fd97f6bd561829c7be96593130c6bb020821de4d34fdf1439155b2206565436b8a28a9adbbe49db98c5cc2c253f98bd3038f60cc37a2474e0000000000000000000000000000000100000000000000000000000000000000000000008000000000000000000000000000000000000000000400000004000000000000000000000000000040000000000000000000000000000000800000000010006401010000000000005dadce0e00000068000100020000000000000000000000006fe6e78b00000000000000000000000000000000000000000000b6400000000000000001ff000001000000a800400001494b5844#2368
/-- A module that is loading that image under key slot 1. -/
def wStaged : State :=
  let s := (wRun.setB .strKeyState 1).setB .strStatus 0
  { s with img := { s.img with loading := true, keys := [none, some testKey, none, none], staging := (List.range 296).map (fun i => (i, some ((testImageBytes.toNat / 256 ^ i : Nat) : Byte))) } }

/-- ResetAndImageEvents: a staged full image whose header, signature, record and cross checks pass (R65); its partition is 0 with 2 GiB. -/
theorem witness_image_ok : (match wStaged.validate wStaged.stageByte true with | .ok i => i.kind == 0 && i.sequence == 1 && (match i.records with | [.part r] => r.apparent == 2 ^ 31 | _ => false) | _ => false) = true ∧
    wStaged.img.loading = true ∧ wStaged.rdB .pwrState 7 = false ∧ wStaged.fpDown 0 = false := by decide +kernel

/-- R65, R66: the same image with one flipped bit of its header fails with FORMAT at the header, which is checked first. -/
theorem test_image_flipped : (match wStaged.validate (fun i => if i = 9 then wStaged.stageByte i ^^^ 1 else wStaged.stageByte i) true with | .bad st k => decide (st = stFormat ∧ k = 0xFFFF) | _ => false) = true := by decide +kernel

/-- ResetAndImageEvents: a load and a held reset; a warm reset in its PHASE 7; PHASE 7 of a shutdown whose journals are whole. -/
theorem witness_reset_more : ({ wRun with img := { wRun.img with loading := true } } : State).img.heldReset = none ∧ (wRun.wrF .strStartState 0 4 7 |>.setB .strResetCtrl 0).rdB .strResetCtrl 0 = true ∧
    ((wRun.wrF .strStartState 0 4 7).flushDurable none).start.coldAfter = false := by decide +kernel

/-- SHA-384 of "abc": the example digest of FIPS 180-4's own test vectors. -/
theorem test_sha384 : sha384 [0x61, 0x62, 0x63] = 0xcb00753f45a35e8bb5a03d699ac65007272c32ab0eded1631a8b605a43ff5bed8086072ba1e7cc2358baeca134c825a7#384 := by decide +kernel

/-- P-384 (FIPS 186-5): (n − 1) G has the base point's x, and n G is the point at infinity. -/
theorem test_p384_base : ((Point.affine p384G).mul (p384N - 1) 384).affineX = p384G.1 ∧ (((Point.affine p384G).mul (p384N - 1) 384).add (Point.affine p384G)).z = 0 := by decide +kernel

/-- AES-256: the example vector of FIPS 197, C.3. -/
theorem test_aes256 : aesEnc (aesKeys (List.range 32)) ((List.range 16).map (17 * ·)) =
    [0x8e, 0xa2, 0xb7, 0xca, 0x51, 0x67, 0x45, 0xbf, 0xea, 0xfc, 0x49, 0x90, 0x4b, 0x49, 0x60, 0x89] := by decide +kernel
/-- The same vector back. -/
theorem test_aes256_back : aesDec (aesKeys (List.range 32)) [0x8e, 0xa2, 0xb7, 0xca, 0x51, 0x67, 0x45, 0xbf, 0xea, 0xfc, 0x49, 0x90, 0x4b, 0x49, 0x60, 0x89] =
    (List.range 16).map (17 * ·) := by decide +kernel

/-- AES-256-XTS (R321): the second block of vector 10 of IEEE 1619, data unit 0xFF; the keys' first byte is the least significant. -/
theorem test_xts : xtsEnc { k1 := 0x2776966649575999699370245777496226357174286053234590452818281827, k2 := 0x9245947409820551379993169741880295278333646284239397585326594131 }
    0xFF 1 ((List.range 16).map (16 + ·)) = [0xea, 0x00, 0x80, 0x3f, 0x5e, 0x48, 0x23, 0x57, 0xa4, 0xae, 0x12, 0xd4, 0x14, 0xa3, 0xe6, 0x3b] := by decide +kernel

end Sys2Proof.Tests
end

section
/-! PROOFS. Scope (00_scope): what every step keeps, and register access. -/

namespace Sys2Proof.Machine

/-! Every command, by its constructor: the laws of its meaning under Laws/. -/

/-- Every command answers a next state and keeps what Keeps says. -/
theorem exec_keeps {s0 s : State} (hk : Keeps s0 s) (i : Instr) : KeepsR s0 (exec i s) :=
  match i with
  | .registerWrite .. => execRegisterWrite_keeps hk ..
  | .readLoLatch .. => execReadLoLatch_keeps hk ..
  | .writeLoHeld .. => execWriteLoHeld_keeps hk ..
  | .writeHiApply .. => execWriteHiApply_keeps hk ..
  | .readClear .. => execReadClear_keeps hk ..
  | .feRegisterAccess .. => execFeRegisterAccess_keeps hk ..
  | .crossingWatchdogExpiry .. => execCrossingWatchdogExpiry_keeps hk ..
  | .crossingAcknowledge .. => execCrossingAcknowledge_keeps hk ..
  | .hostMemRead .. => execHostMemRead_keeps hk ..
  | .hostMemWrite .. => execHostMemWrite_keeps hk ..
  | .hostMemInvalidate link ld tag hpa nt => execHostMemInvalidate_keeps hk link ld tag hpa nt
  | .eventGatherWindowEnd .. => execEventGatherWindowEnd_keeps hk ..
  | .stagingWrite .. => execStagingWrite_keeps hk ..
  | .imageLoadStart => execImageLoadStart_keeps hk
  | .imageLoadComplete => execImageLoadComplete_keeps hk
  | .clearPending => execClearPending_keeps hk
  | .keyRevoke .. => execKeyRevoke_keeps hk ..
  | .modRstAssert .. => execModRstAssert_keeps hk ..
  | .modRstDeassert .. => execModRstDeassert_keeps hk ..
  | .warmReset .. => execWarmReset_keeps hk ..
  | .shutdown => execShutdown_keeps hk
  | .shutdownComplete => execShutdownComplete_keeps hk
  | .flr .. => execFlr_keeps hk ..
  | .ldReset .. => execLdReset_keeps hk ..
  | .perstAssert .. => execPerstAssert_keeps hk ..
  | .perstDeassert .. => execPerstDeassert_keeps hk ..
  | .linkUp .. => execLinkUp_keeps hk ..
  | .linkDown .. => execLinkDown_keeps hk ..
  | .enable128 .. => execEnable128_keeps hk ..
  | .retry .. => execRetry_keeps hk ..
  | .eqFail128 .. => execEqFail128_keeps hk ..
  | .retrain .. => execRetrain_keeps hk ..
  | .linkDisable .. => execLinkDisable_keeps hk ..
  | .linkEnable .. => execLinkEnable_keeps hk ..
  | .l0pWidthChange .. => execL0pWidthChange_keeps hk ..
  | .aspmL1Entry .. => execAspmL1Entry_keeps hk ..
  | .aspmL1Exit link wake => execAspmL1Exit_keeps hk link wake
  | .ideKeyExchange link ld fresh ok => execIdeKeyExchange_keeps hk link ld fresh ok
  | .ideCheckFail .. => execIdeCheckFail_keeps hk ..
  | .busMasterDisable .. => execBusMasterDisable_keeps hk ..
  | .busMasterEnable .. => execBusMasterEnable_keeps hk ..
  | .cxlioCompletion .. => execCxlioCompletion_keeps hk ..
  | .cxlioCompletionTimeout .. => execCxlioCompletionTimeout_keeps hk ..
  | .gpfPhase2 .. => execGpfPhase2_keeps hk ..
  | .fmLdBindUnbind .. => execFmLdBindUnbind_keeps hk ..
  | .fmLinkStateQuery .. => execFmLinkStateQuery_keeps hk ..
  | .getEventRecords .. => execGetEventRecords_keeps hk ..
  | .clearEventRecords .. => execClearEventRecords_keeps hk ..
  | .getEventInterruptPolicy .. => execGetEventInterruptPolicy_keeps hk ..
  | .setEventInterruptPolicy .. => execSetEventInterruptPolicy_keeps hk ..
  | .getFwInfo .. => execGetFwInfo_keeps hk ..
  | .getTimestamp .. => execGetTimestamp_keeps hk ..
  | .setTimestamp .. => execSetTimestamp_keeps hk ..
  | .getSupportedLogs .. => execGetSupportedLogs_keeps hk ..
  | .getLog .. => execGetLog_keeps hk ..
  | .identifyMemoryDevice .. => execIdentifyMemoryDevice_keeps hk ..
  | .getHealthInfo .. => execGetHealthInfo_keeps hk ..
  | .getAlertConfig .. => execGetAlertConfig_keeps hk ..
  | .setAlertConfig .. => execSetAlertConfig_keeps hk ..
  | .getPoisonList .. => execGetPoisonList_keeps hk ..
  | .injectPoison .. => execInjectPoison_keeps hk ..
  | .clearPoison .. => execClearPoison_keeps hk ..
  | .getScanMediaCapabilities .. => execGetScanMediaCapabilities_keeps hk ..
  | .scanMedia .. => execScanMedia_keeps hk ..
  | .getScanMediaResults .. => execGetScanMediaResults_keeps hk ..
  | .getLostResponses .. => execGetLostResponses_keeps hk ..
  | .cxlMboxUnsupported link ld opcode => execCxlMboxUnsupported_keeps hk link ld opcode
  | .quiesceRequest .. => execQuiesceRequest_keeps hk ..
  | .partitionQuiesced .. => execPartitionQuiesced_keeps hk ..
  | .quiesceLift .. => execQuiesceLift_keeps hk ..
  | .quiesceAbort .. => execQuiesceAbort_keeps hk ..
  | .prtLivenessWrite .. => execPrtLivenessWrite_keeps hk ..
  | .livenessTimeout .. => execLivenessTimeout_keeps hk ..
  | .quarantine .. => execQuarantine_keeps hk ..
  | .lift .. => execLift_keeps hk ..
  | .release .. => execRelease_keeps hk ..
  | .shwIndexLoWrite .. => execShwIndexLoWrite_keeps hk ..
  | .shwIndexHiWrite .. => execShwIndexHiWrite_keeps hk ..
  | .shadowSwapSwitch .. => execShadowSwapSwitch_keeps hk ..
  | .shadowWritebackDone .. => execShadowWritebackDone_keeps hk ..
  | .shadowWindowAccess .. => execShadowWindowAccess_keeps hk ..
  | .mergeFillArrive .. => execMergeFillArrive_keeps hk ..
  | .mergeAgeExpiry .. => execMergeAgeExpiry_keeps hk ..
  | .slotEncodeStart .. => execSlotEncodeStart_keeps hk ..
  | .slotCommit .. => execSlotCommit_keeps hk ..
  | .heldWriteRelease .. => execHeldWriteRelease_keeps hk ..
  | .watermarkWrite .. => execWatermarkWrite_keeps hk ..
  | .partitionFlush .. => execPartitionFlush_keeps hk ..
  | .flushComplete .. => execFlushComplete_keeps hk ..
  | .relocMoveHome .. => execRelocMoveHome_keeps hk ..
  | .agingEpoch => execAgingEpoch_keeps hk
  | .sweeperVisit .. => execSweeperVisit_keeps hk ..
  | .moveStart .. => execMoveStart_keeps hk ..
  | .moveCopyDone .. => execMoveCopyDone_keeps hk ..
  | .flashReadDataArrive .. => execFlashReadDataArrive_keeps hk ..
  | .deepMissExpiry .. => execDeepMissExpiry_keeps hk ..
  | .mapRead => execMapRead_keeps hk
  | .hintPrefetch .. => execHintPrefetch_keeps hk ..
  | .hintPin .. => execHintPin_keeps hk ..
  | .hintUnpin .. => execHintUnpin_keeps hk ..
  | .hintDemote .. => execHintDemote_keeps hk ..
  | .trainingProbe .. => execTrainingProbe_keeps hk ..
  | .refreshIssue m kind bank => execRefreshIssue_keeps hk m kind bank
  | .rowhammerWindowEnd => execRowhammerWindowEnd_keeps hk
  | .lpRebuildStart .. => execLpRebuildStart_keeps hk ..
  | .lpRebuildDone .. => execLpRebuildDone_keeps hk ..
  | .nandOpTimeout .. => execNandOpTimeout_keeps hk ..
  | .flashWaitTimeout .. => execFlashWaitTimeout_keeps hk ..
  | .ftlBackgroundWork .. => execFtlBackgroundWork_keeps hk ..
  | .restripe => execRestripe_keeps hk
  | .restripeComplete => execRestripeComplete_keeps hk
  | .carrierInsert .. => execCarrierInsert_keeps hk ..
  | .bayButtonPress .. => execBayButtonPress_keeps hk ..
  | .remove .. => execRemove_keeps hk ..
  | .removalAbort .. => execRemovalAbort_keeps hk ..
  | .removalWindowExpiry .. => execRemovalWindowExpiry_keeps hk ..
  | .evacuationComplete .. => execEvacuationComplete_keeps hk ..
  | .carrierPowerOn .. => execCarrierPowerOn_keeps hk ..
  | .powerOnWindowExpiry .. => execPowerOnWindowExpiry_keeps hk ..
  | .carrierAdopted .. => execCarrierAdopted_keeps hk ..
  | .carrierRebuildDone .. => execCarrierRebuildDone_keeps hk ..
  | .carrierSurpriseRemoval .. => execCarrierSurpriseRemoval_keeps hk ..
  | .slotOverCurrent .. => execSlotOverCurrent_keeps hk ..
  | .deferredWritebackOpen .. => execDeferredWritebackOpen_keeps hk ..
  | .flipArm .. => execFlipArm_keeps hk ..
  | .flipDisarm .. => execFlipDisarm_keeps hk ..
  | .doorbell .. => execDoorbell_keeps hk ..
  | .queueEnable .. => execQueueEnable_keeps hk ..
  | .queueDisable .. => execQueueDisable_keeps hk ..
  | .qdSeedWrite .. => execQdSeedWrite_keeps hk ..
  | .descFetch .. => execDescFetch_keeps hk ..
  | .descNop .. => execDescNop_keeps hk ..
  | .descLaunch .. => execDescLaunch_keeps hk ..
  | .descCopy .. => execDescCopy_keeps hk ..
  | .descFill .. => execDescFill_keeps hk ..
  | .descScrub .. => execDescScrub_keeps hk ..
  | .descFlush .. => execDescFlush_keeps hk ..
  | .descComplete .. => execDescComplete_keeps hk ..
  | .scrubPassComplete .. => execScrubPassComplete_keeps hk ..
  | .kernelDispatch .. => execKernelDispatch_keeps hk ..
  | .kernelEnd .. => execKernelEnd_keeps hk ..
  | .kernelTimeLimit .. => execKernelTimeLimit_keeps hk ..
  | .libraryActivate => execLibraryActivate_keeps hk
  | .tEnd .. => execTEnd_keeps hk ..
  | .tNop .. => execTNop_keeps hk ..
  | .tBra .. => execTBra_keeps hk ..
  | .tBeq .. => execTBeq_keeps hk ..
  | .tBne .. => execTBne_keeps hk ..
  | .tBlt .. => execTBlt_keeps hk ..
  | .tBge .. => execTBge_keeps hk ..
  | .tBltu .. => execTBltu_keeps hk ..
  | .tLps .. => execTLps_keeps hk ..
  | .tLpb .. => execTLpb_keeps hk ..
  | .tGet .. => execTGet_keeps hk ..
  | .tWaitg .. => execTWaitg_keeps hk ..
  | .tBar .. => execTBar_keeps hk ..
  | .barrierRelease .. => execBarrierRelease_keeps hk ..
  | .tAdd .. => execTAdd_keeps hk ..
  | .tSub .. => execTSub_keeps hk ..
  | .tMul .. => execTMul_keeps hk ..
  | .tAnd .. => execTAnd_keeps hk ..
  | .tOr .. => execTOr_keeps hk ..
  | .tXor .. => execTXor_keeps hk ..
  | .tShl .. => execTShl_keeps hk ..
  | .tShr .. => execTShr_keeps hk ..
  | .tSra .. => execTSra_keeps hk ..
  | .tMin .. => execTMin_keeps hk ..
  | .tMax .. => execTMax_keeps hk ..
  | .tMovhi .. => execTMovhi_keeps hk ..
  | .tMovi .. => execTMovi_keeps hk ..
  | .tFadd .. => execTFadd_keeps hk ..
  | .tFsub .. => execTFsub_keeps hk ..
  | .tFmul .. => execTFmul_keeps hk ..
  | .tFdiv .. => execTFdiv_keeps hk ..
  | .tFsqrt .. => execTFsqrt_keeps hk ..
  | .tFfma .. => execTFfma_keeps hk ..
  | .tItof .. => execTItof_keeps hk ..
  | .tFtoi .. => execTFtoi_keeps hk ..
  | .tFlt .. => execTFlt_keeps hk ..
  | .tLd .. => execTLd_keeps hk ..
  | .tSt .. => execTSt_keeps hk ..
  | .tTld .. => execTTld_keeps hk ..
  | .tldPageArrive .. => execTldPageArrive_keeps hk ..
  | .tTst .. => execTTst_keeps hk ..
  | .tXfer .. => execTXfer_keeps hk ..
  | .tMma .. => execTMma_keeps hk ..
  | .tCvt .. => execTCvt_keeps hk ..
  | .tVopAdd .. => execTVopAdd_keeps hk ..
  | .tVopSub .. => execTVopSub_keeps hk ..
  | .tVopMul .. => execTVopMul_keeps hk ..
  | .tVopFma .. => execTVopFma_keeps hk ..
  | .tVopFnma .. => execTVopFnma_keeps hk ..
  | .tVopMax .. => execTVopMax_keeps hk ..
  | .tVopMin .. => execTVopMin_keeps hk ..
  | .tVopDiv .. => execTVopDiv_keeps hk ..
  | .tVopSqrt .. => execTVopSqrt_keeps hk ..
  | .tVopAbs .. => execTVopAbs_keeps hk ..
  | .tVopNeg .. => execTVopNeg_keeps hk ..
  | .tVopMov .. => execTVopMov_keeps hk ..
  | .tVopClr .. => execTVopClr_keeps hk ..
  | .tVopDot .. => execTVopDot_keeps hk ..
  | .tVopRsum .. => execTVopRsum_keeps hk ..
  | .tVopRmax .. => execTVopRmax_keeps hk ..
  | .syncSet .. => execSyncSet_keeps hk ..
  | .syncAdd .. => execSyncAdd_keeps hk ..
  | .syncWaitGe .. => execSyncWaitGe_keeps hk ..
  | .syncWaitEq .. => execSyncWaitEq_keeps hk ..
  | .syncCompareAndSwap .. => execSyncCompareAndSwap_keeps hk ..
  | .syncLock .. => execSyncLock_keeps hk ..
  | .syncUnlock .. => execSyncUnlock_keeps hk ..
  | .syncBarrierArrive .. => execSyncBarrierArrive_keeps hk ..
  | .syncWaitTimeout .. => execSyncWaitTimeout_keeps hk ..
  | .syncShareWrite .. => execSyncShareWrite_keeps hk ..
  | .qosWindowEnd .. => execQosWindowEnd_keeps hk ..
  | .bgRateSample .. => execBgRateSample_keeps hk ..
  | .requestAgeExpiry .. => execRequestAgeExpiry_keeps hk ..
  | .urgPinChange .. => execUrgPinChange_keeps hk ..
  | .urgPinStuck .. => execUrgPinStuck_keeps hk ..
  | .mirrorHello .. => execMirrorHello_keeps hk ..
  | .reflectFlitCrcFail .. => execReflectFlitCrcFail_keeps hk ..
  | .reflectKeepalive .. => execReflectKeepalive_keeps hk ..
  | .reflectLinkTimeout .. => execReflectLinkTimeout_keeps hk ..
  | .epochClose .. => execEpochClose_keeps hk ..
  | .epochReceived .. => execEpochReceived_keeps hk ..
  | .epochAck .. => execEpochAck_keeps hk ..
  | .partnerFenceTimeout .. => execPartnerFenceTimeout_keeps hk ..
  | .partnerTimeout .. => execPartnerTimeout_keeps hk ..
  | .promote .. => execPromote_keeps hk ..
  | .unfence .. => execUnfence_keeps hk ..
  | .switch .. => execSwitch_keeps hk ..
  | .switchDrainEnd .. => execSwitchDrainEnd_keeps hk ..
  | .detach .. => execDetach_keeps hk ..
  | .attach .. => execAttach_keeps hk ..
  | .demote .. => execDemote_keeps hk ..
  | .snapshot .. => execSnapshot_keeps hk ..
  | .mirrorRebuildDone .. => execMirrorRebuildDone_keeps hk ..
  | .powerRequest .. => execPowerRequest_keeps hk ..
  | .powerCancel => execPowerCancel_keeps hk
  | .drainEnd => execDrainEnd_keeps hk
  | .drainTimeoutExpiry => execDrainTimeoutExpiry_keeps hk
  | .powerTransitionDone .. => execPowerTransitionDone_keeps hk ..
  | .wakeInband .. => execWakeInband_keeps hk ..
  | .wakeSidebandMatch .. => execWakeSidebandMatch_keeps hk ..
  | .storeMonitorSample .. => execStoreMonitorSample_keeps hk ..
  | .budgetLimitUpdate => execBudgetLimitUpdate_keeps hk
  | .capTest => execCapTest_keeps hk
  | .capTestDone .. => execCapTestDone_keeps hk ..
  | .inputBelow40v => execInputBelow40v_keeps hk
  | .inputGlitch => execInputGlitch_keeps hk
  | .inputPowerLost => execInputPowerLost_keeps hk
  | .inputPowerGood => execInputPowerGood_keeps hk
  | .flushVlowStop => execFlushVlowStop_keeps hk
  | .holdupFlushDone => execHoldupFlushDone_keeps hk
  | .thermalTrip => execThermalTrip_keeps hk
  | .fpHeartbeat .. => execFpHeartbeat_keeps hk ..
  | .fpHeartbeatMiss .. => execFpHeartbeatMiss_keeps hk ..
  | .fwRegionFault .. => execFwRegionFault_keeps hk ..
  | .restart .. => execRestart_keeps hk ..
  | .powerLoopPeriod .. => execPowerLoopPeriod_keeps hk ..
  | .spdmRequest .. => execSpdmRequest_keeps hk ..
  | .queryDeviceIdentifiers => execQueryDeviceIdentifiers_keeps hk
  | .getFirmwareParameters => execGetFirmwareParameters_keeps hk
  | .requestUpdate .. => execRequestUpdate_keeps hk ..
  | .passComponentTable .. => execPassComponentTable_keeps hk ..
  | .updateComponent .. => execUpdateComponent_keeps hk ..
  | .requestFirmwareData .. => execRequestFirmwareData_keeps hk ..
  | .transferComplete .. => execTransferComplete_keeps hk ..
  | .verifyComplete .. => execVerifyComplete_keeps hk ..
  | .applyComplete .. => execApplyComplete_keeps hk ..
  | .activateFirmware .. => execActivateFirmware_keeps hk ..
  | .getStatus => execGetStatus_keeps hk
  | .cancelUpdateComponent => execCancelUpdateComponent_keeps hk
  | .cancelUpdate => execCancelUpdate_keeps hk
  | .getIdentity => execGetIdentity_keeps hk
  | .writeOwnerKey .. => execWriteOwnerKey_keeps hk ..
  | .restartProcessor .. => execRestartProcessor_keeps hk ..
  | .getEvents .. => execGetEvents_keeps hk ..
  | .clearEvents .. => execClearEvents_keeps hk ..
  | .readRegister .. => execReadRegister_keeps hk ..
  | .writeRegister .. => execWriteRegister_keeps hk ..
  | .mboxUnknownOpcode .. => execMboxUnknownOpcode_keeps hk ..
  | .negotiate .. => execNegotiate_keeps hk ..
  | .mirrorLinkPhyLeavesL0 .. => execMirrorLinkPhyLeavesL0_keeps hk ..
  | .linkEntersRecovery .. => execLinkEntersRecovery_keeps hk ..
  | .inputBelow48v => execInputBelow48v_keeps hk
  | .firmwareFetchFault .. => execFirmwareFetchFault_keeps hk ..
  | .coreIslandHwClamp => execCoreIslandHwClamp_keeps hk

/-- The canonical form does not speak of the queue. -/
theorem State.Canonical.withPending {s : State} (h : s.Canonical) (l : List Instr) : State.Canonical { s with pending := l } := { h with }

theorem step_nil {s : State} (h : s.pending = []) : step s = .next s.idle := by simp only [step, h]

theorem step_cons {s : State} {c : Instr} {rest : List Instr} (h : s.pending = c :: rest) : step s = exec c { s with pending := rest } := by
  simp only [step, h]

/-- A step answers a next state and keeps what Keeps says, of the state whose queue has lost its front. -/
theorem step_keeps (s : State) : KeepsR { s with pending := s.pending.tail } (step s) := by
  cases h : s.pending with
  | nil =>
    rw [step_nil h, List.tail_nil, ← h]
    exact KeepsR.next (State.idle_keeps (Keeps.refl s))
  | cons c rest =>
    rw [step_cons h]
    exact exec_keeps (Keeps.refl _) c

/-- Settles O5: a step keeps, and the canonical form does not speak of the queue. -/
theorem stepKeepsCanonicalForm : Obligations.StepKeepsCanonicalForm := by
  intro s t hs ht
  obtain ⟨u, hu, hk⟩ := step_keeps s
  cases hu.symm.trans ht
  exact hk.canonical (hs.withPending _)

/-- Settles O4: every command keeps, and the canonical form apart this is what Keeps says. -/
theorem everyCommandCompletes : Obligations.EveryCommandCompletes := by
  intro c s
  obtain ⟨t, ht, hk⟩ := exec_keeps (Keeps.refl s) c
  exact ⟨t, ht, hk.queue, hk.clock, hk.sent, hk.fresh⟩

/-- Settles O1: the queue is the model's own (logs 1 and 5). -/
theorem stepRunsFrontCommand : Obligations.StepRunsFrontCommand := fun _ _ _ => step_cons rfl

/-! The state after reset. -/

theorem State.reset_canonical : State.reset.Canonical := by constructor <;> rfl

/-- Three registers tell their unit, position or count; every other one resets to its map row's value. -/
theorem RegId.resetWord_of_row {r : RegId} (h1 : r.name ≠ .lnsUStatus) (h2 : r.name ≠ .lpcCState) (h3 : r.name ≠ .eccChState) :
    r.resetWord = BitVec.ofNat 64 r.name.row.reset := by
  unfold RegId.resetWord
  split
  · contradiction
  · contradiction
  · contradiction
  · rfl

/-- Settles O3: the register file lists nothing, so that every register reads as its reset word. -/
theorem resetHoldsResetColumn : Obligations.ResetHoldsResetColumn :=
  ⟨rfl, rfl, rfl, rfl, State.reset_canonical, fun _ => rfl, fun _ h1 h2 h3 _ _ => RegId.resetWord_of_row h1 h2 h3, by decide⟩

/-! Keys of what a requester has latched or held (R12, R13). -/

theorem RegId.key_lt (r : RegId) : r.key < 2 ^ 40 := by
  have := RegName.ofNat_lt r.name
  unfold RegId.key
  omega

/-- Requesters have distinct codes: the kinds have code ranges of their own, in which link and LD are digits. -/
theorem reqCode_inj {q q' : Req} (h : reqCode q = reqCode q') : q = q' := by
  rcases q with _ | ⟨link, ld⟩ | ⟨link, _ | ld⟩ | ⟨link, ld⟩ <;>
    rcases q' with _ | ⟨link', ld'⟩ | ⟨link', _ | ld'⟩ | ⟨link', ld'⟩ <;>
    simp only [reqCode, Req.ld.injEq, Req.cfg.injEq, Req.std.injEq, Option.some.injEq, reduceCtorEq, Fin.ext_iff,
      and_true, and_false] at h ⊢ <;>
    omega

/-- Settles O11: a register's key lies below 2^40, so that the key holds the requester's code and the register's key as digits. -/
theorem requestersDoNotShareHalves : Obligations.RequestersDoNotShareHalves := by
  intro q q' r r' h
  have hr := r.key_lt
  have hr' := r'.key_lt
  unfold accKey at h
  exact ⟨reqCode_inj (by omega), by omega⟩

/-! Counters (R18). -/

/-- Cutting a word to 32 bits takes its value modulo 2^32. -/
theorem toNat_cut (w : Word) : (w &&& 0xFFFFFFFF).toNat = w.toNat % 2 ^ 32 := by
  rw [BitVec.toNat_and, show (0xFFFFFFFF : Word).toNat = 2 ^ 32 - 1 from rfl, Nat.and_two_pow_sub_one_eq_mod]

theorem State.rd_incErr_self {s : State} (h : s.regs.wf = true) {n : RegName} (hw : n.row.width = 32) (i k : Nat) :
    ((s.incErr n i k).rd n i).toNat = min ((s.rd n i).toNat + k) (2 ^ 32 - 1) := by
  rw [State.incErr, State.rd_wr_self h, if_pos hw, toNat_cut, BitVec.toNat_ofNat]
  omega

theorem State.rd_incEvt_self {s : State} (h : s.regs.wf = true) {n : RegName} (hw : n.row.width = 64) (i k : Nat) :
    (s.incEvt n i k).rd n i = evtCount (s.rd n i) k := by
  rw [State.incEvt, State.rd_wr_self h, if_neg (by omega)]

/-- The count of an event counter wraps at 2^48. -/
theorem fld_evtCount_count (w : Word) (k : Nat) : fld (evtCount w k) 0 48 = (fld w 0 48 + k) % 2 ^ 48 := by
  simp only [evtCount, fld, BitVec.toNat_ofNat, Nat.shiftRight_eq_div_pow]
  split <;> omega

/-- The overflow bit of an event counter is set by a wrap and stays set. -/
theorem fld_evtCount_overflow (w : Word) (k : Nat) :
    (fld (evtCount w k) 48 1 == 1) = (fld w 48 1 == 1 || decide (2 ^ 48 ≤ fld w 0 48 + k)) := by
  have h1 : fld w 48 16 % 2 = fld w 48 1 := by simp only [fld]; omega
  rw [Bool.eq_iff_iff]
  simp only [evtCount, h1, Bool.or_eq_true, decide_eq_true_eq, beq_iff_eq]
  generalize fld w 0 48 + k = n
  split <;> simp_all only [fld, BitVec.toNat_ofNat, Nat.shiftRight_eq_div_pow, iff_true, iff_false] <;> omega

/-- Settles O13: a counter's register reads as the counted word, and registers of another name are not written. -/
theorem countersStickOrWrap : Obligations.CountersStickOrWrap := by
  intro s n i k hs
  refine ⟨fun hw => State.rd_incErr_self hs.regs hw i k, fun hw => ?_, fun m a b hm =>
    ⟨State.rd_wr_name hs.regs hm .., State.rd_wr_name hs.regs hm ..⟩⟩
  simp only [State.rdF, State.rdB, State.rd_incEvt_self hs.regs hw]
  exact ⟨fld_evtCount_count _ k, fld_evtCount_overflow _ k⟩

/-! Where an access falls, and what it answers there (R10, R11). -/

/-- A map row gives 32 or 64 bits (R9). -/
theorem RegName.row_width (n : RegName) : n.row.width = 32 ∨ n.row.width = 64 := by cases n <;> decide

theorem sizeOk_four {off : Nat} (h : off % 4 = 0) : sizeOk off 4 = true := by simp [sizeOk, h]

theorem sizeOk_eight {off : Nat} (h : off % 8 = 0) : sizeOk off 8 = true := by simp [sizeOk, h]

/-- The mailbox's GO register lies at 0xE01000 of the management view, except in Eclipse. -/
theorem State.target_go {s : State} (h : s.rdF .pwrState 0 2 ≠ 3) : s.target .mgmt 0xE01000 = .reg ⟨.fwmMboxCtrl, 0, 0⟩ 0 := by
  have hl : lookupMgmt 0xE01000 = some (⟨.fwmMboxCtrl, 0, 0⟩, 0) := by decide
  simp [State.target, State.mgmtTarget, h, hl]

/-- A write that is no GO is a write through the view. -/
theorem State.writeFor_eq {s : State} {req : Req} {off size : Nat}
    (hg : ¬ (s.target req off = .reg ⟨.fwmMboxCtrl, 0, 0⟩ 0 ∧ size = 4 ∧ off % 4 = 0)) (v : Nat) :
    s.writeFor req off size v = (s.writeAccess req off size v).1.answer req off (s.writeAccess req off size v).2 := by
  unfold State.writeFor
  rw [if_neg]
  rintro ⟨rfl, rfl, rfl, hp⟩
  exact hg ⟨State.target_go hp, rfl, rfl⟩

/-- The state without what a requester holds of a register (R13). -/
def State.dropLo (s : State) (req : Req) (r : RegId) : State :=
  { s with acc := { s.acc with lo := Store.set none (accKey req r) none s.acc.lo } }

/-- The state with the high half of a read value latched for a requester (R12). -/
def State.latchHi (s : State) (req : Req) (r : RegId) (v : Word) : State :=
  { s with acc := { s.acc with latch := Store.set 0 (accKey req r) (BitVec.ofNat 32 (v.toNat / 2 ^ 32)) s.acc.latch } }

section
variable {s : State} {req : Req} {off size b : Nat} {r : RegId}

/-- An access of a size or alignment that R10 does not take falls on a register in one of two ways. -/
theorem sizeOk_false_or_half (h4 : ¬ (size = 4 ∧ off % 4 = 0 ∧ (b = 0 ∨ r.name.row.width = 64)))
    (h8 : ¬ (size = 8 ∧ off % 8 = 0 ∧ r.name.row.width = 64)) :
    sizeOk off size = false ∨ r.name.row.width = 32 ∧ (size ≠ 4 ∨ b ≠ 0) := by
  cases hs : sizeOk off size with
  | false => exact .inl rfl
  | true =>
    right
    obtain ⟨hz, ha⟩ : (size = 4 ∨ size = 8) ∧ off % size = 0 := by simpa [sizeOk] using hs
    have hw := r.name.row_width
    rcases hz with rfl | rfl <;> omega

/-! Reads of a register. -/

theorem State.readFor_reg_unsupported (ht : s.target req off = .reg r b) (h : sizeOk off size = false ∨ s.regAccess req r b size = (s, none)) :
    s.readFor req off size = s.send (.unsupported req off) := by
  rcases h with hs | ha
  · simp [State.readFor, State.readAccess, ht, hs, State.answer]
  · simp [State.readFor, State.readAccess, ht, ha, State.answer]

/-- A read answers what the register's access gives. -/
theorem State.readFor_reg {t : State} {v : Nat} (ht : s.target req off = .reg r b) (hs : sizeOk off size = true)
    (ha : s.regAccess req r b size = (t, some v)) :
    s.readFor req off size = t.send (.regValue req off v) := by
  simp [State.readFor, State.readAccess, ht, hs, ha, State.answer]

theorem State.regAccess_none (hw : r.name.row.width = 32) (h : size ≠ 4 ∨ b ≠ 0) : s.regAccess req r b size = (s, none) := by
  simp only [State.regAccess, hw, if_true, if_pos h]

theorem State.regAccess_word (hw : r.name.row.width = 32) :
    s.regAccess req r 0 4 = ((s.regRead r).1.readClears req r (2 ^ 32 - 1), some ((s.regRead r).2.toNat % 2 ^ 32)) := by
  simp [State.regAccess, hw]

theorem State.regAccess_whole (hw : r.name.row.width = 64) :
    s.regAccess req r 0 8 = (((s.regRead r).1.dropLo req r).readClears req r (2 ^ 64 - 1), some (s.regRead r).2.toNat) := by
  simp [State.regAccess, hw, State.dropLo]

theorem State.regAccess_lo (hw : r.name.row.width = 64) :
    s.regAccess req r 0 4 = (((s.regRead r).1.latchHi req r (s.regRead r).2).readClears req r (2 ^ 32 - 1), some ((s.regRead r).2.toNat % 2 ^ 32)) := by
  simp [State.regAccess, hw, State.latchHi]

theorem State.regAccess_hi (hw : r.name.row.width = 64) : s.regAccess req r 4 4 = (s, some (Store.get 0 (accKey req r) s.acc.latch).toNat) := by
  simp [State.regAccess, hw]

/-! Writes of a register that are no GO. -/

theorem State.writeFor_reg_unsupported {v : Nat} (ht : s.target req off = .reg r b)
    (hg : ¬ (s.target req off = .reg ⟨.fwmMboxCtrl, 0, 0⟩ 0 ∧ size = 4 ∧ off % 4 = 0))
    (h : sizeOk off size = false ∨ s.regStore req off r b size v = none) : s.writeFor req off size v = s.send (.unsupported req off) := by
  rw [State.writeFor_eq hg]
  rcases h with hs | ha
  · simp [State.writeAccess, ht, hs, State.answer]
  · simp [State.writeAccess, ht, ha, State.answer]

/-- A write leaves what the register's store leaves, and answers nothing. -/
theorem State.writeFor_reg {t : State} {v : Nat} (ht : s.target req off = .reg r b) (hn : r.name ≠ .fwmMboxCtrl) (hs : sizeOk off size = true)
    (ha : s.regStore req off r b size v = some t) : s.writeFor req off size v = t := by
  have hg : ¬ (s.target req off = .reg ⟨.fwmMboxCtrl, 0, 0⟩ 0 ∧ size = 4 ∧ off % 4 = 0) := by
    rw [ht]
    rintro ⟨h, -⟩
    cases h
    exact hn rfl
  rw [State.writeFor_eq hg]
  simp [State.writeAccess, ht, hs, ha, State.answer]

theorem State.regStore_none (hw : r.name.row.width = 32) (h : size ≠ 4 ∨ b ≠ 0) (v : Nat) : s.regStore req off r b size v = none := by
  simp only [State.regStore, hw, if_true]
  rw [if_neg (by omega)]

theorem State.regStore_word (hw : r.name.row.width = 32) (v : Nat) :
    s.regStore req off r 0 4 v = some (s.viewWrite req off r (v % 2 ^ 32) (2 ^ 32 - 1)) := by
  simp [State.regStore, hw]

theorem State.regStore_whole (hw : r.name.row.width = 64) (v : Word) :
    s.regStore req off r 0 8 v.toNat = some ((s.dropLo req r).viewWrite req off r v.toNat (2 ^ 64 - 1)) := by
  rw [State.regStore, Nat.mod_eq_of_lt v.isLt]
  simp [hw, State.dropLo]

theorem State.regStore_lo (hw : r.name.row.width = 64) (v : BitVec 32) :
    s.regStore req off r 0 4 v.toNat = some { s with acc := { s.acc with lo := Store.set none (accKey req r) (some v) s.acc.lo } } := by
  simp [State.regStore, hw]

theorem State.regStore_hi_held (hw : r.name.row.width = 64) {lo : BitVec 32} (hl : Store.get none (accKey req r) s.acc.lo = some lo) (v : BitVec 32) :
    s.regStore req off r 4 4 v.toNat = some ((s.dropLo req r).viewWrite req off r (lo.toNat + v.toNat * 2 ^ 32) (2 ^ 64 - 1)) := by
  rw [State.regStore, Nat.mod_eq_of_lt v.isLt]
  simp [hw, hl, State.dropLo]

theorem State.regStore_hi_alone (hw : r.name.row.width = 64) (hl : Store.get none (accKey req r) s.acc.lo = none) (v : BitVec 32) :
    s.regStore req off r 4 4 v.toNat = some (s.viewWrite req off r (v.toNat * 2 ^ 32) ((2 ^ 32 - 1) * 2 ^ 32)) := by
  rw [State.regStore, Nat.mod_eq_of_lt v.isLt]
  simp [hw, hl]

end

/-- GO's register has 32 bits. -/
theorem RegId.not_go_of_width {r : RegId} (hw : r.name.row.width = 64) : r.name ≠ .fwmMboxCtrl := by
  intro h
  rw [h] at hw
  exact absurd hw (by decide)

/-- Settles O7: such an access has a size that no view takes, or falls on a half that a 32-bit register does not have; GO takes neither. -/
theorem badAccessIsUnsupported : Obligations.BadAccessIsUnsupported := by
  intro s req off size r b ht h4 h8
  have hbad := sizeOk_false_or_half h4 h8
  have hr : s.readFor req off size = s.send (.unsupported req off) :=
    State.readFor_reg_unsupported ht (hbad.imp_right fun h => State.regAccess_none h.1 h.2)
  have hw (v : Nat) : s.writeFor req off size v = s.send (.unsupported req off) := by
    refine State.writeFor_reg_unsupported ht ?_ (hbad.imp_right fun h => State.regStore_none h.1 h.2 v)
    rw [ht]
    rintro ⟨h, hz, ha⟩
    cases h
    exact h4 ⟨hz, ha, .inl rfl⟩
  refine ⟨congrArg Host.Outcome.next hr, fun v => congrArg Host.Outcome.next (hw v), fun w => ?_⟩
  cases w with
  | none => exact congrArg Host.Outcome.next hr
  | some v => exact congrArg Host.Outcome.next (hw v)

/-- Settles O8: a hole answers 0 to an aligned word read and takes an aligned word write without effect. -/
theorem unassignedOffsetsReadZero : Obligations.UnassignedOffsetsReadZero := by
  intro s req off ht ha
  have hr : s.readFor req off 4 = s.send (.regValue req off 0) := by
    simp [State.readFor, State.readAccess, ht, ha, State.answer]
  have hw (v : Nat) : s.writeFor req off 4 v = s := by
    rw [State.writeFor_eq (by simp [ht])]
    simp [State.writeAccess, ht, ha, State.answer]
  refine ⟨congrArg Host.Outcome.next hr, congrArg Host.Outcome.next hr, fun v => ⟨?_, ?_, ?_⟩⟩
  all_goals exact congrArg Host.Outcome.next (hw _)

/-! What a read returns (log 56). -/

theorem State.regRead_stored {s : State} {r : RegId} (hm : measuredBits r.name = 0) (hn : r.name ≠ .lnkErrCorr) : s.regRead r = (s, s.regWord r) := by
  simp [State.regRead, hm, hn]

theorem State.regRead_replays {s : State} {r : RegId} (hn : r.name = .lnkErrCorr) : s.regRead r = (s.countReplays r.i, (s.countReplays r.i).regWord r) := by
  simp [State.regRead, hn, measuredBits]

theorem State.regRead_measured {s : State} {r : RegId} (hm : measuredBits r.name ≠ 0) : s.regRead r = (s.nextFree.2,
    (s.nextFree.2.regWord r &&& ~~~(BitVec.ofNat 64 (measuredBits r.name))) ||| (BitVec.ofNat 64 s.nextFree.1 &&& BitVec.ofNat 64 (measuredBits r.name))) := by
  have hn : r.name ≠ .lnkErrCorr := by
    intro h
    exact hm (by rw [h]; rfl)
  simp only [State.regRead, if_neg hn, if_neg hm]

/-- Bits outside a mask are those of the first word. -/
theorem getLsbD_masked (a b : Word) {m i : Nat} (h : m.testBit i = false) :
    ((a &&& ~~~(BitVec.ofNat 64 m)) ||| (b &&& BitVec.ofNat 64 m)).getLsbD i = a.getLsbD i := by
  rw [BitVec.getLsbD_or, BitVec.getLsbD_and, BitVec.getLsbD_and, BitVec.getLsbD_not, BitVec.getLsbD_ofNat, h]
  by_cases hi : i < 64
  · simp [hi]
  · simp [hi, BitVec.getLsbD_of_ge a i (not_lt.1 hi)]

/-- Settles O9: the read's four forms are regAccess of a word, of a whole, of LO and of HI; the value is regRead's. -/
theorem readsReturnValueAndLatch : Obligations.ReadsReturnValueAndLatch := by
  refine ⟨fun s req off r => ⟨fun ht ha hw => ?_, fun ht ha hw => ⟨?_, ?_⟩, fun ht ha hw => ?_⟩,
    fun s r => ⟨State.regRead_stored, State.regRead_replays, fun hm => ?_⟩⟩
  · have h := State.readFor_reg ht (sizeOk_four ha) (State.regAccess_word hw)
    exact ⟨congrArg Host.Outcome.next h, congrArg Host.Outcome.next h⟩
  · exact congrArg Host.Outcome.next (State.readFor_reg ht (sizeOk_four (by omega)) (State.regAccess_lo hw))
  · exact congrArg Host.Outcome.next (State.readFor_reg ht (sizeOk_eight ha) (State.regAccess_whole hw))
  · exact congrArg Host.Outcome.next (State.readFor_reg ht (sizeOk_four ha) (State.regAccess_hi hw))
  · rw [State.regRead_measured hm]
    exact ⟨rfl, fun i hi => getLsbD_masked _ _ hi⟩

/-- Settles O10: a write's forms are regStore of LO, of a whole, and of HI with a held LO and without. -/
theorem halvesWriteAsOneUpdate : Obligations.HalvesWriteAsOneUpdate := by
  intro s req off r hw
  have hg := RegId.not_go_of_width hw
  refine ⟨fun ht ha => ⟨fun v => ?_, fun v => ?_⟩, fun ht ha v => ⟨fun lo hl => ?_, fun hl => ?_⟩⟩
  · exact congrArg Host.Outcome.next (State.writeFor_reg ht hg (sizeOk_four (by omega)) (State.regStore_lo hw v))
  · exact congrArg Host.Outcome.next (State.writeFor_reg ht hg (sizeOk_eight ha) (State.regStore_whole hw v))
  · exact congrArg Host.Outcome.next (State.writeFor_reg ht hg (sizeOk_four ha) (State.regStore_hi_held hw hl v))
  · exact congrArg Host.Outcome.next (State.writeFor_reg ht hg (sizeOk_four ha) (State.regStore_hi_alone hw hl v))

/-! Writes that act by their access class alone (R15). -/

theorem plainNames_width : ∀ n ∈ plainNames, n.row.width = 32 := by decide

theorem plainNames_not_go : RegName.fwmMboxCtrl ∉ plainNames := by decide

/-- A register that some view only shows is one of five. -/
theorem viewReadOnly_names {req : Req} {n : RegName} (h : viewReadOnly req n = true) :
    n ∈ [RegName.qdStatus, .qdTail, .shwIndexLo, .shwIndexHi, .prtLivenessTimeout] := by
  unfold viewReadOnly at h
  split at h <;> simp at h ⊢

theorem viewReadOnly_plain {n : RegName} (hn : n ∈ plainNames) (req : Req) : viewReadOnly req n = false := by
  have h5 : ∀ m ∈ [RegName.qdStatus, .qdTail, .shwIndexLo, .shwIndexHi, .prtLivenessTimeout], m ∉ plainNames := by decide
  cases h : viewReadOnly req n with
  | false => rfl
  | true => exact absurd hn (h5 n (viewReadOnly_names h))

/-- The update of such a register has no effect beyond R15. -/
theorem State.regWrite_plain {r : RegId} (hn : r.name ∈ plainNames) (s : State) (req : Req) (v act : Nat) : s.regWrite req r v act = s.plainWrite r v act := by
  obtain ⟨n, i, j⟩ := r
  simp only [plainNames] at hn
  fin_cases hn <;> rfl

/-- A bit of a 32-bit register after a write of it, by its access class. -/
theorem State.plainWrite_bit {s : State} (h : s.regs.wf = true) {r : RegId} (hw : r.name.row.width = 32) (v : Nat) {act b : Nat}
    (hb : b < 32) (ha : act.testBit b = true) :
    ((s.plainWrite r v act).regs.read r).getLsbD b =
      if (r.name.row.rw ||| r.name.row.rws).testBit b then v.testBit b
      else if r.name.row.w1c.testBit b then (s.regs.read r).getLsbD b && !v.testBit b
      else (s.regs.read r).getLsbD b := by
  have hcut : (0xFFFFFFFF : Word).getLsbD b = true := by
    rw [show (0xFFFFFFFF : Word) = BitVec.ofNat 64 (2 ^ 32 - 1) from rfl, BitVec.getLsbD_ofNat, Nat.testBit_two_pow_sub_one]
    simp; omega
  have h64 : (2 ^ 64 - 1).testBit b = true := by rw [Nat.testBit_two_pow_sub_one]; simp; omega
  have hlt : b < 64 := by omega
  simp only [State.plainWrite]
  generalize r.name.row.rw ||| r.name.row.rws = m
  rw [RegFile.read_write_self h, if_pos hw, BitVec.getLsbD_and, hcut, Bool.and_true, BitVec.getLsbD_ofNat]
  simp only [blend, Nat.testBit_or, Nat.testBit_and, Nat.testBit_xor, h64, ha, hlt, BitVec.testBit_toNat, decide_true, Bool.true_and, Bool.and_true, Bool.xor_true]
  cases m.testBit b <;> cases r.name.row.w1c.testBit b <;> simp

/-- Settles O12: the write reaches the register, its update is plainWrite, and plainWrite writes that register only. -/
theorem writeActsByAccessClass : Obligations.WriteActsByAccessClass := by
  intro s req off v r hs hn ht ha hp
  have hw := plainNames_width _ hn
  have hg : r.name ≠ .fwmMboxCtrl := fun h => plainNames_not_go (h ▸ hn)
  have hv : s.viewWrite req off r (v % 2 ^ 32) (2 ^ 32 - 1) = s.plainWrite r (v % 2 ^ 32) (2 ^ 32 - 1) := by
    rw [State.viewWrite, if_neg (by simp [viewReadOnly_plain hn]), if_neg (by simpa using hp), State.regWrite_plain hn]
  refine ⟨s.plainWrite r (v % 2 ^ 32) (2 ^ 32 - 1), ?_, rfl, fun b hb => ?_, fun q hq => RegFile.read_write_ne hs.regs _ hq⟩
  · rw [← hv]
    exact congrArg Host.Outcome.next (State.writeFor_reg ht hg (sizeOk_four ha) (State.regStore_word hw v))
  · have hm : (v % 2 ^ 32).testBit b = v.testBit b := by rw [Nat.testBit_mod_two_pow]; simp [hb]
    rw [State.plainWrite_bit hs.regs hw _ hb (by rw [Nat.testBit_two_pow_sub_one]; simpa using hb), hm]

end Sys2Proof.Machine
end

section
/-! PROOFS. Architecture (01_architecture): the pool's pages. -/

namespace Sys2Proof.Machine

/-! The number that a span of bytes holds. -/

/-- What the fold of a number starts from is added to the number. -/
theorem Memory.readN_foldl_acc (a n : Nat) : ∀ (m : Memory) (k : Nat),
    m.foldl (fun acc c => if a ≤ c.1 ∧ c.1 < a + n then acc + c.2.toNat * 2 ^ (8 * (c.1 - a)) else acc) k = k + m.readN a n
  | [], _ => rfl
  | c :: t, k => by
    have ih := Memory.readN_foldl_acc a n t
    rw [Memory.readN, List.foldl_cons, List.foldl_cons, ih, ih]
    split <;> omega

/-- The number in a span is what the first cell gives to it and the number that the other cells hold there. -/
theorem Memory.readN_cons (c : Host.Cell) (t : Memory) (a n : Nat) :
    Memory.readN (c :: t) a n = (if a ≤ c.1 ∧ c.1 < a + n then c.2.toNat * 2 ^ (8 * (c.1 - a)) else 0) + Memory.readN t a n := by
  rw [Memory.readN, List.foldl_cons, Memory.readN_foldl_acc, Nat.zero_add]

@[simp] theorem Memory.readN_zero (m : Memory) (a : Nat) : m.readN a 0 = 0 := by
  induction m with
  | nil => rfl
  | cons c t ih => rw [Memory.readN_cons, ih, if_neg (by omega)]

/-- The lowest byte of a span, and the rest of it 8 bits higher (R9). -/
theorem Memory.readN_succ (a n : Nat) : ∀ {m : Memory} {b : Nat}, Memory.wfFrom b m = true → m.readN a (n + 1) = (m.byte a).toNat + 256 * m.readN (a + 1) n
  | [], _, _ => rfl
  | (x, v) :: t, b, h => by
    simp only [Memory.wfFrom, Bool.and_eq_true] at h
    have ht := h.2
    rw [Memory.readN_cons, Memory.readN_cons, Memory.readN_succ a n ht, Memory.byte]
    rcases lt_trichotomy x a with hx | rfl | hx
    · rw [if_neg (by omega), if_neg (by omega), if_neg (by omega)]
      omega
    · rw [if_pos (by omega), if_pos rfl, if_neg (by omega), Memory.byte_none (Nat.lt_succ_self x) ht]
      simp
    · rw [if_neg (Nat.ne_of_gt hx), show 8 * (x - a) = 8 + 8 * (x - (a + 1)) by omega, Nat.pow_add]
      by_cases hs : x < a + 1 + n
      · rw [if_pos (by omega), if_pos (by omega)]
        ring
      · rw [if_neg (by omega), if_neg (by omega)]
        ring

/-- Spans that hold the same bytes hold the same number. -/
theorem Memory.readN_congr {m m' : Memory} (h : m.wf = true) (h' : m'.wf = true) :
    ∀ (n a : Nat), (∀ b, a ≤ b → b < a + n → m.byte b = m'.byte b) → m.readN a n = m'.readN a n
  | 0, _, _ => by simp
  | n + 1, a, hb => by
    rw [Memory.readN_succ a n h, Memory.readN_succ a n h', hb a le_rfl (by omega),
      Memory.readN_congr h h' n (a + 1) fun b hl hu => hb b (by omega) (by omega)]

/-- A span that holds the bytes of a number holds the number, cut to the span. -/
theorem Memory.readN_of_bytes {m : Memory} (h : m.wf = true) :
    ∀ (n a v : Nat), (∀ i, i < n → m.byte (a + i) = BitVec.ofNat 8 (v / 256 ^ i)) → m.readN a n = v % 256 ^ n
  | 0, _, _, _ => by simp [Nat.mod_one]
  | n + 1, a, v, hb => by
    have h0 : m.byte a = BitVec.ofNat 8 v := by simpa using hb 0 (by omega)
    have ht : m.readN (a + 1) n = v / 256 % 256 ^ n := by
      refine Memory.readN_of_bytes h n (a + 1) (v / 256) fun i hi => ?_
      rw [Nat.add_assoc, Nat.add_comm 1 i, hb (i + 1) (by omega), Nat.pow_succ', Nat.div_div_eq_div_mul]
    rw [Memory.readN_succ a n h, h0, ht, BitVec.toNat_ofNat, Nat.pow_succ' (m := 256), Nat.mod_mul]

/-- A written span reads as what was written, cut to the span. -/
theorem Memory.readN_writeN_self {m : Memory} (h : m.wf = true) (a n v : Nat) : (m.writeN a n v).readN a n = v % 256 ^ n :=
  Memory.readN_of_bytes (Memory.writeN_wf h) n a v fun _ hi => Memory.byte_writeN_inside h hi

/-- A write leaves every span that does not meet it alone. -/
theorem Memory.readN_writeN_disjoint {m : Memory} (h : m.wf = true) {a n v b k : Nat} (hd : b + k ≤ a ∨ a + n ≤ b) :
    (m.writeN a n v).readN b k = m.readN b k :=
  Memory.readN_congr (Memory.writeN_wf h) h k b fun _ hl hu => Memory.byte_writeN_outside h (by omega)

/-- A word of `n` bytes is below 256 ^ n. -/
theorem toNat_lt_bytes {w n : Nat} (hw : w = 8 * n) (v : BitVec w) : v.toNat < 256 ^ n := by
  subst hw
  rw [show 256 = 2 ^ 8 from rfl, ← Nat.pow_mul]
  exact v.isLt

/-- Settles O42: a page is 4,096 bytes at an address of its own, which a write of them reads back, and two pages' bytes do not meet. -/
theorem poolPagesReadBack : Obligations.PoolPagesReadBack := by
  intro s p page v hs hp
  refine ⟨?_, fun q k hk hne => ?_⟩
  · rw [State.poolPage, State.setPoolPage, Memory.readN_writeN_self hs.pool, Nat.mod_eq_of_lt (toNat_lt_bytes (n := 4096) rfl v), BitVec.ofNat_toNat, BitVec.setWidth_eq]
  · have hd : q * 2 ^ 47 + k * 4096 + 4096 ≤ p * 2 ^ 47 + page * 4096 ∨ p * 2 ^ 47 + page * 4096 + 4096 ≤ q * 2 ^ 47 + k * 4096 := by omega
    exact congrArg (BitVec.ofNat 32768) (Memory.readN_writeN_disjoint hs.pool hd)

end Sys2Proof.Machine
end

section
/-! PROOFS. Architecture (01_architecture): the links and the crossings. -/

namespace Sys2Proof.Machine

/-! Fields of LNK_STATUS (R145). -/

/-- A field of a written register is the written word's. -/
theorem State.rdF_wr_self {s : State} (h : s.regs.wf = true) (n : RegName) (v : Word) (a k i j : Nat) (hl : a + k ≤ 32) :
    (s.wr n v i j).rdF n a k i j = fld v a k := by
  rw [State.rdF, State.rd_wr_self h]
  split
  · exact fld_cut _ _ _ hl
  · rfl

/-- The active width is stored. -/
theorem State.rdF_setActive_active {s : State} (h : s.regs.wf = true) (link : Nat) {w : Nat} (hw : w < 32) :
    (s.setActive link w).rdF .lnkStatus 13 5 link = w := by
  have hm : w % 2 ^ 5 = w := Nat.mod_eq_of_lt hw
  simp only [State.setActive, State.setLinkState]
  split
  · rw [State.rdF_wrF_field (State.wrF_regs_wf h ..) _ _ _ _ _ _ _ _ (by decide) (by decide), State.rdF_wrF_self h _ _ _ _ _ _ (by decide), hm]
  · rw [State.rdF_wrF_self h _ _ _ _ _ _ (by decide), hm]

/-- The rate and the trained width stay. -/
theorem State.rdF_setActive_between {s : State} (h : s.regs.wf = true) (link w : Nat) {a k : Nat} (ha : 4 ≤ a) (hk : a + k ≤ 13) :
    (s.setActive link w).rdF .lnkStatus a k link = s.rdF .lnkStatus a k link := by
  have h13 := State.rdF_wrF_field h .lnkStatus 13 5 w a k link 0 (by omega) (by omega)
  simp only [State.setActive, State.setLinkState]
  split
  · rw [State.rdF_wrF_field (State.wrF_regs_wf h ..) _ _ _ _ _ _ _ _ (by omega) (by omega), h13]
  · exact h13

/-- The active width leaves STATE alone, but where the link carries: there STATE tells whether it is reduced. -/
theorem State.linkState_setActive {s : State} (h : s.regs.wf = true) (link w : Nat) :
    (s.setActive link w).linkState link = if s.linkCarries link then (if w < s.rdF .lnkStatus 8 5 link then 3 else 2) else s.linkState link := by
  have h13 (a k : Nat) (ha : a + k ≤ 13) : (s.wrF .lnkStatus 13 5 w link).rdF .lnkStatus a k link = s.rdF .lnkStatus a k link :=
    State.rdF_wrF_field h _ _ _ _ _ _ _ _ (by omega) (by omega)
  have hc : (s.wrF .lnkStatus 13 5 w link).linkCarries link = s.linkCarries link := by
    simp only [State.linkCarries, State.linkState, h13 0 4 (by decide)]
  unfold State.setActive
  simp only [hc, h13 8 5 (by decide)]
  split
  · rw [State.linkState, State.setLinkState, State.rdF_wrF_self (State.wrF_regs_wf h ..) _ _ _ _ _ _ (by decide)]
    split <;> rfl
  · exact h13 0 4 (by decide)

/-! A link that is awake keeps its LNK_STATUS while records are raised: an MSI-X message wakes other links only (R127). -/

/-- A link's LNK_STATUS holds the word. -/
structure StatusAt (link : Nat) (v : Word) (t : State) : Prop where
  canonical : t.Canonical
  status : t.rd .lnkStatus link = v

/-- Register indices count modulo the array's span in a key. -/
theorem State.rd_lnkStatus_mod {s : State} {k link : Nat} (h : k % 8192 = link % 8192) : s.rd .lnkStatus k = s.rd .lnkStatus link := by
  have hk : RegId.key ⟨.lnkStatus, k, 0⟩ = RegId.key ⟨.lnkStatus, link, 0⟩ := by simp only [RegId.key, h]
  unfold State.rd RegFile.read
  rw [hk]
  rfl

section
variable {link : Nat} {v : Word} {s : State}

theorem StatusAt.wrB (h : StatusAt link v s) {n : RegName} (hn : n ≠ .lnkStatus) (b : Nat) (on : Bool) (i j : Nat) : StatusAt link v (s.wrB n b on i j) where
  canonical := (State.wrB_keeps (Keeps.refl s) ..).canonical h.canonical
  status := by rw [State.rd_wrB_name h.canonical.regs hn.symm, h.status]

theorem StatusAt.ite {c : Prop} [Decidable c] {t : State} (hs : StatusAt link v s) (ht : StatusAt link v t) : StatusAt link v (if c then s else t) := by
  split <;> assumption

variable (hv : fld v 0 4 ≠ 4 ∧ fld v 0 4 ≠ 5)
include hv

theorem StatusAt.leaveL1 (h : StatusAt link v s) (k : Nat) : StatusAt link v (s.leaveL1 k) where
  canonical := (State.leaveL1_keeps (Keeps.refl s) k).canonical h.canonical
  status := by
    simp only [State.leaveL1]
    split
    · exact h.status
    · rename_i hk
      have hne : link % 8192 ≠ k % 8192 := by
        intro e
        rw [State.rdF, State.rd_lnkStatus_mod e.symm, h.status] at hk
        exact hk hv
      exact (State.rd_wr_index h.canonical.regs _ (.inl hne)).trans h.status

theorem StatusAt.msix (h : StatusAt link v s) (k ld vec : Nat) : StatusAt link v (s.msix k ld vec) where
  canonical := (State.msix_keeps (Keeps.refl s) k ld vec).canonical h.canonical
  status := by
    simp only [State.msix]
    split
    · exact (h.leaveL1 hv k).status
    · exact h.status

theorem StatusAt.logLd (h : StatusAt link v s) (k ld : Nat) (r : EvRec) : StatusAt link v (s.logLd k ld r) := by
  have hl (x : LdSt) : StatusAt link v (s.setLd k ld x) := ⟨(State.setLd_keeps (Keeps.refl s) ..).canonical h.canonical, h.status⟩
  simp only [State.logLd]
  split
  · exact (hl _).msix hv ..
  · exact hl _

theorem StatusAt.raise (h : StatusAt link v s) (r : EvRec) : StatusAt link v (s.raise r) := by
  have h0 (e : EvSt) : StatusAt link v { s with ev := e } := ⟨{ h.canonical with }, h.status⟩
  simp only [State.raise]
  split
  · exact h0 _
  · exact foldl_inv (fun _ d hb => hb.logLd hv d.1 d.2 _) _ (h0 _)

end

/-! Training (R116 to R118). -/

theorem State.linkLanes_bounds (s : State) (link : Nat) : 4 ≤ s.linkLanes link ∧ s.linkLanes link ≤ 16 := by
  unfold State.linkLanes subLinks
  split_ifs <;> decide

theorem rateCode_lt (r : Nat) : rateCode r < 16 := by
  unfold rateCode
  split_ifs <;> decide

theorem State.widthCap_congr {s t : State} {link : Nat} (hr : t.rd .lnkCtrl link = s.rd .lnkCtrl link) (hl : (t.link link).fwCap = (s.link link).fwCap) :
    t.widthCap link = s.widthCap link := by
  simp only [State.widthCap, State.rdF, hr, hl]

/-- LNK_STATUS as training writes it, from its word before: `keep` tells a recovery that leaves IDE_STATE. -/
def trainedWord (x : Partner) (code width st : Nat) (keep : Bool) (w : Word) : Word :=
  let w := setFld (setFld (setFld w 4 4 code) 8 5 width) 18 1 (if x.loFlit then 1 else 0)
  let w := setFld (setFld w 19 1 (if x.switch then 1 else 0)) 24 2 (min x.retimers 2)
  setFld (if keep then w else setFld w 20 2 0) 0 4 st

/-- A link's state with its partner's offers, and the IDE policy of its PORT record. -/
def LinkSt.offered (l : LinkSt) (x : Partner) (ide : Nat) : LinkSt :=
  { l with mld := x.switch, l0p := x.l0p, ideBoth := x.ide, ideTold := false, back := 0, l0pWidth := 16, idePolicy := ide }

/-- A link with its partner's offers and LNK_STATUS as training leaves them, before the active width. -/
def State.linkUpWord (s : State) (link : Nat) (x : Partner) : State :=
  let cxl := x.cxl && x.flit256
  let t := s.setLink link ((s.link link).offered x (s.portRec (link / 4)).ide)
  t.wr .lnkStatus (trainedWord x (rateCode (s.settleRate link x)) (min x.width (s.linkLanes link)) (if cxl then 2 else 7)
    (s.linkState link == 6 && cxl) (t.rd .lnkStatus link)) link

/-- The same with the active width. -/
def State.linkUpWidth (s : State) (link : Nat) (x : Partner) : State :=
  let t := s.linkUpWord link x
  t.setActive link (min (min x.width (s.linkLanes link)) (t.widthCap link))

/-- The same with the bits of the rate mode and of RETRAIN and RETRY that end with a training. -/
def State.linkUpStore (s : State) (link : Nat) (x : Partner) : State :=
  (((s.linkUpWidth link x).wrB .cylRateStatus 1 (s.settleRate link x == 128) link).wrB .lnkCtrl 8 false link).wrB .cylRateCtrl 1 false link

/-- What a trained link tells: a fall from 128 GT/s, a PCIe-only partner, and the bindings that a root port leaves inactive (R111). -/
def State.linkUpTell (s : State) (link : Nat) (x : Partner) (fell : Bool) : State :=
  let s := if fell then s.fellBack link else s
  let s := if x.cxl && x.flit256 then s else s.event { reg := .lnkEvent, bit := 3, link := some link } link
  if x.switch then s else
  s.binding.foldl (fun (s : State) b => if b.1 / 16 = link ∧ b.1 % 16 ≠ 0 ∧ b.2.isSome then s.raise { reg := .prtBind, part := b.2, link := some link, args := [b.1 % 16] } else s) s

theorem execLinkUp_trains {s : State} {link : LinkId} {x : Partner} (ht : s.mayTrain link = true) (hst : [0, 1, 6, 8].contains (s.linkState link) = true)
    (hr : s.settleRate link x ≠ 0) (hw : min x.width (s.linkLanes link) ≠ 0) :
    execLinkUp link x s = .next ((s.linkUpStore link x).linkUpTell link x (s.rdB .cylRateStatus 1 link && s.settleRate link x != 128)) := by
  unfold execLinkUp
  simp only []
  rw [if_neg (by simp only [ht, hst, beq_eq_false_iff_ne.2 hr, beq_eq_false_iff_ne.2 hw]; decide)]
  rfl

/-- Training's fields of LNK_STATUS. -/
theorem fld_trainedWord (x : Partner) {code width st : Nat} (hc : code < 16) (hw : width < 32) (hst : st < 16) (keep : Bool) (w : Word) :
    fld (trainedWord x code width st keep w) 0 4 = st ∧ fld (trainedWord x code width st keep w) 4 4 = code ∧
    fld (trainedWord x code width st keep w) 8 5 = width := by
  have h4 : code % 2 ^ 4 = code := Nat.mod_eq_of_lt hc
  have h8 : width % 2 ^ 5 = width := Nat.mod_eq_of_lt hw
  have h0 : st % 2 ^ 4 = st := Nat.mod_eq_of_lt hst
  cases keep <;>
    simp (disch := omega) only [trainedWord, if_true, reduceIte, Bool.false_eq_true, fld_setFld_self, fld_setFld_ne, h4, h8, h0, and_self]

section
variable {s : State} {link : Nat} {x : Partner} (hs : s.Canonical)
include hs

theorem State.linkUpWord_canonical : (s.linkUpWord link x).Canonical :=
  (State.wr_keeps (State.setLink_keeps (Keeps.refl s) ..) ..).canonical hs

theorem State.linkUpWidth_canonical : (s.linkUpWidth link x).Canonical :=
  (State.setActive_keeps (Keeps.refl _) ..).canonical (State.linkUpWord_canonical hs)

theorem State.linkUpWord_fields :
    (s.linkUpWord link x).linkState link = (if x.cxl && x.flit256 then 2 else 7) ∧
    (s.linkUpWord link x).rdF .lnkStatus 4 4 link = rateCode (s.settleRate link x) ∧
    (s.linkUpWord link x).rdF .lnkStatus 8 5 link = min x.width (s.linkLanes link) := by
  have hf (a k : Nat) (h : a + k ≤ 32) := State.rdF_wr_self (s := s.setLink link ((s.link link).offered x (s.portRec (link / 4)).ide)) hs.regs .lnkStatus
    (trainedWord x (rateCode (s.settleRate link x)) (min x.width (s.linkLanes link)) (if x.cxl && x.flit256 then 2 else 7)
      (s.linkState link == 6 && (x.cxl && x.flit256)) (s.rd .lnkStatus link)) a k link 0 h
  have hl := s.linkLanes_bounds link
  obtain ⟨h0, h4, h8⟩ := fld_trainedWord x (rateCode_lt (s.settleRate link x)) (width := min x.width (s.linkLanes link)) (by omega)
    (st := if x.cxl && x.flit256 then 2 else 7) (by split <;> decide) (s.linkState link == 6 && (x.cxl && x.flit256)) (s.rd .lnkStatus link)
  exact ⟨(hf 0 4 (by decide)).trans h0, (hf 4 4 (by decide)).trans h4, (hf 8 5 (by decide)).trans h8⟩

theorem State.linkUpWord_widthCap : (s.linkUpWord link x).widthCap link = s.widthCap link := by
  refine State.widthCap_congr (State.rd_wr_name (s := s.setLink link _) hs.regs (by decide) ..) ?_
  have h : (s.linkUpWord link x).link link = (s.link link).offered x (s.portRec (link / 4)).ide := State.link_setLink_self hs ..
  rw [h]
  rfl

/-- A trained link's LNK_STATUS: STATE tells a PCIe-only partner and a reduced width; rate and widths are those of R116 to R118. -/
theorem State.linkUpWidth_fields :
    (s.linkUpWidth link x).rdF .lnkStatus 8 5 link = min x.width (s.linkLanes link) ∧
    (s.linkUpWidth link x).rdF .lnkStatus 13 5 link = min (min x.width (s.linkLanes link)) (s.widthCap link) ∧
    (s.linkUpWidth link x).rdF .lnkStatus 4 4 link = rateCode (s.settleRate link x) ∧
    (s.linkUpWidth link x).linkState link =
      (if x.cxl && x.flit256 then (if min (min x.width (s.linkLanes link)) (s.widthCap link) < min x.width (s.linkLanes link) then 3 else 2) else 7) := by
  have hr := (State.linkUpWord_canonical (link := link) (x := x) hs).regs
  have hl := s.linkLanes_bounds link
  obtain ⟨h0, h4, h8⟩ := State.linkUpWord_fields (link := link) (x := x) hs
  simp only [State.linkUpWidth, State.linkUpWord_widthCap hs]
  rw [State.rdF_setActive_between hr _ _ (a := 8) (by decide) (by decide), State.rdF_setActive_between hr _ _ (a := 4) (by decide) (by decide),
    State.rdF_setActive_active hr _ (by omega), State.linkState_setActive hr, h4, h8]
  refine ⟨rfl, rfl, rfl, ?_⟩
  rw [State.linkCarries, h0]
  cases x.cxl && x.flit256 <;> rfl

theorem State.linkUpStore_statusAt : StatusAt link ((s.linkUpWidth link x).rd .lnkStatus link) (s.linkUpStore link x) :=
  StatusAt.wrB (StatusAt.wrB (StatusAt.wrB ⟨State.linkUpWidth_canonical hs, rfl⟩ (by decide) ..) (by decide) ..) (by decide) ..

end

/-- Telling of a trained link leaves its LNK_STATUS alone: a trained link is not in L1. -/
theorem StatusAt.linkUpTell {link : Nat} {v : Word} (hv : fld v 0 4 ≠ 4 ∧ fld v 0 4 ≠ 5) {s : State} (h : StatusAt link v s) (x : Partner) (fell : Bool) :
    StatusAt link v (s.linkUpTell link x fell) := by
  have hf : StatusAt link v (if fell then s.fellBack link else s) := .ite ((h.wrB (by decide) ..).wrB (by decide) ..) h
  have he := StatusAt.ite (c := (x.cxl && x.flit256) = true) hf ((hf.wrB (n := .lnkEvent) (by decide) 3 true link 0).raise hv { reg := .lnkEvent, bit := 3, link := some link })
  exact .ite he (foldl_inv (fun _ _ hb => .ite (hb.raise hv _) hb) _ he)

/-- A link that trains takes the settled rate and the narrower width (R116 to R118). -/
theorem exec_linkUp_fields {s : State} {link : LinkId} {x : Partner} (hs : s.Canonical) (ht : s.mayTrain link = true)
    (hst : s.linkState link = 0 ∨ s.linkState link = 1) (hr : s.settleRate link x ≠ 0) (hx : 0 < x.width) :
    ∃ t, exec (.linkUp link x) s = .next t ∧ t.rdF .lnkStatus 8 5 link = min x.width (s.linkLanes link) ∧
      t.rdF .lnkStatus 13 5 link = min (min x.width (s.linkLanes link)) (s.widthCap link) ∧ t.rdF .lnkStatus 4 4 link = rateCode (s.settleRate link x) ∧
      t.rdF .lnkStatus 0 4 link =
        (if x.cxl && x.flit256 then (if min (min x.width (s.linkLanes link)) (s.widthCap link) < min x.width (s.linkLanes link) then 3 else 2) else 7) := by
  have hl := s.linkLanes_bounds link
  have hst' : [0, 1, 6, 8].contains (s.linkState link) = true := by rcases hst with h | h <;> rw [h] <;> rfl
  obtain ⟨h8, h13, h4, h0⟩ := State.linkUpWidth_fields (link := link) (x := x) hs
  have hv : (s.linkUpWidth link x).linkState link ≠ 4 ∧ (s.linkUpWidth link x).linkState link ≠ 5 := by
    rw [h0]
    split_ifs <;> decide
  have h := (State.linkUpStore_statusAt (link := link) (x := x) hs).linkUpTell hv x (s.rdB .cylRateStatus 1 link && s.settleRate link x != 128)
  refine ⟨_, execLinkUp_trains ht hst' hr (by omega), ?_⟩
  simp only [State.rdF, h.status]
  exact ⟨h8, h13, h4, h0⟩

/-! Recovery, disabling and the rate mode (R110, R122, R124, R139, R147). -/

theorem State.enterRecovery_of_mem {s : State} {link : Nat} (h : s.linkState link = 2 ∨ s.linkState link = 3 ∨ s.linkState link = 7) :
    s.enterRecovery link = ((s.setLink link { s.link link with back := s.linkState link }).setLinkState link 6).incErr .lnkRecovery link := by
  have hc : [2, 3, 4, 5, 7].contains (s.linkState link) = true := by rcases h with h | h | h <;> rw [h] <;> rfl
  simp only [State.enterRecovery, hc, Bool.not_true, Bool.false_eq_true, if_false]

theorem State.retrain_of_mem {s : State} {link : Nat} (h : s.linkState link = 2 ∨ s.linkState link = 3 ∨ s.linkState link = 7) (hd : s.rdB .lnkCtrl 9 link = false) :
    s.retrain link = (s.enterRecovery link).setB .lnkCtrl 8 link := by
  have hc : [0, 1, 8].contains (s.linkState link) = false := by rcases h with h | h | h <;> rw [h] <;> rfl
  simp only [State.retrain, hc, hd, Bool.or_self, Bool.false_eq_true, if_false]

theorem execLinkDown_of_up {s : State} {link : LinkId} (h : [0, 1, 8].contains (s.linkState link) = false) : execLinkDown link s = .next (s.linkDown link 0) := by
  simp only [execLinkDown, h, Bool.false_eq_true, if_false]

theorem execPerstAssert_glitch {n : Nat} (hn : n ≤ 1000) (port : Fin 8) (s : State) : execPerstAssert port n s = .next s := by
  rw [execPerstAssert, if_pos hn]

theorem execPerstAssert_reset {n : Nat} (hn : 1000 < n) (port : Fin 8) (s : State) :
    execPerstAssert port n s = .next ((portLinks port).foldl (fun t k => let u := t.linkDown k 0
      (u.setLink k { u.link k with perst := true }).rateReset k) s) := by
  rw [execPerstAssert, if_neg (by omega)]

/-- An entry that is found stays so when another key is dropped, in whatever order the keys stand. -/
theorem Store.find_drop_of_some {α : Type} {k m : Nat} (hm : m ≠ k) {v : α} : ∀ {t : Store α}, Store.find m t = some v → Store.find m (Store.drop k t) = some v
  | [], h => h
  | (j, w) :: t, h => by
    unfold Store.drop
    split
    · rw [Store.find, if_neg (by omega)] at h
      split at h
      · cases h
      · exact h
    · split
      · exact h
      · rw [Store.find] at h ⊢
        split_ifs at h ⊢ with hj
        · exact h
        · exact Store.find_drop_of_some hm h

/-- A listed entry reads as before when another key is written. -/
theorem Store.get_set_of_some {α : Type} [DecidableEq α] {d e v w : α} {k m : Nat} (hm : m ≠ k) {t : Store α} (h : Store.find m t = some w) :
    Store.get e m (Store.set d k v t) = w := by
  unfold Store.get Store.set
  split
  · rw [Store.find_drop_of_some hm h]; rfl
  · rw [Store.find_put_ne hm, h]; rfl

/-- A register that does not read as its reset word is listed, and keeps its word when a register of another name is written. -/
theorem State.rd_wr_name_of_listed {s : State} {m n : RegName} (hn : m ≠ n) {i j a b : Nat} (h : s.rd m a b ≠ RegId.resetWord ⟨m, a, b⟩) (v : Word) :
    (s.wr n v i j).rd m a b = s.rd m a b := by
  have hk : RegId.key ⟨m, a, b⟩ ≠ RegId.key ⟨n, i, j⟩ := fun e => hn (RegId.key_eq e).1
  unfold State.rd RegFile.read at *
  cases hf : Store.find (RegId.key ⟨m, a, b⟩) s.regs with
  | none => exact absurd (by rw [Store.get, hf]; rfl) h
  | some w =>
    rw [show (s.wr n v i j).regs = s.regs.write ⟨n, i, j⟩ v from rfl, RegFile.write, Store.get_set_of_some hk hf, Store.get, hf]
    rfl

/-- A disabled link's STATE of 8 stays when DISABLE is cleared. -/
theorem State.linkState_clrB_of_disabled {s : State} {link : Nat} (h : s.linkState link = 8) (b i : Nat) : (s.clrB .lnkCtrl b i).linkState link = 8 := by
  have hl : s.rd .lnkStatus link ≠ RegId.resetWord ⟨.lnkStatus, link, 0⟩ := by
    intro e
    rw [State.linkState, State.rdF, e] at h
    exact absurd h (show fld 0 0 4 ≠ 8 by decide)
  rw [State.linkState, State.rdF, show (s.clrB .lnkCtrl b i).rd .lnkStatus link = s.rd .lnkStatus link from State.rd_wr_name_of_listed (by decide) hl _]
  exact h

theorem execLinkEnable_disabled {s : State} {link : LinkId} (h : s.linkState link = 8) :
    execLinkEnable link s = .next (((s.clrB .lnkCtrl 9 link).setLinkState link 0).startTraining link) := by
  rw [execLinkEnable, State.enableLink, if_pos (State.linkState_clrB_of_disabled h ..)]

/-- On a canonical register file clearing DISABLE leaves the STATE of a link that is not disabled alone, and LINK_ENABLE does nothing else (R147). -/
theorem execLinkEnable_enabled {s : State} (hs : s.Canonical) {link : LinkId} (h : s.linkState link ≠ 8) :
    execLinkEnable link s = .next (s.clrB .lnkCtrl 9 link) := by
  have hl : (s.clrB .lnkCtrl 9 link).linkState link = s.linkState link := by
    rw [State.linkState, State.rdF, State.rd_clrB_name hs.regs (by decide)]
    rfl
  rw [execLinkEnable, State.enableLink, if_neg (by rw [hl]; exact h)]

/-- The failures of the last second, this one included. -/
def State.eqFailTimes (s : State) (link : Nat) : List Nat := (s.link link).eqFails.filter (fun t => decide (s.time ≤ t + 1000000000)) ++ [s.time]

section
variable {s : State} {link : LinkId} (ha : s.rdB .cylRateStatus 0 link = true)
include ha

theorem execEqFail128_few (h : (s.eqFailTimes link).length < 3) :
    execEqFail128 link s = .next ((s.setLink link { s.link link with eqFails := s.eqFailTimes link }).incErr .cylRateCount link) := by
  unfold State.eqFailTimes at *
  simp only [execEqFail128, ha, Bool.not_true, Bool.false_eq_true, if_false, if_pos h]

theorem execEqFail128_third (h : 3 ≤ (s.eqFailTimes link).length) :
    let t := (s.setLink link { s.link link with eqFails := s.eqFailTimes link }).incErr .cylRateCount link
    execEqFail128 link s = .next ((((((t.setB .cylRateStatus 2 link).armUpdate link).wrB .cylRateStatus 1 false link).setB .cylRateStatus 8 link).setB .lnkEvent 1 link).raise
      { reg := .lnkEvent, bit := 1, link := some link.val }) := by
  have h' := Nat.not_lt.2 h
  unfold State.eqFailTimes at *
  simp only [execEqFail128, ha, Bool.not_true, Bool.false_eq_true, if_false, if_neg h']
  rfl

end

/-! Link power and IDE (R125 to R132). -/

section
variable {s : State} {link : LinkId}

theorem execAspmL1Exit_of_l1 (h : s.linkState link = 4 ∨ s.linkState link = 5) (w : L1Wake) :
    execAspmL1Exit link w s = .next ((s.setLink link { s.link link with back := 0 }).setLinkState link (s.link link).back) := by
  have hn : ¬ (s.rdF .lnkStatus 0 4 link ≠ 4 ∧ s.rdF .lnkStatus 0 4 link ≠ 5) := fun hc => h.elim hc.1 hc.2
  rw [execAspmL1Exit, State.leaveL1, if_neg hn]
  rfl

theorem execAspmL1Entry_stays {ms : Nat} (h : s.linkIdle link = false ∨ ms ≤ s.rdF .lnkCtrl 2 4 link) (v : Fin 2) : execAspmL1Entry link (some v) ms s = .next s := by
  have hc : (!s.linkIdle link || decide (ms < s.l1Idle link)) = true := by
    rcases h with h | h
    · rw [h]; rfl
    · rw [decide_eq_true (p := ms < s.l1Idle link) (Nat.lt_succ_of_le h), Bool.or_true]
  simp only [execAspmL1Entry, Bool.or_assoc, hc, Bool.or_true, if_true]

variable (hc : s.linkCarries link = true)
include hc

theorem execL0pWidthChange_narrow (hl : (s.link link).l0p = true) (he : s.rdB .lnkCtrl 0 link = true) {n : Nat} (hn : n ≤ 400) (ha : 4 ≤ s.rdF .lnkStatus 13 5 link) :
    execL0pWidthChange link (.narrow n) s = .next ((s.setLink link { s.link link with l0pWidth := s.rdF .lnkStatus 13 5 link / 2 }).setActive link (s.rdF .lnkStatus 13 5 link / 2)) := by
  simp only [execL0pWidthChange, hc, hl, he, hn, ha, Bool.not_true, Bool.or_self, Bool.false_eq_true, if_false, and_self, if_true]

theorem execL0pWidthChange_widen (hl : (s.link link).l0p = true) (he : s.rdB .lnkCtrl 0 link = true) {n : Nat} {w : Bool} (hn : 800 < n ∨ w = true)
    (ha : s.rdF .lnkStatus 13 5 link < min (s.rdF .lnkStatus 8 5 link) (s.widthCap link)) :
    let a := s.rdF .lnkStatus 13 5 link
    let full := min (s.rdF .lnkStatus 8 5 link) (s.widthCap link)
    execL0pWidthChange link (.widen n w) s = .next ((s.setLink link { s.link link with l0pWidth := if full ≤ 2 * a then 16 else 2 * a }).setActive link (min (2 * a) full)) := by
  have hw : ((800 < n || w) && decide (s.rdF .lnkStatus 13 5 link < min (s.rdF .lnkStatus 8 5 link) (s.widthCap link))) = true := by
    simpa [ha] using hn
  simp only [execL0pWidthChange, hc, hl, he, hw, Bool.not_true, Bool.or_self, Bool.false_eq_true, if_false, if_true]

theorem execAspmL1Entry_enters (he : s.rdB .lnkCtrl 1 link = true) (hi : s.linkIdle link = true) {ms : Nat} (hm : s.rdF .lnkCtrl 2 4 link < ms) (v : Fin 2) :
    execAspmL1Entry link (some v) ms s = .next ((s.setLink link { s.link link with back := s.linkState link }).setLinkState link (4 + v.val)) := by
  have hl : decide (ms < s.l1Idle link) = false := decide_eq_false (Nat.not_lt.2 hm)
  simp only [execAspmL1Entry, hc, he, hi, hl, Bool.not_true, Bool.or_self, Bool.false_eq_true, if_false]

theorem execIdeKeyExchange_secures {ld : Option LdId} (hd : s.doeAt link ld = true) (hf : s.fpDown 0 = false) (hp : (s.link link).idePolicy ≠ 0)
    (hb : (s.link link).ideBoth = true) (fresh : Bool) :
    execIdeKeyExchange link ld fresh true s = .next ((s.setLink link { s.link link with keyed := true, ideTold := false }).wrF .lnkStatus 20 3 3 link) := by
  simp only [execIdeKeyExchange, hc, hd, hf, beq_eq_false_iff_ne.2 hp, hb, Bool.not_true, Bool.or_self, Bool.false_eq_true, if_false]

theorem execIdeCheckFail_insecure (hk : (s.link link).keyed = true) :
    execIdeCheckFail link s = .next (((s.setLink link { s.link link with keyed := false, ideTold := false }).wrF .lnkStatus 20 3 4 link).event
      { reg := .lnkEvent, bit := 2, link := some link.val } link) := by
  simp only [execIdeCheckFail, hc, hk, Bool.not_true, Bool.or_self, Bool.false_eq_true, if_false]

end

/-! Bindings and GPF (R2, R112, R134). -/

section
variable {s : State} {link : LinkId} {ld : LdId} {p : PartId}

theorem execFmLdBindUnbind_binds (hp : (s.part p).cfg.isSome = true) (hf : Store.get none (16 * link.val + ld.val) s.binding = none)
    (hn : (s.binding.filter (fun e => e.2 == some p.val)).length < 32) :
    execFmLdBindUnbind link ld (some p) s =
      .next ((({ s with binding := Store.set none (16 * link.val + ld.val) (some p.val) s.binding } : State).ldActive link ld (s.memActive p)).send (.fm [0])) := by
  have hl : ¬ maxBindings ≤ (s.binding.filter (fun e => e.2 == some p.val)).length := Nat.not_le.2 hn
  have hc : (s.part p).cfg.isNone = false := by rw [← Option.not_isSome, hp]; rfl
  simp only [execFmLdBindUnbind, hc, hf, decide_eq_false hl, Option.isSome_none, Bool.or_self, Bool.false_eq_true, if_false]

theorem execFmLdBindUnbind_full (hn : 32 ≤ (s.binding.filter (fun e => e.2 == some p.val)).length) :
    execFmLdBindUnbind link ld (some p) s = .next (s.send (.fm [1])) := by
  have hl : maxBindings ≤ (s.binding.filter (fun e => e.2 == some p.val)).length := hn
  simp only [execFmLdBindUnbind, decide_eq_true hl, Bool.or_true, if_true]

end

theorem execGpfPhase2_done {s t : State} (ht : t = (((s.flushSlots (fun _ => true)).releaseWrites 0).releaseWrites 1).commitAll) (hw : t.lens.heldW = [])
    (hx : ∀ x ∈ t.lens.slots, x.written = 0) (hc : t.shwClean = true) (link : LinkId) : execGpfPhase2 link s = .next (t.send (.gpfDone link)) := by
  have hx' : t.lens.slots.all (fun x => x.written == 0) = true := List.all_eq_true.2 fun x h => beq_iff_eq.2 (hx x h)
  simp only [execGpfPhase2, ← ht, hw, hx', hc, List.isEmpty_nil, Bool.and_self, if_true]

/-! Crossings between cores (R33 to R35). -/

section
variable {s : State} {a b : Nat}

theorem execCrossingWatchdogExpiry_paused {since : Nat} {l : List WaitOp} (h : s.departed 1 = true ∨ s.ackedSince (islandPair (.core a) (.core b)) since = true) :
    execCrossingWatchdogExpiry (.core a) (.core b) since l s = .next s := by
  have hc : (s.departed 1 || s.departed 1 || s.ackedSince (islandPair (.core a) (.core b)) since) = true := by
    rcases h with h | h <;> simp [h]
  simp only [execCrossingWatchdogExpiry, State.crossPaused, hc, if_true]

/-- The watchdog's bound between two cores. -/
theorem crossBound_core (a b : Nat) : crossBound (.core a) (.core b) = if a / 64 = b / 64 then 2000 else 8000 := rfl

theorem execCrossingWatchdogExpiry_counts {since : Nat} (hd : s.departed 1 = false) (ha : s.ackedSince (islandPair (.core a) (.core b)) since = false) :
    let k := islandPair (.core a) (.core b)
    let t := s.reach (since + if a / 64 = b / 64 then 2000 else 8000)
    execCrossingWatchdogExpiry (.core a) (.core b) since [] s =
      .next (({ t with cross := { t.cross with timeouts := Store.set 0 k (min (Store.get 0 k t.cross.timeouts + 1) (2 ^ 32 - 1)) t.cross.timeouts, lastAt := some t.time, late := t.cross.late ++ [k], phase := Store.set 0 k 0 t.cross.phase } } : State).raise
        { reg := .lnkEvent, bit := 4, status := stTimeout, args := [islandNo (.core a), islandNo (.core b)] }) := by
  simp only [execCrossingWatchdogExpiry, State.crossPaused, State.crossUnit, crossBound_core, hd, ha, Bool.or_self, Bool.false_eq_true, if_false, List.foldl_nil]

theorem execCrossingAcknowledge_late {l : List Nat} (h : s.cross.late = islandPair (.core a) (.core b) :: l) :
    execCrossingAcknowledge (.core a) (.core b) s =
      .next { s with cross := { s.cross with unexpected := min (s.cross.unexpected + 1) (2 ^ 32 - 1), late := l } } := by
  simp only [execCrossingAcknowledge, h, takeFirst, beq_self_eq_true, if_true]

theorem execCrossingAcknowledge_onTime (h : s.cross.late = []) :
    let k := islandPair (.core a) (.core b)
    execCrossingAcknowledge (.core a) (.core b) s =
      .next { s with cross := { s.cross with phase := Store.set 0 k (1 - Store.get 0 k s.cross.phase) s.cross.phase, acked := Store.set none k (some s.time) s.cross.acked } } := by
  simp only [execCrossingAcknowledge, h, takeFirst]

end

/-! O56 as a whole. -/

/-- Every clause of O56 but one holds on every state: what is left is that LINK_ENABLE of a link whose STATE is not 8 clears DISABLE and nothing else. -/
theorem linkEvents_iff :
    Obligations.LinkEvents ↔ ∀ (s : State) (link : LinkId), s.linkState link ≠ 8 → exec (.linkEnable link) s = .next (s.clrB .lnkCtrl 9 link) := by
  constructor
  · rintro ⟨-, -, -, -, hctl, -⟩ s link
    obtain ⟨-, -, henable, -⟩ := hctl s link
    exact henable
  · intro henable
    refine ⟨?train, ?down, ?perst, ?recover, ?control, ?eqFail, ?power, ?l1Exit, ?binding, ?crossing⟩
    case train => exact fun s link x hs ht hst hr hx => exec_linkUp_fields hs ht hst hr hx
    case down => exact fun s link h => execLinkDown_of_up h
    case perst => exact fun s port => ⟨fun n hn => execPerstAssert_glitch hn port s, fun n hn => execPerstAssert_reset hn port s, rfl⟩
    case recover =>
      refine fun s link h => ⟨congrArg Host.Outcome.next (State.enterRecovery_of_mem h), fun hd => congrArg Host.Outcome.next ?_⟩
      rw [State.retrain_of_mem h hd, State.enterRecovery_of_mem h]
    case control => exact fun s link => ⟨rfl, execLinkEnable_disabled, henable s link, rfl, rfl⟩
    case eqFail => exact fun s link ha => ⟨execEqFail128_few ha, execEqFail128_third ha⟩
    case power =>
      exact fun s link hc => ⟨fun hl he => ⟨fun n hn ha => execL0pWidthChange_narrow hc hl he hn ha, fun n w hn ha => execL0pWidthChange_widen hc hl he hn ha⟩, rfl,
        fun v ms he hi hm => execAspmL1Entry_enters hc he hi hm v, fun v ms h => execAspmL1Entry_stays h v,
        fun ld fresh hd hf hp hb => execIdeKeyExchange_secures hc hd hf hp hb fresh, execIdeCheckFail_insecure hc⟩
    case l1Exit => exact fun s link w h => execAspmL1Exit_of_l1 h w
    case binding =>
      exact fun s link ld => ⟨rfl, rfl, rfl, fun p hp hf => ⟨execFmLdBindUnbind_binds hp hf, execFmLdBindUnbind_full⟩, rfl,
        fun t ht hw hx hc => execGpfPhase2_done ht hw hx hc link⟩
    case crossing =>
      exact fun s a b => ⟨fun since h => execCrossingWatchdogExpiry_paused h, fun since hd ha => execCrossingWatchdogExpiry_counts hd ha,
        fun l h => execCrossingAcknowledge_late h, execCrossingAcknowledge_onTime⟩

/-- A register file whose keys fall: LNK_CTRL of link 0, DISABLE set, hides the STATE of 8 that stands behind it. -/
def fallingLinkRegs : State := { regs := [(RegId.key ⟨.lnkCtrl, 0, 0⟩, 0x203), (RegId.key ⟨.lnkStatus, 0, 0⟩, 8)] }

/-- Refutes O56: its clause on LINK_ENABLE has no premise that the register file is canonical. In fallingLinkRegs the STATE of link 0 reads 0 until clearing DISABLE brings LNK_CTRL
back to its reset value and off the list; then it reads 8, and LINK_ENABLE takes it to 0. Every other clause holds (linkEvents_iff), and on a canonical state this one too (execLinkEnable_enabled). -/
theorem not_linkEvents : ¬ Obligations.LinkEvents := by
  rw [linkEvents_iff]
  intro h
  have hread : fallingLinkRegs.linkState 0 ≠ 8 := by decide
  have hstate : (fallingLinkRegs.enableLink 0).linkState 0 = (fallingLinkRegs.clrB .lnkCtrl 9 0).linkState 0 := by
    have he : execLinkEnable 0 fallingLinkRegs = .next (fallingLinkRegs.clrB .lnkCtrl 9 0) := h fallingLinkRegs 0 hread
    exact congrArg (State.linkState · 0) (Host.Outcome.next.inj he)
  exact absurd hstate (by decide)

end Sys2Proof.Machine
end

section
/-! PROOFS. Structure image (02_structure_image): module resets, shutdown, staging and image loads. -/

namespace Sys2Proof.Machine

/-! Bytes of the staging window (R71). -/

/-- An entry that is listed is found, whatever else the store lists. -/
theorem Store.get_set_some_self {α : Type} [DecidableEq α] {k : Nat} {v : α} {t : Store (Option α)} : Store.get none k (Store.set none k (some v) t) = some v := by
  rw [Store.set, if_neg (Option.some_ne_none v), Store.get, Store.find_put_self]
  rfl

theorem Store.get_set_some_ne {α : Type} [DecidableEq α] {k m : Nat} (hm : m ≠ k) {v : α} {t : Store (Option α)} :
    Store.get none m (Store.set none k (some v) t) = Store.get none m t := by
  rw [Store.set, if_neg (Option.some_ne_none v), Store.get, Store.find_put_ne hm, Store.get]

/-- The staging window after byte `i` of a value written at `off`. -/
def stageCell (off val : Nat) (t : Store (Option Byte)) (i : Nat) : Store (Option Byte) :=
  if off + i < 2 ^ 19 then Store.set none (off + i) (some (BitVec.ofNat 8 (val / 256 ^ i))) t else t

theorem get_foldl_stageCell {off val : Nat} (t : Store (Option Byte)) (j : Nat) : ∀ n : Nat, off + n ≤ 2 ^ 19 →
    Store.get none j ((List.range n).foldl (stageCell off val) t) =
      if off ≤ j ∧ j < off + n then some (BitVec.ofNat 8 (val / 256 ^ (j - off))) else Store.get none j t
  | 0, _ => (if_neg (by omega)).symm
  | n + 1, h => by
    have ih := get_foldl_stageCell (off := off) (val := val) t j n (by omega)
    rw [List.range_succ, List.foldl_append, List.foldl_cons, List.foldl_nil, stageCell, if_pos (show off + n < 2 ^ 19 by omega)]
    by_cases hj : j = off + n
    · subst hj
      rw [Store.get_set_some_self, if_pos (by omega), Nat.add_sub_cancel_left]
    · rw [Store.get_set_some_ne hj, ih]
      exact if_congr (by omega) rfl rfl

section
variable {s : State}

theorem State.stageWrite_of_idle (hl : s.img.loading = false) (off n val : Nat) :
    s.stageWrite off n val = { s with img := { s.img with staging := (List.range n).foldl (stageCell off val) s.img.staging } } :=
  if_neg (by simp [hl])

/-- A write of `n` bytes inside the window is read back byte by byte, and leaves every other byte. -/
theorem State.stageByte_stageWrite (hl : s.img.loading = false) {off n : Nat} (h : off + n ≤ 2 ^ 19) (val j : Nat) :
    (s.stageWrite off n val).stageByte j = if off ≤ j ∧ j < off + n then BitVec.ofNat 8 (val / 256 ^ (j - off)) else s.stageByte j := by
  rw [State.stageWrite_of_idle hl, State.stageByte, get_foldl_stageCell _ j n h]
  split
  · rfl
  · rfl

theorem execStagingWrite_word {off : Nat} (ha : off % 4 = 0) (h : off + 4 ≤ 2 ^ 19) (val : Nat) : execStagingWrite off 4 val s = .next (s.stageWrite off 4 val) :=
  congrArg Host.Outcome.next (if_pos ⟨rfl, ha, h⟩)

theorem execStagingWrite_unsupported {off n : Nat} (h : n ≠ 4 ∨ off % 4 ≠ 0) (val : Nat) :
    execStagingWrite off n val s = .next (s.send (.unsupported .mgmt (0x80000 + off))) :=
  congrArg Host.Outcome.next (if_neg (by omega))

/-- The staging window takes an aligned word, and nothing else of it changes. -/
theorem execStagingWrite_stores {off : Nat} (ha : off % 4 = 0) (h : off + 4 ≤ 2 ^ 19) (hl : s.img.loading = false) (val : Nat) :
    ∃ t, execStagingWrite off 4 val s = .next t ∧ (∀ i, i < 4 → t.stageByte (off + i) = BitVec.ofNat 8 (val / 256 ^ i)) ∧
      ∀ j, j < off ∨ off + 4 ≤ j → t.stageByte j = s.stageByte j := by
  refine ⟨s.stageWrite off 4 val, execStagingWrite_word ha h val, fun i hi => ?_, fun j hj => ?_⟩
  · rw [State.stageByte_stageWrite hl h, if_pos (by omega), Nat.add_sub_cancel_left]
  · rw [State.stageByte_stageWrite hl h, if_neg (by omega)]

/-! MOD_RST_N (R90). -/

theorem execModRstAssert_glitch {n : Nat} (hn : n ≤ 1000) : execModRstAssert n s = .next s :=
  congrArg Host.Outcome.next (if_pos hn)

/-- Below PHASE 6 nothing is to be flushed, and the module is not off. -/
theorem execModRstAssert_starting {n : Nat} (hn : 1000 < n) (hh : s.handover = false) (hp : s.rdF .strStartState 0 4 < 6) :
    execModRstAssert n s = .next (s.coldReset 1) := by
  have h7 : ¬ (s.handover || s.rdF .strStartState 0 4 == 7) = true := by simp [hh]; omega
  have h6 : ¬ (s.rdF .strStartState 0 4 = 6 ∧ (!s.flushOrder.isEmpty) = true) := fun h => by omega
  have h8 : ¬ (s.rdF .strStartState 0 4 = 8 ∧ s.start.cause = 4) := fun h => by omega
  rw [execModRstAssert, if_neg (by omega), if_neg h7, if_neg h6, if_neg h8]

theorem execModRstDeassert_held (hc : s.start.coldAfter = false) (hh : s.start.held = true) (env : StartEnv) :
    execModRstDeassert env s = .next (s.coldStart env) := by
  rw [execModRstDeassert, if_neg (by simp [hc]), if_pos (by simp [hh])]

/-! Warm reset and shutdown (R99, R100, R102). -/

section
variable (hh : s.handover = false)
include hh

/-- The guard of WARM and of SHUTDOWN in PHASE 6: no hand-over, so that the command is taken. -/
theorem State.taken_of_running (hp : s.rdF .strStartState 0 4 = 6) : ¬ (s.rdF .strStartState 0 4 ≠ 6 ∨ s.handover = true) := by simp [hp, hh]

theorem execWarmReset_runs (hp : s.rdF .strStartState 0 4 = 6) (hl : s.img.loading = false) (env : StartEnv) :
    execWarmReset env s = .next (s.stopModule.warmStart env 2) := by
  rw [execWarmReset, State.warmCmd, if_neg (State.taken_of_running hh hp), if_neg (by simp [hl]), State.warmReset]

theorem execWarmReset_waits (hp : s.rdF .strStartState 0 4 = 6) (hl : s.img.loading = true) (hr : s.img.heldReset = none) (env : StartEnv) :
    execWarmReset env s = .next { s.setB .strResetCtrl 0 with img := { s.img with heldReset := some (some env) } } := by
  rw [execWarmReset, State.warmCmd, if_neg (State.taken_of_running hh hp), if_pos hl, if_neg (by simp [hr])]

theorem execShutdown_runs (hp : s.rdF .strStartState 0 4 = 6) (hl : s.img.loading = false) :
    execShutdown s = .next (s.stopModule.setB .strResetCtrl 1) := by
  rw [execShutdown, State.shutdownCmd, if_neg (by omega), if_neg (State.taken_of_running hh hp), if_neg (by simp [hl])]

/-- R102: a warm reset that is under way becomes a shutdown. -/
theorem execShutdown_overtakes_warm (hp : s.rdF .strStartState 0 4 = 7) (hw : s.rdB .strResetCtrl 0 = true) :
    execShutdown s = .next ((s.clrB .strResetCtrl 0).setB .strResetCtrl 1) :=
  congrArg Host.Outcome.next (if_pos ⟨hp, hw, by simp [hh]⟩)

/-- The journals are recorded, the carriers' channels go down, and the module is off; `t` is what the durable flush leaves. -/
theorem execShutdownComplete_off (hp : s.rdF .strStartState 0 4 = 7) {t : State} (ht : t = s.flushDurable none) (hc : t.start.coldAfter = false) :
    let u : State := { t with start := { t.start with cause := 0, clean := t.journalsWhole, flushed := true } }
    execShutdownComplete s =
      .next ((((List.range 4).foldl (fun v b => ((v.wrB .carBSlotStatus 1 false b).setInd b 0).channelsDown b) u).wrF .strStartState 0 4 8).clrB .strResetCtrl 1) := by
  subst ht
  have hstay : ¬ (s.rdF .strStartState 0 4 ≠ 7 ∨ s.handover = true) := by simp [hp, hh]
  exact congrArg Host.Outcome.next ((if_neg hstay).trans (if_neg (by simp [hc])))

end

/-! Image loads (R71 to R73) and revoked keys (R58). -/

theorem execImageLoadStart_starts (hl : s.img.loading = false) :
    execImageLoadStart s = .next { (s.setB .strStatus 0).setB .strLoadCtrl 0 with img := { s.img with loading := true, spoiled := false } } :=
  congrArg Host.Outcome.next (if_neg (by simp [hl]))

theorem execImageLoadStart_busy (hl : s.img.loading = true) : execImageLoadStart s = .next (s.setB .strStatus 3) :=
  congrArg Host.Outcome.next (if_pos hl)

theorem execClearPending_clears (hl : s.img.loading = false) :
    execClearPending s = .next ((({ s with img := { s.img with pendingCopy := none } } : State).clrB .strStatus 4).wr .strPendSeq 0) :=
  congrArg Host.Outcome.next (if_neg (by simp [hl]))

theorem execClearPending_busy (hl : s.img.loading = true) : execClearPending s = .next (s.setB .strStatus 3) :=
  congrArg Host.Outcome.next (if_pos hl)

theorem execKeyRevoke_adds (m : BitVec 4) : execKeyRevoke m s = .next (s.wrF .strKeyState 8 4 (s.rdF .strKeyState 8 4 ||| m.toNat)) := by
  rw [execKeyRevoke, State.revoke, Nat.mod_eq_of_lt m.isLt]

section
variable (hl : s.img.loading = true) (hb : s.rdB .pwrState 7 = false) (hf : s.fpDown 0 = false)
include hl hb hf

/-- IMAGE_LOAD_COMPLETE acts: a load runs, no power transition goes on (R564), and the processors that verify it are up (R591). -/
theorem State.completes : ¬ (!s.img.loading || s.rdB .pwrState 7 || s.fpDown 0) = true := by simp [hl, hb, hf]

theorem execImageLoadComplete_refuses {st k : Nat} (hv : s.validate s.stageByte true = .bad st k) :
    execImageLoadComplete s = .next (((s.wr .strReject (BitVec.ofNat 64 (k + 65536 * st))).event { reg := .strStatus, bit := 2, status := st, value := k }).loadEnd) := by
  simp only [execImageLoadComplete, if_neg (State.completes hl hb hf), hv, State.loadRefused]

theorem execImageLoadComplete_takesFull {i : Image} (hv : s.validate s.stageByte true = .ok i) (hk : i.kind = 0) :
    execImageLoadComplete s = .next ((((({ s with img := { s.img with pendingCopy := some (srcBytes s.stageByte 0 (imgTotal s.stageByte + 128)) } } : State).setB .strStatus 4).wr .strPendSeq
      (BitVec.ofNat 64 i.sequence)).tellSkipped i.records).loadEnd) := by
  simp only [execImageLoadComplete, if_neg (State.completes hl hb hf), hv, if_pos hk]

end
end

/-! O60 as a whole. -/

/-- Settles O60, clause by clause. That WARM waits for a load that runs, and that SHUTDOWN overtakes a warm reset, are choices of log 29; that MOD_RST_N below PHASE 6 resets with no
flush before it, and that SHUTDOWN_COMPLETE flushes before the module is off, are choices of log 45. -/
theorem resetAndImageEvents : Obligations.ResetAndImageEvents := by
  intro s
  refine ⟨?glitch, ?pulse, ?held, ?deassert, ?warm, ?warmWaits, ?shutdown, ?overtakes, ?off, ?stores, ?unsupported, ?start, ?startBusy, ?clear, ?clearBusy, ?revoke, ?refused, ?taken⟩
  case glitch => exact fun n hn => execModRstAssert_glitch hn
  case pulse => exact fun n hn hh hp => execModRstAssert_starting hn hh hp
  case held => rfl
  case deassert => exact fun env hc hh => execModRstDeassert_held hc hh env
  case warm => exact fun env hp hh hl => execWarmReset_runs hh hp hl env
  case warmWaits => exact fun env hp hh hl hr => execWarmReset_waits hh hp hl hr env
  case shutdown => exact fun hp hh hl => execShutdown_runs hh hp hl
  case overtakes => exact fun hp hw hh => execShutdown_overtakes_warm hh hp hw
  case off => exact fun hp hh t ht hc => execShutdownComplete_off hh hp ht hc
  case stores => exact fun off v ha h hl => execStagingWrite_stores ha h hl v
  case unsupported => exact fun off n v h => execStagingWrite_unsupported h v
  case start => exact execImageLoadStart_starts
  case startBusy => exact execImageLoadStart_busy
  case clear => exact execClearPending_clears
  case clearBusy => exact execClearPending_busy
  case revoke => exact execKeyRevoke_adds
  case refused => exact fun st k hl hb hf hv => execImageLoadComplete_refuses hl hb hf hv
  case taken => exact fun i hl hb hf hv hk => execImageLoadComplete_takesFull hl hb hf hv hk

end Sys2Proof.Machine
end

section
/-! PROOFS. Startup and reset (03): which operations leave the table of partitions alone. A stopped kernel or descriptor writes its last pages, ends its waits and frees what it held; on
that way only poison lists and watermarks told are kept in the table, and what follows are the operations that touch neither. -/

namespace Sys2Proof.Machine

/-! Folds. -/

@[simp] theorem foldl_parts {α : Type} {f : State → α → State} (hf : ∀ s x, (f s x).parts = s.parts) (l : List α) (s : State) : (l.foldl f s).parts = s.parts :=
  foldl_inv (P := fun t => t.parts = s.parts) (fun t x h => (hf t x).trans h) l rfl

@[simp] theorem foldl_fst_parts {α β : Type} {f : State × β → α → State × β} (hf : ∀ a x, (f a x).1.parts = a.1.parts) (l : List α) (a : State × β) :
    (l.foldl f a).1.parts = a.1.parts :=
  foldl_inv (P := fun b => b.1.parts = a.1.parts) (fun b x h => (hf b x).trans h) l rfl

variable (s : State)

/-! Updates without branches. -/

@[simp] theorem State.dropAcc_parts (names : List RegName) (i : Nat) : (s.dropAcc names i).parts = s.parts := rfl
@[simp] theorem State.nextFree_parts : s.nextFree.2.parts = s.parts := rfl
@[simp] theorem State.atLevel_parts (l : Nat) : (s.atLevel l).parts = s.parts := rfl
@[simp] theorem State.ctrlPush_parts (req : Nat) (x : Place) : (s.ctrlPush req x).parts = s.parts := rfl
@[simp] theorem State.newBase_parts (t half n : Nat) : (s.newBase t half n).2.parts = s.parts := rfl
@[simp] theorem State.nandBegin_parts (lun : Nat) (erase : Bool) : (s.nandBegin lun erase).parts = s.parts := rfl
@[simp] theorem State.dropMove_parts (p f : Nat) (running : Bool) : (s.dropMove p f running).parts = s.parts := rfl
@[simp] theorem State.dropReplica_parts (p f : Nat) : (s.dropReplica p f).parts = s.parts := rfl
@[simp] theorem State.abortMove_parts (p f : Nat) : (s.abortMove p f).parts = s.parts := rfl
@[simp] theorem State.storeGone_parts (who : Holder) : (s.storeGone who).parts = s.parts := rfl
@[simp] theorem State.countUncorr_parts : s.countUncorr.parts = s.parts := rfl
@[simp] theorem State.takeUnit_parts (h : Nat) : (s.takeUnit h).2.parts = s.parts := rfl
@[simp] theorem State.endDesc_parts (q : Nat) (d : DescSt) (status detail : Nat) : (s.endDesc q d status detail).parts = s.parts := rfl
@[simp] theorem State.awaitDesc_parts (p q h : Nat) (d : DescSt) (stage : Nat) : (s.awaitDesc p q h d stage).parts = s.parts := rfl
@[simp] theorem State.flashDone_parts (who : FlashWaiter) : (s.flashDone who).parts = s.parts := rfl
@[simp] theorem State.dropKernel_parts (id : Nat) : (s.dropKernel id).parts = s.parts := rfl
@[simp] theorem State.resetReg_parts (n : RegName) (i : Nat) : (s.resetReg n i).parts = s.parts := rfl
@[simp] theorem State.forgetTags_parts (p : Nat) : (s.forgetTags p).parts = s.parts := rfl
@[simp] theorem State.forgetQueue_parts (p q : Nat) : (s.forgetQueue p q).parts = s.parts := rfl
@[simp] theorem State.flipDone_parts (n : RegName) (i kind off req : Nat) : (s.flipDone n i kind off req).parts = s.parts := by
  rw [State.flipDone, State.wr_parts, State.setB_parts, State.wrB_parts]
@[simp] theorem State.lostLog_parts (link ld tag kind : Nat) (poison : Bool) : (s.lostLog link ld tag kind poison).parts = s.parts := by
  rw [State.lostLog, State.incEvt_parts, State.wr_parts, State.setLink_parts, State.wr_parts]

/-! Event records and messages. -/

@[simp] theorem State.leaveL1_parts (link : Nat) : (s.leaveL1 link).parts = s.parts := by
  simp only [State.leaveL1]; split <;> rfl
@[simp] theorem State.sendUp_parts (link : Nat) (o : Output) : (s.sendUp link o).parts = s.parts := s.leaveL1_parts link
@[simp] theorem State.msix_parts (link ld vec : Nat) : (s.msix link ld vec).parts = s.parts := by
  simp only [State.msix]; split
  · exact s.sendUp_parts ..
  · rfl
@[simp] theorem State.logLd_parts (link ld : Nat) (r : EvRec) : (s.logLd link ld r).parts = s.parts := by
  simp only [State.logLd]; split
  · exact State.msix_parts ..
  · rfl
@[simp] theorem State.raise_parts (r : EvRec) : (s.raise r).parts = s.parts := by
  simp only [State.raise]; split
  · rfl
  · exact foldl_parts (fun t d => t.logLd_parts ..) _ _
@[simp] theorem State.event_parts (r : EvRec) (i : Nat) : (s.event r i).parts = s.parts := State.raise_parts ..
@[simp] theorem State.tiedMsix_parts (m : Option (Nat × Nat)) : (s.tiedMsix m).parts = s.parts := by
  cases m with
  | none => rfl
  | some v => exact foldl_parts (fun t d => by split <;> simp) _ _
@[simp] theorem State.raiseGathered_parts (kind key : Nat) (r : EvRec) (m : Option (Nat × Nat)) : (s.raiseGathered kind key r m).parts = s.parts := by
  simp only [State.raiseGathered]; split
  · simp
  · split <;> simp
@[simp] theorem State.hostData_parts (link ld tag : Nat) (poison : Bool) (data : Line) (load : DevLoad) : (s.hostData link ld tag poison data load).parts = s.parts := by
  unfold State.hostData; split
  · exact s.lostLog_parts ..
  · rfl
@[simp] theorem State.nospaceRefusal_parts (p : Nat) (link ld : Option Nat) (addr : Nat) : (s.nospaceRefusal p link ld addr).parts = s.parts := by
  simp [State.nospaceRefusal]

/-! Mirroring. -/

@[simp] theorem State.shipFrame_parts (p f : Nat) (r : MirRec) : (s.shipFrame p f r).parts = s.parts := by
  unfold State.shipFrame; split <;> rfl
@[simp] theorem State.shipMap_parts (p f pin : Nat) (lost : List Nat) (add del : List (Nat × Nat)) (clear : Bool) : (s.shipMap p f pin lost add del clear).parts = s.parts :=
  s.shipFrame_parts ..
@[simp] theorem State.shipTable_parts (p : Nat) : (s.shipTable p).parts = s.parts := by
  unfold State.shipTable; split
  · split <;> rfl
  · rfl
@[simp] theorem State.shipObj_parts (k : Nat) : (s.shipObj k).parts = s.parts := by
  unfold State.shipObj; split
  · rfl
  · dsimp only; split <;> rfl

/-! DRAM and flash. -/

@[simp] theorem State.charge_parts (p side cls level cost : Nat) : (s.charge p side cls level cost).parts = s.parts := by
  simp [State.charge, apply_ite State.parts]
@[simp] theorem State.compCharge_parts (p q level cost : Nat) : (s.compCharge p q level cost).parts = s.parts := s.charge_parts ..
@[simp] theorem State.rhCrossing_parts (x : Place) (loc lead : Nat) : (s.rhCrossing x loc lead).parts = s.parts := by
  rw [State.rhCrossing]; split <;> rw [State.event_parts, State.wr_parts, State.incEvt_parts, State.wrB_parts] <;> rfl
@[simp] theorem State.activate_parts (req : Nat) (x : Place) : (s.activate req x).parts = s.parts := by
  simp [State.activate, apply_ite State.parts]
@[simp] theorem State.throttleWait_parts (k req : Nat) : (s.throttleWait k req).parts = s.parts := by
  simp only [State.throttleWait]; split
  · rfl
  · split <;> rfl
@[simp] theorem State.ctrlServe_parts (k n : Nat) : (s.ctrlServe k n).parts = s.parts := by
  induction n generalizing s with
  | zero => rfl
  | succ n ih =>
    simp only [State.ctrlServe]
    split
    · rfl
    · split
      · rfl
      · split
        · exact ih _
        · rw [ih]; split <;> simp
@[simp] theorem State.ctrlDrain_parts (k : Nat) : (s.ctrlDrain k).parts = s.parts := s.ctrlServe_parts ..
@[simp] theorem State.activateAll_parts (req : Nat) (l : List Place) : (s.activateAll req l).parts = s.parts :=
  (foldl_parts (fun t k => t.ctrlDrain_parts k) _ _).trans (foldl_parts (fun t x => t.ctrlPush_parts req x) _ _)
@[simp] theorem State.activateReads_parts (req t : Nat) (l : List Nat) : (s.activateReads req t l).parts = s.parts := by
  unfold State.activateReads; split <;> simp
@[simp] theorem State.activateWrites_parts (req t : Nat) (l : List Nat) : (s.activateWrites req t l).parts = s.parts := by
  unfold State.activateWrites; split <;> simp
@[simp] theorem State.storeLines_parts (p f t : Nat) (sectors : List Nat) : (s.storeLines p f t sectors).parts = s.parts := by
  unfold State.storeLines; split
  · rfl
  · exact foldl_parts (fun u n => by dsimp only; split <;> rfl) _ _
@[simp] theorem State.programStripe_parts (units : List (Nat × Nat × Nat)) : (s.programStripe units).parts = s.parts :=
  (foldl_parts (fun t _ => t.setFrame_parts ..) _ _).trans (foldl_parts (fun t m => t.nandBegin_parts m false) _ _)
@[simp] theorem State.program_parts (units : List (Nat × Nat × Nat)) (n : Nat) : (s.program units n).parts = s.parts := by
  induction n generalizing s units with
  | zero => rfl
  | succ n ih =>
    simp only [State.program]; split
    · rfl
    · rw [ih, State.programStripe_parts]
@[simp] theorem State.keySweep_parts (p : Nat) : (s.keySweep p).parts = s.parts := by
  simp only [State.keySweep]; split <;> rfl
@[simp] theorem State.programRun_parts (p f : Nat) (sectors : List Nat) : (s.programRun p f sectors).parts = s.parts := by
  simp only [State.programRun]; split <;> simp
@[simp] theorem State.flashRead_parts (p page : Nat) (sectors : List Nat) : (s.flashRead p page sectors).parts = s.parts := by
  simp only [State.flashRead]; split
  · rfl
  · exact foldl_parts (by intros; rfl) _ _
@[simp] theorem State.flipLens_parts (unit req len : Nat) : (s.flipLens unit req len).1.parts = s.parts := by
  simp only [State.flipLens]; split <;> simp
@[simp] theorem State.flipNand_parts (p f : Nat) (e : FrameSt) (c : Copy) (req : Nat) (sectors : List Nat) : (s.flipNand p f e c req sectors).1.parts = s.parts :=
  foldl_fst_parts (fun a x => by rw [apply_ite Prod.fst, apply_ite State.parts, State.flipDone_parts, State.nextFree_parts, ite_self]) _ _
@[simp] theorem State.flipWrites_parts (c : Copy) (lens : List Nat) (req : Nat) (sectors : List Nat) : (s.flipWrites c lens req sectors).1.parts = s.parts :=
  foldl_fst_parts (fun a n => by
    dsimp only
    split
    · rfl
    · split
      · rfl
      · rw [apply_ite Prod.fst, apply_ite State.parts, State.flipDone_parts, ite_self]) _ _
@[simp] theorem State.storeHome_parts (p f req : Nat) (sectors : List Nat) : (s.storeHome p f req sectors).1.parts = s.parts := by
  simp only [State.storeHome]; split <;> simp
@[simp] theorem State.readStored_parts (req : Nat) (c : Copy) (k len : Nat) (e : List ErrByte) (recover : Bool) : (s.readStored req c k len e recover).1.parts = s.parts := by
  simp only [State.readStored]; split
  · exact (foldl_parts (fun t n => t.incErr_parts ..) _ _).trans (s.activateReads_parts ..)
  · exact s.activateReads_parts ..

/-! Moves and heat. -/

@[simp] theorem State.hintDeclined_parts (h : Option (Nat × Nat)) : (s.hintDeclined h).parts = s.parts := by
  cases h <;> rfl
@[simp] theorem State.enqueue_parts (m : Move) : (s.enqueue m).parts = s.parts := by
  unfold State.enqueue; split
  · rfl
  · split <;> simp
@[simp] theorem State.askUp_parts (p f t cls : Nat) (hint : Option (Nat × Nat)) : (s.askUp p f t cls hint).parts = s.parts := by
  simp [State.askUp, apply_ite State.parts]
@[simp] theorem State.demand_parts (p f : Nat) : (s.demand p f).parts = s.parts := by
  unfold State.demand; split
  · split <;> simp
  · simp
@[simp] theorem State.touch_parts (p page : Nat) : (s.touch p page).parts = s.parts := by
  simp only [State.touch]; split <;> rfl
/-- A change of heat drops the move that waits, aborts the one that runs, and may ask for a promotion. -/
@[simp] theorem State.heatChanged_parts (p f : Nat) : (s.heatChanged p f).parts = s.parts := by
  unfold State.heatChanged
  extract_lets e h s1 s2 top
  have h1 : s1.parts = s.parts := by
    simp only [s1]
    split
    · simp only [apply_ite State.parts, State.dropMove_parts, ite_self]
    · rfl
  have h2 : s2.parts = s.parts := by
    simp only [s2]
    split
    · simp only [apply_ite State.parts, State.abortMove_parts, ite_self, h1]
    · exact h1
  simp only [apply_ite State.parts, State.askUp_parts, ite_self, h2]
@[simp] theorem State.touchPage_parts (p page : Nat) : (s.touchPage p page).parts = s.parts := by
  unfold State.touchPage; split <;> simp
@[simp] theorem State.cleanPush_parts (l : List (Nat × Nat)) : (s.cleanPush l).parts = s.parts :=
  foldl_parts (fun t x => by split <;> simp) _ _
@[simp] theorem State.checkBudget_parts : s.checkBudget.parts = s.parts := by simp [State.checkBudget, apply_ite State.parts]

/-! Merge slots and stored reads. -/

@[simp] theorem State.sealOldest_parts (f : SlotSt → Bool) : (s.sealOldest f).parts = s.parts := by
  unfold State.sealOldest; split <;> rfl
@[simp] theorem State.pressure_parts (h n : Nat) : (s.pressure h n).parts = s.parts := by
  induction n generalizing s with
  | zero => rfl
  | succ n ih =>
    simp only [State.pressure]; split
    · rfl
    · split
      · rfl
      · rw [ih]; simp
@[simp] theorem State.checkPressure_parts (h : Nat) : (s.checkPressure h).parts = s.parts := by
  unfold State.checkPressure; split <;> simp
@[simp] theorem State.storeHeld_parts (who : Holder) (p page : Nat) : (s.storeHeld who p page).parts = s.parts := by
  unfold State.storeHeld; split <;> rfl
@[simp] theorem State.openSlot_parts (p page req level : Nat) : (s.openSlot p page req level).parts = s.parts := State.checkPressure_parts ..
@[simp] theorem State.quotaSeal_parts (p page : Nat) : (s.quotaSeal p page).parts = s.parts := by
  simp only [State.quotaSeal]; split <;> simp
@[simp] theorem State.hubDecode_parts (h : Nat) (err : Bool) : (s.hubDecode h err).parts = s.parts := by
  unfold State.hubDecode; split <;> rfl
@[simp] theorem State.countCorr_parts (tier symbols : Nat) (sectors : List (Nat × Bool)) : (s.countCorr tier symbols sectors).parts = s.parts := by
  simp only [State.countCorr]; split
  · rfl
  · exact foldl_parts (fun t x => t.incErr_parts ..) _ _
@[simp] theorem State.writeBack_parts (p page req : Nat) (data : Page) (poison : BitVec 64) (sectors : List (Nat × Bool)) :
    (s.writeBack p page req data poison sectors).parts = s.parts := by
  simp only [State.writeBack]; split
  · rfl
  · simp [apply_ite State.parts]
@[simp] theorem State.afterRead_parts (req p page tier : Nat) (r : CopyRead) (q : PageRead) (wb : Bool) : (s.afterRead req p page tier r q wb).parts = s.parts := by
  simp [State.afterRead, apply_ite State.parts]
@[simp] theorem State.readFrom_parts (req p page : Nat) (c : Copy) (home : Bool) : (s.readFrom req p page c home).1.parts = s.parts := by simp [State.readFrom]
@[simp] theorem State.readBoth_parts (req p page : Nat) (c : Copy) (home wb : Bool) : (s.readBoth req p page c home wb).1.parts = s.parts := by
  simp only [State.readBoth]; split
  · simp
  · split <;> simp
@[simp] theorem State.readPage_parts (req p page : Nat) (wb hub : Bool) : (s.readPage req p page wb hub).1.parts = s.parts := by
  unfold State.readPage
  extract_lets f k e g expand home
  have hexpand (t : State) (err : Bool) : (expand t err).parts = t.parts := by
    simp only [expand, apply_ite State.parts, State.hubDecode_parts, ite_self]
  have hhome (t : State) : (home t).1.parts = t.parts := by
    simp only [home]
    split <;> simp [hexpand]
  clear_value expand home
  split
  · rfl
  · split
    · rfl
    · split
      · have hread := s.readBoth_parts req p page (s.replCopy e ‹Nat›) false false
        generalize s.readBoth req p page (s.replCopy e ‹Nat›) false false = x at hread
        obtain ⟨s', sound, r, q⟩ := x
        dsimp only at hread ⊢
        split
        · rw [hexpand, hread]
        · rw [hhome, State.dropReplica_parts, hread]
      · exact hhome s
@[simp] theorem State.checkLines_parts (x : SlotSt) (lines : BitVec 64) : (s.checkLines x lines).1.parts = s.parts := by
  simp only [State.checkLines]
  split
  · rfl
  · split
    · simp
    · split <;> simp
@[simp] theorem State.readFlash_parts (p page : Nat) : (s.readFlash p page).parts = s.parts := by
  simp only [State.readFlash]; split <;> simp
@[simp] theorem State.setShwBuf_parts (b : ShwBuf) : (s.setShwBuf b).parts = s.parts := by
  unfold State.setShwBuf; split
  · split <;> rfl
  · rfl
@[simp] theorem State.holdEnd_parts (r : HeldRead) : (s.holdEnd r).parts = s.parts := by
  simp only [State.holdEnd]; split <;> rfl
@[simp] theorem State.deepMiss_parts (r : HeldRead) : (s.deepMiss r).parts = s.parts := by simp [State.deepMiss]

/-! Commits of a page (R190 to R220). -/

@[simp] theorem State.dropReplicas_parts (p t h n need : Nat) (shut : Option Nat) (m : Nat) : (s.dropReplicas p t h n need shut m).parts = s.parts := by
  induction m generalizing s with
  | zero => rfl
  | succ m ih =>
    simp only [State.dropReplicas]; split
    · rfl
    · split
      · rfl
      · rw [ih, State.dropReplica_parts]

theorem State.makeRoom_parts {s u : State} {p t h n need half : Nat} {shut : Option Nat} (hu : s.makeRoom p t h n need shut = some (u, half)) : u.parts = s.parts := by
  simp only [State.makeRoom] at hu
  split at hu
  · obtain ⟨b, -, hb⟩ := Option.map_eq_some_iff.1 hu
    rw [← (Prod.mk.inj hb).1, State.dropReplicas_parts]
  · cases hu

theorem State.placeRun_parts {s u : State} {p f t b : Nat} {e : FrameSt} {l : List Nat} (hu : s.placeRun p f e l = some (u, t, b)) : u.parts = s.parts := by
  induction l with
  | nil => cases hu
  | cons x l ih =>
    simp only [State.placeRun] at hu
    split at hu
    · rename_i v half hv
      rw [← (Prod.mk.inj (Option.some.inj hu)).1, State.newBase_parts, State.makeRoom_parts hv]
    · exact ih hu

@[simp] theorem State.writeSectors_parts (p f k req unit : Nat) (e : FrameSt) (covered : Bool) (sectors : List Nat) :
    (s.writeSectors p f k req unit e covered sectors).parts = s.parts := by
  simp only [State.writeSectors]; split <;> simp

/-- A commit places the page anew, writes it in place, or waits with RELOC_WAIT set; the format fallback that it may count comes before. -/
@[simp] theorem State.commitContent_parts (p page req unit : Nat) (d : Page) (poison : BitVec 64) (given : Option (Nat × Nat × Nat × Nat)) :
    (s.commitContent p page req unit d poison given).1.parts = s.parts := by
  unfold State.commitContent
  extract_lets s1 f k e0 e1 old e changed const
  clear_value const
  split
  rename_i e2 s2 heq
  have h2 : s2.parts = s.parts := by
    split at heq
    · rw [← (Prod.mk.inj heq).2]
    · rw [← (Prod.mk.inj heq).2, apply_ite State.parts, State.incEvt_parts, ite_self]
  extract_lets refs e3 s3 s4 st coded ps e4 c home order laid n
  have h4 : s4.parts = s.parts := by
    simp only [s4, s3, State.setPoolPage_parts, apply_ite State.parts, State.incEvt_parts, ite_self, h2]
  have hl (t : State) (g : FrameSt) (x b : Nat) (rel : Bool) : (laid t g x b rel).parts = t.parts := by
    simp only [laid, State.writeSectors_parts, apply_ite State.parts, State.incEvt_parts, ite_self]
  clear_value s4 laid
  split
  · split <;> simp only [State.setFrame_parts, h4]
  · split
    · simp only [State.setFrame_parts, h4]
    · split
      · simp only [State.writeSectors_parts, h4]
      · split
        · rename_i t x b hp
          simp only [apply_ite State.parts, State.raiseGathered_parts, State.setB_parts, ite_self, hl, State.placeRun_parts hp, h4]
        · split
          · simp only [hl, State.newBase_parts, h4]
          · rfl

/-! Sync objects, descriptors, kernels and queues. -/

@[simp] theorem State.syncDone_parts (src : SyncSrc) (status value : Nat) : (s.syncDone src status value).parts = s.parts := by
  cases src with
  | desc q n =>
    simp only [State.syncDone]; split
    · rfl
    · exact State.endDesc_parts ..
  | core c => rfl
@[simp] theorem State.syncChanged_parts (k : Nat) (src : SyncSrc) (status value : Nat) : (s.syncChanged k src status value).parts = s.parts := by
  simp only [State.syncChanged]; split
  · split
    · cases src <;> simp
    · simp
  · simp
@[simp] theorem State.wakeWaits_parts (k : Nat) : (s.wakeWaits k).parts = s.parts := by simp [State.wakeWaits]
@[simp] theorem State.setValue_parts (k : Nat) (v : Word) : (s.setValue k v).parts = s.parts := by simp [State.setValue]
@[simp] theorem State.giveLock_parts (k : Nat) (w : SyncWait) (rest : List SyncWait) (status : Nat) : (s.giveLock k w rest status).parts = s.parts := by
  simp [State.giveLock]
@[simp] theorem State.compOp_parts (k op : Nat) (v : Word) : (s.compOp k op v).parts = s.parts := by
  simp [State.compOp, apply_ite State.parts]
@[simp] theorem State.endWaits_parts (f : Nat → SyncWait → Bool) (status : Nat) : (s.endWaits f status).parts = s.parts :=
  foldl_parts (fun t e => by dsimp only; split <;> simp) _ _
@[simp] theorem State.releaseLocks_parts (p : Nat) : (s.releaseLocks p).parts = s.parts :=
  foldl_parts (fun t e => by
    dsimp only
    split
    · split <;> simp
    · rfl) _ _
@[simp] theorem State.dropCoreWaits_parts (l : List Nat) : (s.dropCoreWaits l).parts = s.parts :=
  (foldl_parts (fun t _ => t.setMirPart_parts ..) _ _).trans
    ((foldl_parts (fun t _ => t.setObj_parts ..) _ _).trans (foldl_parts (fun t c => t.storeGone_parts (.core c)) _ _))
@[simp] theorem State.descGone_parts (p q : Nat) (d : DescSt) : (s.descGone p q d).parts = s.parts := by
  simp [State.descGone, apply_ite State.parts]
@[simp] theorem State.descFinish_parts (p q : Nat) (d : DescSt) : (s.descFinish p q d).parts = s.parts := by
  unfold State.descFinish
  extract_lets ref op k
  clear_value k
  split
  · exact s.descGone_parts ..
  · split
    · exact s.descGone_parts ..
    · simp only []
      split
      · split <;> simp
      · simp

/-- A kernel's cores, after its end. -/
@[simp] theorem State.finishKernel_parts (k : KernelSt) (c : EndCause) (st : Nat) : (s.finishKernel k c st).parts = s.parts := by
  unfold State.finishKernel
  extract_lets early s1 s2 s3 s4 s5 ev s6 s7 tier s8
  have h1 : s1.parts = s.parts := by simp only [s1, apply_ite State.parts, State.dropCoreWaits_parts, ite_self]
  have h2 : s2.parts = s1.parts := foldl_parts (fun t x => by simp [apply_ite State.parts]) _ _
  have h3 : s3.parts = s2.parts := foldl_parts (fun t x => t.wrB_parts ..) _ _
  have h5 : s5.parts = s3.parts := by simp only [s5, s4, apply_ite State.parts, State.incErr_parts, State.incEvt_parts, ite_self]
  have h6 : s6.parts = s5.parts := by simp only [s6, ev, apply_ite State.parts, State.raise_parts, State.setB_parts, ite_self]
  have h8 : s8.parts = s.parts := by simp only [s8, s7, State.flashDone_parts, State.dropKernel_parts, h6, h5, h3, h2, h1]
  split
  · rw [State.endDesc_parts, h8]
  · exact h8

@[simp] theorem State.resetQueue_parts (p q : Nat) : (s.resetQueue p q).parts = s.parts := by
  rw [State.resetQueue, State.dropAcc_parts, State.setQueue_parts, State.forgetQueue_parts]
  exact foldl_parts (fun t n => t.resetReg_parts n q) _ _
@[simp] theorem State.resetQueues_parts (p : Nat) : (s.resetQueues p).parts = s.parts :=
  (State.shipTable_parts ..).trans ((foldl_parts (fun t _ => t.setLd_parts ..) _ _).trans (foldl_parts (fun t q => t.resetQueue_parts p q) _ _))

end Sys2Proof.Machine
end

section
/-! PROOFS. Startup and reset (03): the PART records in force. What ends a partition's work may write pages of it, which changes poison lists and watermarks told, and so the table of
partitions; the records that say what belongs to whom stay. -/

namespace Sys2Proof.Machine

/-- Every partition has the PART record in `t` that it has in `s`. -/
structure SameConfigs (s t : State) : Prop where
  cfg : ∀ p, (t.part p).cfg = (s.part p).cfg

section
variable {s t u : State}

theorem SameConfigs.refl (s : State) : SameConfigs s s := ⟨fun _ => rfl⟩

theorem SameConfigs.trans (h : SameConfigs s t) (g : SameConfigs t u) : SameConfigs s u := ⟨fun p => (g.cfg p).trans (h.cfg p)⟩

theorem SameConfigs.of_parts (h : t.parts = s.parts) : SameConfigs s t := ⟨fun p => by rw [State.part, h, State.part]⟩

theorem SameConfigs.fst {β : Type} {x : State × β} {b : β} (h : SameConfigs s x.1) (e : x = (t, b)) : SameConfigs s t := by
  rw [e] at h
  exact h

/-- What does not write the table of partitions may come after. -/
theorem SameConfigs.after (e : u.parts = t.parts) (h : SameConfigs s t) : SameConfigs s u := h.trans (.of_parts e)

theorem SameConfigs.ite {c : Prop} [Decidable c] (ht : SameConfigs s t) (hu : SameConfigs s u) : SameConfigs s (if c then t else u) := by
  split <;> assumption

theorem SameConfigs.foldl {α : Type} {f : State → α → State} (hf : ∀ t x, SameConfigs t (f t x)) (l : List α) (s : State) : SameConfigs s (l.foldl f s) :=
  foldl_inv (P := SameConfigs s) (fun t x h => h.trans (hf t x)) l (.refl s)

/-- A table of partitions with an entry written that is not what an unlisted one reads as: its key reads as written, and the others as before, in whatever order the table stands. -/
theorem SameConfigs.setPart {p : Nat} {v : PartSt} (hv : v ≠ {}) (hc : v.cfg = (s.part p).cfg) : SameConfigs s (s.setPart p v) := by
  refine ⟨fun q => ?_⟩
  have hput : (s.setPart p v).part q = (Store.find q (Store.put p v s.parts)).getD {} := by rw [State.part, State.setPart, Store.get, Store.set, if_neg hv]
  rw [hput]
  by_cases hq : q = p
  · rw [hq, Store.find_put_self, Option.getD_some, hc]
  · rw [Store.find_put_ne hq, State.part, Store.get]

/-- A partition with a PART record is listed. -/
theorem PartSt.listed {v : PartSt} (h : v.cfg ≠ none) : v ≠ {} := fun e => h (by rw [e])

/-- Whose a sync object is depends on the PART records alone. -/
theorem SameConfigs.syncOwner (h : SameConfigs s t) (k : Nat) : t.syncOwner k = s.syncOwner k := by
  simp only [State.syncOwner, State.partsOn, h.cfg _]

/-- A partition with apparent capacity has a PART record. -/
theorem State.cfg_of_apparent {p n : Nat} (h : n < s.apparent p) : (s.part p).cfg ≠ none := by
  intro e
  simp [State.apparent, e] at h

end

/-! Poison lists, watermarks and reads that wait. -/

section
variable (s : State)

theorem State.addPoison_configs (p addr len : Nat) : SameConfigs s (s.addPoison p addr len) := by
  simp only [State.addPoison]
  split
  · exact .refl s
  · split
    · exact .of_parts (s.setB_parts ..)
    · refine .after (State.shipMap_parts ..) (.setPart (fun e => ?_) rfl)
      exact List.append_ne_nil_of_right_ne_nil _ (List.cons_ne_nil _ _) (congrArg PartSt.poison e)

theorem State.addPoisonPage_configs (p page : Nat) : SameConfigs s (s.addPoisonPage p page) := s.addPoison_configs ..

theorem State.dropPoison_configs {p : Nat} (hp : (s.part p).cfg ≠ none) (f : PoisonEnt → Bool) : SameConfigs s (s.dropPoison p f) := by
  simp only [State.dropPoison]
  split
  · exact .refl s
  · refine .after (foldl_parts (fun t e => t.shipMap_parts ..) _ _) (.ite (.after (State.clrB_parts ..) ?_) ?_)
    all_goals exact .setPart (PartSt.listed hp) rfl

/-- A partition without a PART record has no capacity to owe. -/
theorem State.debtCap_of_no_cfg {p : Nat} (h : (s.part p).cfg = none) : s.debtCap p = 0 := by simp [State.debtCap, State.apparent, h]

theorem State.checkDebt_configs (p : Nat) : SameConfigs s (s.checkDebt p) := by
  simp only [State.checkDebt]
  split
  · exact .refl s
  · rename_i hcap
    have hp : (s.part p).cfg ≠ none := fun h => hcap (s.debtCap_of_no_cfg h)
    refine foldl_inv (P := SameConfigs s) (fun t i h => ?_) _ (.refl s)
    have ht : (t.part p).cfg ≠ none := by rw [h.cfg p]; exact hp
    split
    · exact h.trans (.after (State.event_parts ..) (.setPart (PartSt.listed ht) rfl))
    · split
      · exact h.trans (.setPart (PartSt.listed ht) rfl)
      · exact h

theorem State.rebuildEntry_configs (p f : Nat) : SameConfigs s (s.rebuildEntry p f) := by
  unfold State.rebuildEntry
  extract_lets e tier s1 lost s2 s3 s4
  have h2 : SameConfigs s s2 := .of_parts (by simp only [s2, s1, State.setFrame_parts, apply_ite State.parts, ite_self])
  have h3 : SameConfigs s s3 := h2.trans (.foldl (fun t k => t.addPoisonPage_configs ..) _ _)
  exact (h3.after ((State.event_parts ..).trans (State.shipMap_parts ..))).trans (State.checkDebt_configs ..)

theorem State.mapAccess_configs (p f : Nat) : SameConfigs s (s.mapAccess p f) := by
  unfold State.mapAccess
  extract_lets hit tier s1 e s2
  have h2 : SameConfigs s s2 :=
    .ite (.of_parts rfl) (.ite (.of_parts rfl) (.ite (.of_parts ((State.incErr_parts ..).trans (State.setFrame_parts ..))) (.trans (.of_parts (t := s1) rfl) (s1.rebuildEntry_configs ..))))
  split
  · exact h2
  · exact .after (t := s2) rfl h2

theorem State.hostUncorr_configs (p page : Nat) : SameConfigs s (s.hostUncorr p page) :=
  .after (State.raiseGathered_parts ..) (.trans (.of_parts s.countUncorr_parts) (State.addPoisonPage_configs ..))

theorem State.serveRead_configs (r : HeldRead) (first : Bool) : SameConfigs s (s.serveRead r first) := by
  unfold State.serveRead
  extract_lets page f line load p s1 tier s2
  have h1 : SameConfigs s s1 := .of_parts (by simp [s1, apply_ite State.parts])
  have h2 : SameConfigs s s2 := .after (State.readFlash_parts ..) (.ite (.after (s1.incEvt_parts ..) h1) h1)
  clear_value s1 s2
  split
  · exact .after (State.hostData_parts ..) h1
  · split
    · split
      · split
        rename_i t y hy
        exact .after (State.hostData_parts ..) (.fst (.after (s1.checkLines_parts ..) h1) hy)
      · exact .after (t := s1) rfl h1
    · split
      · exact .after (t := s2) rfl h2
      · split
        rename_i t q hq
        have ht : SameConfigs s t := .fst (.after (s1.readPage_parts ..) h1) hq
        exact .ite (.after (State.hostData_parts ..) ht) (.after (State.hostData_parts ..) (ht.trans (t.hostUncorr_configs ..)))

theorem State.releaseReads_configs (f : HeldRead → Bool) : SameConfigs s (s.releaseReads f) := by
  unfold State.releaseReads
  extract_lets go tier s1 turn
  have hturn (t : State) (h : Nat) (l : List HeldRead) : (turn t h l).2.parts = t.parts := rfl
  clear_value turn
  split
  rename_i g0 s2 h2
  split
  rename_i g1 s3 h3
  have hs : s3.parts = s.parts := by
    rw [show s3 = (turn s2 1 _).2 from congrArg Prod.snd h3.symm, hturn, show s2 = (turn s1 0 _).2 from congrArg Prod.snd h2.symm, hturn]
  exact .trans (.of_parts hs) (.foldl (fun t r => .ite (.of_parts (t.deepMiss_parts r))
    (.trans (.of_parts (t := (t.holdEnd r).atLevel r.level) (t.holdEnd_parts r)) (State.serveRead_configs ..))) _ _)

theorem State.fillServed_configs (p page : Nat) : SameConfigs s (s.fillServed p page) := s.releaseReads_configs _

/-! Writes of a page, a line and a run of bytes. -/

theorem State.slotWrite_configs (p page line : Nat) (data : Line) (be : BitVec 64) (poison : Bool) (req level : Nat) :
    SameConfigs s (s.slotWrite p page line data be poison req level).1 := by
  simp only [State.slotWrite]
  split
  · exact .of_parts (State.setShwBuf_parts ..)
  · split
    · split
      · split
        · exact .of_parts rfl
        · exact .refl s
      · exact .trans (.of_parts (s.setSlot_parts _)) (State.fillServed_configs ..)
    · split
      · exact .of_parts (s.quotaSeal_parts ..)
      · exact .refl s
      · split
        · exact .of_parts (by simp)
        · exact .of_parts (by simp)

theorem State.putLines_configs (req level p a n v : Nat) (poison : Bool) (fuel : Nat) : SameConfigs s (s.putLines req level p a n v poison fuel).1 := by
  induction fuel generalizing s a n v with
  | zero => exact .refl s
  | succ fuel ih =>
    simp only [State.putLines]
    split
    · exact .refl s
    · have hw := s.slotWrite_configs p (a / 4096) (a / 64 % 64) (BitVec.ofNat 512 (v % 2 ^ (8 * min n (64 - a % 64)) * 2 ^ (8 * (a % 64))))
        (BitVec.ofNat 64 ((2 ^ min n (64 - a % 64) - 1) * 2 ^ (a % 64))) poison req level
      split
      · rename_i u hu
        exact .trans (.ite (.after (State.shipFrame_parts ..) (hw.fst hu)) (hw.fst hu)) (ih ..)
      · exact hw

theorem State.cleanPoison_configs {p : Nat} (hp : (s.part p).cfg ≠ none) (page : Nat) : SameConfigs s (s.cleanPoison p page) := s.dropPoison_configs hp _

theorem State.afterCommit_configs {p : Nat} (hp : (s.part p).cfg ≠ none) (page : Nat) (d : Page) (poison : BitVec 64) (direct : Bool) :
    SameConfigs s (s.afterCommit p page d poison direct) := by
  unfold State.afterCommit
  extract_lets f s1 s2 g async s3
  have h2 : SameConfigs s s2 := .ite (.trans (.of_parts (t := s1) rfl) (s1.cleanPoison_configs hp page)) (.of_parts rfl)
  have h3 : SameConfigs s s3 := .ite (.after (State.shipFrame_parts ..) h2) h2
  exact .after (State.checkBudget_parts _) (h3.trans (s3.checkDebt_configs p))

theorem State.putPage_configs {p : Nat} (hp : (s.part p).cfg ≠ none) (req level page : Nat) (d : Page) (poison : BitVec 64) :
    SameConfigs s (s.putPage req level p page d poison).1 := by
  unfold State.putPage
  extract_lets lines whole k r opened viaSlot
  have hlines (t : State) : (lines t).parts = t.parts := by
    simp only [lines]
    split
    · exact foldl_parts (fun u l => u.shipFrame_parts ..) _ _
    · rfl
  have hwhole (t : State) (x : SlotSt) : SameConfigs t (whole t x) := by
    simp only [whole]
    exact .after (hlines _) (.trans (.of_parts (t.setSlot_parts _)) (State.fillServed_configs ..))
  have hvia : SameConfigs s viaSlot.1 := by
    have ho : SameConfigs s opened := .of_parts (s.openSlot_parts ..)
    simp only [viaSlot]
    split
    · dsimp only
      split
      · exact ho.trans (hwhole ..)
      · exact ho
    · exact .of_parts (s.quotaSeal_parts ..)
    · exact .refl s
  clear_value lines whole viaSlot
  split
  · exact .of_parts (State.setShwBuf_parts ..)
  · split
    · split
      · split
        · exact hwhole ..
        · exact .refl s
      · exact hwhole ..
    · split
      · exact .refl s
      · split
        · exact hvia
        · split
          rename_i u s1 h1
          split
          rename_i s2 ok h2
          have hs : SameConfigs s s2 := .of_parts (by
            rw [show s2 = (s1.commitContent p page req u d poison).1 from congrArg Prod.fst h2.symm, State.commitContent_parts,
              show s1 = (s.takeUnit (hubOf (page / 16))).2 from congrArg Prod.snd h1.symm, State.takeUnit_parts])
          split
          · exact hs.trans (s2.afterCommit_configs (by rw [hs.cfg]; exact hp) ..)
          · exact hvia

theorem State.putRun_configs {p : Nat} (hp : (s.part p).cfg ≠ none) (who : Holder) (req level a n v pos fuel : Nat) :
    SameConfigs s (s.putRun who req level p a n v pos fuel).1 := by
  induction fuel generalizing s pos with
  | zero => exact .refl s
  | succ fuel ih =>
    unfold State.putRun
    split
    · exact .refl s
    · extract_lets x page m s1 w r
      have h1 : SameConfigs s s1 := .ite (.after (State.touchPage_parts ..) (s.mapAccess_configs ..)) (.refl s)
      have hr : SameConfigs s r.1 := by
        simp only [r]
        split
        · exact h1
        · split
          · exact h1.trans (s1.putPage_configs (by rw [h1.cfg]; exact hp) ..)
          · exact h1.trans (s1.putLines_configs ..)
      clear_value r
      split
      · have hg := SameConfigs.after (State.storeGone_parts _ who) hr
        exact hg.trans (ih _ (by rw [hg.cfg]; exact hp) _)
      · exact .after (State.storeHeld_parts ..) hr
      · exact .after (State.storeGone_parts ..) hr

/-! The ends of kernels and descriptors. -/

theorem State.putRecord_configs (k : KernelSt) (st us : Nat) : SameConfigs s (s.putRecord k st us).1 := by
  unfold State.putRecord
  extract_lets a n o lvl
  split
  · exact .refl s
  · split
    · exact .refl s
    · rename_i hfit
      have hr := State.putRun_configs (s.atLevel lvl) (p := k.part) (s.cfg_of_apparent (n := a) (by omega)) (.kernel k.id) (reqComp k.part) lvl a n (k.record st us) 0 3
      split
      rename_i s1 pos r h1
      have hs : SameConfigs s s1 := .trans (.of_parts (s.atLevel_parts lvl)) (hr.fst h1)
      split
      · exact hs
      · exact .after (State.nospaceRefusal_parts ..) hs
      · exact .after (State.compCharge_parts ..) hs

theorem State.endKernel_configs (k : KernelSt) (c : EndCause) (force : Bool) : SameConfigs s (s.endKernel k c force) := by
  have hr := s.putRecord_configs k (k.code c) ((s.time - k.startAt) / 1000)
  unfold State.endKernel
  split
  · rename_i s1 h1
    exact .ite (.after (State.finishKernel_parts ..) (hr.fst h1)) (hr.fst h1)
  · rename_i s1 st h1
    exact .after (State.finishKernel_parts ..) (hr.fst h1)

theorem State.stopKernels_configs (p : Nat) (c : EndCause) : SameConfigs s (s.stopKernels p c) := by
  refine .foldl (fun t k => .ite (t.endKernel_configs ..) ?_) _ _
  split
  · exact .of_parts ((State.endDesc_parts ..).trans (State.dropKernel_parts ..))
  · exact .of_parts (t.dropKernel_parts _)

theorem State.putSummary_configs (p q : Nat) (d : DescSt) (v : Nat) (hostToo : Bool) : SameConfigs s (s.putSummary p q d v hostToo).1 := by
  unfold State.putSummary
  extract_lets a lvl
  split
  · exact .ite (.of_parts (s.sendUp_parts ..)) (.refl s)
  · split
    · exact .refl s
    · rename_i hfit
      have hr := State.putRun_configs (s.atLevel lvl) (p := p) (s.cfg_of_apparent (n := a) (by omega)) (.desc q d.n) (reqComp p) lvl a 64 v 0 3
      split
      rename_i s1 pos r h1
      have hs : SameConfigs s s1 := .trans (.of_parts (s.atLevel_parts lvl)) (hr.fst h1)
      split
      · exact hs
      · exact .after (State.nospaceRefusal_parts ..) hs
      · exact hs

theorem State.descComplete_configs (p q : Nat) (d : DescSt) : SameConfigs s (s.descComplete p q d) := by
  unfold State.descComplete
  split
  · exact .refl s
  · rename_i st hst
    split
    · exact .refl s
    · extract_lets a lost lvl put r
      have hlost (t : State) : (lost t).parts = t.parts := by simp [lost]
      clear_value lost
      split
      · exact .of_parts (hlost s)
      · rename_i hfit
        have hp : (s.part p).cfg ≠ none := s.cfg_of_apparent (n := a) (by
          simp only [Bool.or_eq_true, decide_eq_true_eq, not_or, Nat.not_lt] at hfit
          omega)
        have hput (t : State) (ht : SameConfigs s t) (off v : Nat) : SameConfigs s (put t off v).1 :=
          .after (State.compCharge_parts ..) (.trans (.trans ht (.of_parts (t.atLevel_parts lvl)))
            (State.putRun_configs _ (show ((t.atLevel lvl).part p).cfg ≠ none from (ht.cfg p).symm ▸ hp) ..))
        have hr : SameConfigs s r.1 := by
          have h0 (v : Nat) := hput s (.refl s) 0x28 (v % 2 ^ 64)
          simp only [r]
          split
          · exact .refl s
          · rename_i v hv
            split
            · rename_i t ht
              exact .after (State.setDesc_parts ..) ((h0 v).fst ht)
            · exact h0 v
        clear_value r put
        split
        · exact hr
        · exact .after ((hlost _).trans (State.nospaceRefusal_parts ..)) hr
        · rename_i t
          have ht := hput t hr 8 (st + d.detail * 2 ^ 32)
          split
          · rename_i hu
            exact ht.fst hu
          · rename_i hu
            exact .after ((hlost _).trans (State.nospaceRefusal_parts ..)) (ht.fst hu)
          · rename_i hu
            exact .ite (.after (State.awaitDesc_parts ..) (ht.fst hu)) (.after (State.descFinish_parts ..) (ht.fst hu))

theorem State.stopQueue_configs (p q st : Nat) : SameConfigs s (s.stopQueue p q st) := by
  refine .trans (.foldl (fun t d => .ite (.after (State.endDesc_parts ..) (.ite ?_ (.refl t))) (.refl t)) _ _) (.foldl (fun t d => t.descComplete_configs ..) _ _)
  exact t.putSummary_configs ..

theorem State.stopWork_configs (p : Nat) (c : EndCause) : SameConfigs s (s.stopWork p c) :=
  (s.stopKernels_configs p c).trans (.foldl (fun t _ => t.stopQueue_configs ..) _ _)

/-- A reset of a partition leaves every PART record in force. -/
theorem State.partReset_configs (p : Nat) : SameConfigs s (s.partReset p) := by
  refine .after ?_ (s.stopWork_configs p .reset)
  rw [State.partReset, State.resetQueues_parts, State.releaseLocks_parts, State.endWaits_parts, State.forgetTags_parts]

end

end Sys2Proof.Machine
end

section
/-! PROOFS. Startup and reset (03): quiescence, quarantine, liveness, the shadow window and partition resets. -/

namespace Sys2Proof.Machine

section
variable {s : State}

/-! Accesses to BAR0 (R117, R172). -/

section
variable {link : LinkId} {ld : LdId}

theorem State.onBar0_pcieOnly (h : s.linkState link = 7) (off : Nat) (f : Nat → State) : s.onBar0 link ld off f = s.send (.unsupported (.ld link ld) off) :=
  if_pos h

theorem State.onBar0_bound {p : Nat} (hc : s.linkCarries link = true) (hb : s.bound link ld = some p) (off : Nat) (f : Nat → State) : s.onBar0 link ld off f = f p := by
  have h7 : s.linkState link ≠ 7 := fun h => by simp [State.linkCarries, h] at hc
  rw [State.onBar0, if_neg h7, State.bar0, if_pos hc, hb]

end

/-! Quiescence (R162 to R165). -/

section
variable {p : PartId}

theorem execPartitionQuiesced_idle (hr : s.rdB .prtQuiesceCtrl 0 p = true) (hq : s.rdB .prtState 2 p = false) (hi : s.idlePart p = true) :
    execPartitionQuiesced p s = .next (s.tellQuiesced p) :=
  congrArg Host.Outcome.next (if_pos (by simp [hr, hq, hi]))

theorem execQuiesceLift_lifts (h : s.reloading p = false) :
    execQuiesceLift p s = .next (((s.wrB .prtQuiesceCtrl 0 false p).wrB .prtState 1 false p).wrB .prtState 2 false p) := by
  rw [execQuiesceLift, State.quiesceOff, if_neg (by simp [h])]

/-- With no kernel in the module, an abort ends waits alone. -/
theorem execQuiesceAbort_of_no_kernels (h : s.comp.kernels = []) : execQuiesceAbort p s = .next (s.endWaits (fun _ w => w.part == p.val) stReset) := by
  rw [execQuiesceAbort, State.quiesceAbort, h]
  rfl

/-! Quarantine and liveness (R166 to R171). -/

theorem State.quarantineReq_up (h5 : s.fpDown 5 = false) (h9 : s.fpDown 9 = false) : s.quarantineReq p = (s.wrB .prtQuarCtrl 0 false p).quarantine p :=
  if_neg (by simp [h5, h9])

theorem State.quarantineReq_down (h : s.fpDown 5 = true ∨ s.fpDown 9 = true) : s.quarantineReq p = (s.wrB .prtQuarCtrl 0 true p).fpWait (.quarantine p) :=
  if_pos (by simpa using h)

theorem execRelease_held (h : s.rdB .prtState 4 p = true) :
    execRelease p s = .next (((((s.resetObjs (fun k => s.syncOwner k == some p.val)).shwReset p).clearMap p).shwOpen p).lift p) :=
  congrArg Host.Outcome.next (if_neg (by simp [h]))

theorem execRelease_free (h : s.rdB .prtState 4 p = false) : execRelease p s = .next s :=
  congrArg Host.Outcome.next (if_pos (by simp [h]))

theorem State.lift_free {p : Nat} (h : s.rdB .prtState 4 p = false) : s.lift p = s := if_pos (by simp [h])

/-- The end of quarantine; a recorded REQUEST leaves the partition quiesced (R171). -/
theorem State.lift_held {p : Nat} (h : s.rdB .prtState 4 p = true) :
    s.lift p = let t := ((s.resetQueues p).clrB .prtState 4 p).setMemActive p true
      if t.rdB .prtQuiesceCtrl 0 p then t.tellQuiesced p else t :=
  if_neg (by simp [h])

/-- An armed watchdog that no write has met through its last tick quarantines the partition. -/
theorem execLivenessTimeout_expires (ht : s.rdF .prtLivenessTimeout 0 14 p ≠ 0) (ha : (s.part p).armed = true) (hd : s.departed 2 = false) :
    execLivenessTimeout p s = .next ((s.reach (((s.part p).liveTick + s.rdF .prtLivenessTimeout 0 14 p + 1) * 1000000)).quarantineReq p) :=
  congrArg Host.Outcome.next (if_neg (by simp [ht, ha, hd]))

theorem execLivenessTimeout_off (h : s.rdF .prtLivenessTimeout 0 14 p = 0 ∨ (s.part p).armed = false ∨ s.departed 2 = true) : execLivenessTimeout p s = .next s :=
  congrArg Host.Outcome.next (if_pos (by simpa using h))

end

/-- A 32-bit value in a register word stands below the cut. -/
theorem cut_ofNat_toNat (v : BitVec 32) : BitVec.ofNat 64 v.toNat &&& 0xFFFFFFFF = BitVec.ofNat 64 v.toNat := by
  apply BitVec.eq_of_toNat_eq
  rw [toNat_cut, BitVec.toNat_ofNat]
  omega

theorem State.rd_liveness (hs : s.Canonical) (p : Nat) (v : BitVec 32) : (s.liveness p v.toNat).rd .prtLiveness p = BitVec.ofNat 64 v.toNat := by
  have h : (s.wr .prtLiveness (BitVec.ofNat 64 v.toNat) p).rd .prtLiveness p = BitVec.ofNat 64 v.toNat := by
    rw [State.rd_wr_self hs.regs, if_pos (show RegName.prtLiveness.row.width = 32 from rfl), cut_ofNat_toNat]
  simp only [State.liveness]
  split
  · exact h
  · exact h

/-- A write to the liveness word with a timeout set, of a partition in service, arms the watchdog at the tick of the write. -/
theorem State.liveness_arms (hs : s.Canonical) {p : Nat} (ht : s.rdF .prtLivenessTimeout 0 14 p ≠ 0) (ha : s.memActive p = true) (v : Nat) :
    ((s.liveness p v).part p).armed = true ∧ ((s.liveness p v).part p).liveTick = s.time / 1000000 := by
  have hrd {m : RegName} (hm : m ≠ .prtLiveness) : (s.wr .prtLiveness (BitVec.ofNat 64 v) p).rd m p = s.rd m p := State.rd_wr_name hs.regs hm ..
  have hgo : (s.wr .prtLiveness (BitVec.ofNat 64 v) p).rdF .prtLivenessTimeout 0 14 p ≠ 0 ∧ (s.wr .prtLiveness (BitVec.ofNat 64 v) p).memActive p = true := by
    simp only [State.rdF, State.memActive, State.rdB, hrd (m := .prtLivenessTimeout) (by decide), hrd (m := .prtState) (by decide)]
    exact ⟨ht, ha⟩
  have hc : (s.wr .prtLiveness (BitVec.ofNat 64 v) p).Canonical := (State.wr_keeps (Keeps.refl s) ..).canonical hs
  rw [State.liveness, if_pos hgo, State.part_setPart_self hc]
  exact ⟨rfl, rfl⟩

/-! The shadow window (R178 to R187). -/

section
variable {p v : Nat}

/-- What every write to SHW_INDEX_HI stores: HI, STALE_LO where no write to LO came before, and that the next one needs a write to LO first. -/
def State.shwStoreHi (s : State) (v : Nat) : State :=
  { (s.wr .shwIndexHi (BitVec.ofNat 64 (v % 65536))).wrB .shwStat 2 (!s.shw.loFresh) with shw := { s.shw with loFresh := false } }

theorem State.shwStoreHi_regs_wf (hs : s.Canonical) (v : Nat) : (s.shwStoreHi v).regs.wf = true := State.wrB_regs_wf (State.wr_regs_wf hs.regs ..) ..

/-- A HI above the index's twelve bits: ERROR is RANGE, and nothing is fetched. -/
theorem State.shwWriteHi_range (h : 4096 ≤ v % 65536) : s.shwWriteHi p v = (s.shwStoreHi v).wrF .shwStat 8 8 stRange := by
  simp only [State.shwWriteHi, h, true_or, if_true]
  rfl

theorem State.shwWriteHi_range_reads (hs : s.Canonical) (h : 4096 ≤ v % 65536) :
    (s.shwWriteHi p v).rdF .shwStat 8 8 = stRange ∧ (s.shwWriteHi p v).shw = { s.shw with loFresh := false } ∧ (s.shwWriteHi p v).rdB .shwStat 2 = !s.shw.loFresh := by
  have hr := State.shwStoreHi_regs_wf hs v
  rw [State.shwWriteHi_range h]
  refine ⟨State.rdF_wrF_self hr _ _ _ _ _ _ (by decide), rfl, ?_⟩
  rw [State.rdB, State.rdF_wrF_field hr _ _ _ _ _ _ _ _ (by decide) (by decide)]
  exact State.rdB_wrB_self (State.wr_regs_wf hs.regs ..) .shwStat 2 (!s.shw.loFresh) 0 0 (by decide)

/-- The swap index that a HI completes: HI's low twelve bits above SHW_INDEX_LO. -/
def State.swapIndex (s : State) (v : Nat) : Nat := s.rdF .shwIndexLo 0 16 + v % 65536 % 4096 * 65536

section
variable (hv : v % 65536 < 4096) (hfit : shwAddr (s.swapIndex v) + 2 ^ 20 ≤ s.apparent p) (hden : s.shwDenied p (s.swapIndex v) = false)
include hv hfit hden

/-- An index whose frame fits and is not denied is taken: the frame that shows now is shown again, and another is fetched. -/
theorem State.shwWriteHi_takes : s.shwWriteHi p v =
    if s.shw.cur.any (fun b => b.index == s.swapIndex v) then
      { ((s.shwStoreHi v).wrB .shwStat 1 false).wrB .shwStat 0 true with shw := { (s.shwStoreHi v).shw with next := none } }
    else (State.shwFetch { ((s.shwStoreHi v).wrB .shwStat 1 true).wrB .shwStat 0 false with shw := { (s.shwStoreHi v).shw with next := some (s.swapIndex v) } } p (s.swapIndex v)).1 := by
  have hfits : (s.shwStoreHi v).shwFits p (s.swapIndex v) = true := decide_eq_true hfit
  have hopen : (s.shwStoreHi v).shwDenied p (s.swapIndex v) = false := hden
  have herr : (if 4096 ≤ v % 65536 ∨ (!(s.shwStoreHi v).shwFits p (s.swapIndex v)) = true then stRange
      else if (s.shwStoreHi v).shwDenied p (s.swapIndex v) = true then stDenied else 0) = 0 := by
    rw [hfits, hopen, if_neg (by simpa using hv), if_neg Bool.false_ne_true]
  have hshown : s.shw.cur.any (fun b => b.index == s.swapIndex v) = match s.shw.cur with | some b => b.index == s.swapIndex v | none => false := by
    cases s.shw.cur <;> rfl
  rw [hshown]
  exact if_neg (not_not.2 herr)

theorem State.shwWriteHi_shown {b : ShwBuf} (hb : s.shw.cur = some b) (he : b.index = s.swapIndex v) : s.shwWriteHi p v =
    { ((s.shwStoreHi v).wrB .shwStat 1 false).wrB .shwStat 0 true with shw := { (s.shwStoreHi v).shw with next := none } } := by
  rw [State.shwWriteHi_takes hv hfit hden, hb, if_pos (by simp [he])]

theorem State.shwWriteHi_other {b : ShwBuf} (hb : s.shw.cur = some b) (he : b.index ≠ s.swapIndex v) : s.shwWriteHi p v =
    (State.shwFetch { ((s.shwStoreHi v).wrB .shwStat 1 true).wrB .shwStat 0 false with shw := { (s.shwStoreHi v).shw with next := some (s.swapIndex v) } } p (s.swapIndex v)).1 := by
  rw [State.shwWriteHi_takes hv hfit hden, hb, if_neg (by simp [he])]

end
end

/-- The switch of the window waits while a page of the frame comes from flash. -/
theorem State.shwSwitch_waits {p i : Nat} (hn : s.shw.next = some i) (hf : (s.shwFetch p i).2 = true) : s.shwSwitch p = (s.shwFetch p i).1 := by
  rw [State.shwSwitch, hn]
  dsimp only
  split
  · rename_i h; rw [h]
  · rename_i h; rw [h] at hf; cases hf

/-- The window's registers after its switch to a frame. -/
def State.shwShow (s : State) (i : Nat) (prev : Bool) : State :=
  (((s.wr .shwSelected (BitVec.ofNat 64 i)).wrB .shwStat 3 prev).wrB .shwStat 1 false).wrB .shwStat 0 true

theorem State.shwSwitch_loads {p i : Nat} (hn : s.shw.next = some i) (hf : (s.shwFetch p i).2 = false) (ho : (s.shwFetch p i).1.shw.old = none) :
    s.shwSwitch p =
      let r := (s.shwFetch p i).1.shwLoad p i
      let v := State.shwShow { r.1 with shw := { r.1.shw with cur := some r.2.1, old := r.1.shw.cur, next := none } } i r.1.shw.cur.isSome
      if r.2.2 then v.wrF .shwStat 8 8 stUncorr else v := by
  rw [State.shwSwitch, hn]
  dsimp only
  split
  · rename_i h; rw [h] at hf; cases hf
  · rename_i t h
    rw [h] at ho ⊢
    simp only [show t.shw.old = none from ho, Option.isSome_none, Bool.false_eq_true, if_false, State.shwShow]

section
variable {p : PartId} {b : ShwBuf} (ho : s.shw.old = some b) (hp : s.shwOwner = some p.val)
include ho hp

theorem execShadowWritebackDone_ends (h : (({ s with shw := { s.shw with old := none } } : State).writeBackBuf p b).2 = []) :
    execShadowWritebackDone p s = .next ((({ s with shw := { s.shw with old := none } } : State).writeBackBuf p b).1.wrB .shwStat 3 false) := by
  rw [execShadowWritebackDone, ho]
  simp only [hp, ne_eq, not_true, if_false]
  split
  · rename_i t ht; rw [ht]
  · rename_i t l hl ht; rw [ht] at h; exact absurd h hl

theorem execShadowWritebackDone_goesOn (h : (({ s with shw := { s.shw with old := none } } : State).writeBackBuf p b).2 ≠ []) :
    let r := ({ s with shw := { s.shw with old := none } } : State).writeBackBuf p b
    execShadowWritebackDone p s = .next { r.1 with shw := { r.1.shw with old := some { b with dirty := r.2 } } } := by
  rw [execShadowWritebackDone, ho]
  simp only [hp, ne_eq, not_true, if_false]

end

/-! Resets of an LD (R88, R91, R92, R134 to R136). -/

section
variable {link : LinkId} {ld : LdId}

theorem execFlr_gone (h : s.linkGone link = true) : execFlr link ld s = .next s :=
  congrArg Host.Outcome.next (if_pos h)

theorem execFlr_unbound (h : s.linkGone link = false) (hb : s.bound link ld = none) : execFlr link ld s = .next (s.resetLd link ld) := by
  have hb' : (s.resetLd link ld).bound link ld = none := hb
  simp only [execFlr, h, Bool.false_eq_true, if_false, hb']

/-- The function-level reset of a bound LD; `t` is what the reset of its partition leaves. -/
theorem execFlr_bound {p : Nat} (h : s.linkGone link = false) (hb : s.bound link ld = some p) {t : State} (ht : t = (s.resetLd link ld).partReset p) :
    execFlr link ld s = .next (if t.shwOwner = some p then { (t.wr .shwIndexLo 0).wrB .shwStat 2 false with shw := { t.shw with loFresh := false } } else t) := by
  have hb' : (s.resetLd link ld).bound link ld = some p := hb
  simp only [execFlr, h, Bool.false_eq_true, if_false, hb', ht]

theorem execLdReset_unbound (hb : s.bound link ld = none) : execLdReset link ld s = .next (s.resetLd link ld) := by
  rw [execLdReset, State.ldReset, hb]

/-- The LD reset of a bound LD; `t` stands before the reset of its partition, and `u` after its map is cleared. Whose objects it resets may be asked before or after the partition's work is stopped. -/
theorem execLdReset_bound {p : Nat} (hb : s.bound link ld = some p) {t u v : State} (ht : t = (s.setMemActive p false).resetLd link ld)
    (hu : u = ((((t.partReset p).resetObjs (fun k => (t.partReset p).syncOwner k == some p)).shwReset p).clearMap p).shwOpen p)
    (hv : v = if u.rdF .strStartState 0 4 = 5 then u.dropRestore p else u) :
    execLdReset link ld s = .next (if s.memActive p then v.setMemActive p true else v) := by
  rw [funext (t.partReset_configs p).syncOwner] at hu
  rw [execLdReset, State.ldReset, hb]
  simp only [hv, hu, ht]

end

/-! Accesses to the shadow window (R180, R185, R186), and the clauses of a bound LD. -/

section
variable {link : LinkId} {ld : LdId} {p : Nat} (hc : s.linkCarries link = true) (hb : s.bound link ld = some p)
include hc hb

theorem execShadowWindowAccess_writes (hp : s.shwOwner = some p) (hq : s.quarantined p = false) {b : ShwBuf} (hcur : s.shw.cur = some b) (n : Nat) {k : Nat} (v : Nat)
    {be : BitVec 64} (he : 4 ≤ enabledBytes k be) : execShadowWindowAccess link ld n k (some (v, be)) s =
      .next { s with shw := { s.shw with cur := some (b.putBytes (fun l => s.inFrozen p (shwAddr b.index + 64 * l) 64) n k v be.toNat (k / 64 + 2)) } } := by
  rw [execShadowWindowAccess, State.onBar0_bound hc hb]
  simp only [hp, hq, hcur, he, Bool.not_false, and_self, Option.isSome_some, Option.getD_some, if_true]

/-- A write of fewer than four bytes changes nothing (R180). -/
theorem execShadowWindowAccess_short (n : Nat) {k : Nat} (v : Nat) {be : BitVec 64} (he : enabledBytes k be < 4) :
    execShadowWindowAccess link ld n k (some (v, be)) s = .next s := by
  rw [execShadowWindowAccess, State.onBar0_bound hc hb]
  exact congrArg Host.Outcome.next (if_neg fun h => by omega)

theorem execShadowWindowAccess_reads (hp : s.shwOwner = some p) (hq : s.quarantined p = false) {b : ShwBuf} (hcur : s.shw.cur = some b) (n : Nat) {k : Nat} (h1 : 1 ≤ k) (h64 : k ≤ 64) :
    ∃ bad, execShadowWindowAccess link ld n k none s = .next (s.send (.windowData link ld n k (readWrap b.data (2 ^ 20) (n % 2 ^ 20) k) bad)) := by
  have hk : ¬ (k = 0 ∨ 64 < k) := by omega
  rw [execShadowWindowAccess, State.onBar0_bound hc hb]
  simp only [hk, hp, hq, hcur, Bool.not_false, and_self, Option.getD_some, if_true, if_false]
  exact ⟨_, rfl⟩

theorem execShadowWindowAccess_notOwner (hp : s.shwOwner ≠ some p) (n : Nat) {k : Nat} (h1 : 1 ≤ k) (h64 : k ≤ 64) :
    execShadowWindowAccess link ld n k none s = .next (s.send (.windowData link ld n k 0 false)) := by
  have hk : ¬ (k = 0 ∨ 64 < k) := by omega
  rw [execShadowWindowAccess, State.onBar0_bound hc hb]
  simp only [hk, hp, false_and, if_false]

theorem execPrtLivenessWrite_bound (v : BitVec 32) : execPrtLivenessWrite link ld v s = .next (s.liveness p v.toNat) :=
  congrArg Host.Outcome.next (State.onBar0_bound hc hb ..)

theorem execShwIndexLoWrite_owner (hp : s.shwOwner = some p) (v : BitVec 32) : execShwIndexLoWrite link ld v s = .next (s.shwWriteLo v.toNat) := by
  rw [execShwIndexLoWrite, State.onBar0_bound hc hb, if_pos hp]

theorem execShwIndexHiWrite_owner (hp : s.shwOwner = some p) (v : BitVec 32) : execShwIndexHiWrite link ld v s = .next (s.shwWriteHi p v.toNat) := by
  rw [execShwIndexHiWrite, State.onBar0_bound hc hb, if_pos hp]

end

end

/-! O58 as a whole. -/

/-- Settles O58, clause by clause. All but one say what their command's branches do; an LD reset also needs that the reset of a partition leaves the owners of sync objects as they were
(partReset_configs). What a short write leaves alone and the registers that an LD reset and RELEASE clear with the window are choices of log 26; how far a function-level reset, an LD reset and
RELEASE reach, and that the watchdog expires at (tick + timeout + 1) ms, are log 27's; that QUARANTINE reads 1 while it waits for its processors is log 90's. -/
theorem partitionControls : Obligations.PartitionControls := by
  refine ⟨fun s p => ⟨rfl, ?idle, ?liftQuiet, ?abort, ?up, ?down, ?held, ?free, ?expires, ?off⟩, ?pcie, ?bound, ?swap, ?resets⟩
  case idle => exact execPartitionQuiesced_idle
  case liftQuiet => exact execQuiesceLift_lifts
  case abort => exact execQuiesceAbort_of_no_kernels
  case up => exact fun h5 h9 => congrArg Host.Outcome.next (State.quarantineReq_up h5 h9)
  case down => exact fun h => congrArg Host.Outcome.next (State.quarantineReq_down h)
  case held =>
    refine fun h => ⟨rfl, execRelease_held h, fun _ => ⟨fun hq => ?_, fun hq => ?_⟩⟩
    · rw [State.lift_held h]; exact if_neg (by rw [hq]; decide)
    · rw [State.lift_held h]; exact if_pos hq
  case free => exact fun h => ⟨congrArg Host.Outcome.next (State.lift_free h), execRelease_free h⟩
  case expires =>
    exact fun ht ha hd h5 h9 => (execLivenessTimeout_expires ht ha hd).trans (congrArg Host.Outcome.next (State.quarantineReq_up h5 h9))
  case off => exact execLivenessTimeout_off
  case pcie =>
    have hu {s : State} {link : LinkId} {ld : LdId} (h : s.linkState link = 7) (off : Nat) (f : Nat → State) :
        (.next (s.onBar0 link ld off f) : Res) = .next (s.send (.unsupported (.ld link ld) off)) := congrArg Host.Outcome.next (State.onBar0_pcieOnly (ld := ld) h off f)
    exact fun s link ld h => ⟨fun v => ⟨hu h .., hu h .., hu h ..⟩, fun n k w => hu h ..⟩
  case bound =>
    intro s link ld q hs hc hb p
    refine ⟨fun v => ⟨_, execPrtLivenessWrite_bound hc hb v, State.rd_liveness hs p v, fun ht ha => State.liveness_arms hs ht ha _⟩, fun hp => ⟨?lo, ?range, ?index, ?write, ?short, ?read⟩,
      fun hp n k => execShadowWindowAccess_notOwner hc hb hp n⟩
    case lo => exact execShwIndexLoWrite_owner hc hb hp
    case range => exact fun v => ⟨_, execShwIndexHiWrite_owner hc hb hp v, State.shwWriteHi_range_reads hs⟩
    case index =>
      intro v hv i hfit hden t
      have hx := execShwIndexHiWrite_owner hc hb hp v
      exact ⟨fun b hcur he => hx.trans (congrArg Host.Outcome.next (State.shwWriteHi_shown hv hfit hden hcur he)),
        fun b hcur he => hx.trans (congrArg Host.Outcome.next (State.shwWriteHi_other hv hfit hden hcur he))⟩
    case write => exact fun n k b v be hq hcur he => execShadowWindowAccess_writes hc hb hp hq hcur n v he
    case short => exact fun n k v be he => execShadowWindowAccess_short hc hb n v he
    case read => exact fun n k b hq hcur h1 h64 => execShadowWindowAccess_reads hc hb hp hq hcur n h1 h64
  case swap =>
    have hown {s : State} {p : PartId} (hp : s.shwOwner = some p.val) : execShadowSwapSwitch p s = .next (s.shwSwitch p) := congrArg Host.Outcome.next (if_pos hp)
    exact fun s p hp => ⟨fun i hn => ⟨fun hf => (hown hp).trans (congrArg Host.Outcome.next (State.shwSwitch_waits hn hf)),
      fun hf ho => (hown hp).trans (congrArg Host.Outcome.next (State.shwSwitch_loads hn hf ho))⟩,
      fun b ho => ⟨execShadowWritebackDone_ends ho hp, execShadowWritebackDone_goesOn ho hp⟩⟩
  case resets =>
    refine fun s link ld => ⟨execFlr_gone, execFlr_unbound, ?flr, execLdReset_unbound, ?ldReset⟩
    case flr =>
      intro p hg hb t
      exact execFlr_bound hg hb (t := t) rfl
    case ldReset =>
      intro p hb t u v
      exact execLdReset_bound hb (t := t) (u := u) (v := v) rfl rfl rfl

end Sys2Proof.Machine
end

section
/-! PROOFS. The machine as a whole (00): steps on an empty queue, and runs of any number of steps. -/

namespace Sys2Proof.Machine

/-! Runs. -/

/-- Keeping speaks of the queue only to say that it stays: it holds just so of the two states with another queue in the place of theirs. -/
theorem Keeps.withPending {s t : State} (h : Keeps s t) (l : List Instr) : Keeps { s with pending := l } { t with pending := l } where
  queue := rfl
  clock := h.clock
  sent := h.sent
  fresh := h.fresh
  canonical hs := (h.canonical (hs.withPending s.pending)).withPending l

theorem stepsFrom_succ {n : Nat} {s t : State} (h : step s = .next t) : stepsFrom (n + 1) s = stepsFrom n t := by
  rw [stepsFrom, h]

/-- A run answers a next state and keeps what Keeps says, of the state whose queue has lost as many commands as the run has steps. -/
theorem stepsFrom_keeps (n : Nat) (s : State) : ∃ t, stepsFrom n s = some t ∧ Keeps { s with pending := s.pending.drop n } t := by
  induction n generalizing s with
  | zero => exact ⟨s, rfl, Keeps.refl s⟩
  | succ n ih =>
    obtain ⟨u, hu, hsu⟩ := step_keeps s
    obtain ⟨t, ht, hut⟩ := ih u
    have hq : u.pending.drop n = s.pending.drop (n + 1) := by rw [hsu.queue, List.drop_tail]
    rw [hq] at hut
    exact ⟨t, (stepsFrom_succ hu).trans ht, (hsu.withPending _).trans hut⟩

/-- Settles O6: a run keeps, and the canonical form does not speak of the queue. That a step takes the front of the queue, and when module time moves, are the model's choices (logs 1 and 2). -/
theorem runsAreMonotone : Obligations.RunsAreMonotone := by
  intro n s
  obtain ⟨t, ht, hk⟩ := stepsFrom_keeps n s
  exact ⟨t, ht, hk.queue, hk.clock, hk.sent, fun hs => hk.canonical (hs.withPending _)⟩

/-! Steps on an empty queue (R281). -/

theorem State.rebuildStripe_of_idle {s : State} {h : Nat} (hr : s.rebuilding h = false) : s.rebuildStripe h = s := by
  simp only [State.rebuildStripe, hr, Bool.false_and, Bool.false_eq_true, if_false]

theorem State.rebuildStripe_of_rebuilding {s : State} {h : Nat} (hr : s.rebuilding h = true) (hp : (s.rd .lpcRebuildPtr h).toNat < 2 ^ 31) :
    s.rebuildStripe h = (s.background h 3 40 512).wr .lpcRebuildPtr (s.rd .lpcRebuildPtr h + 1) h := by
  simp only [State.rebuildStripe, hr, hp, decide_true, Bool.and_self, if_true]

/-- Which groups are rebuilding is told by LPC_GROUP_STATE alone. -/
theorem State.rebuilding_congr {s t : State} (h : t.rd .lpcGroupState = s.rd .lpcGroupState) (k : Nat) : t.rebuilding k = s.rebuilding k := by
  simp only [State.rebuilding, State.rdF, h]

/-- While a group is rebuilding, LPC_GROUP_STATE does not read as its reset word. -/
theorem State.rd_lpcGroupState_of_rebuilding {s : State} {k : Nat} (h : s.rebuilding k = true) : s.rd .lpcGroupState ≠ RegId.resetWord ⟨.lpcGroupState, 0, 0⟩ := by
  intro e
  have hz (a : Nat) : fld (RegId.resetWord ⟨.lpcGroupState, 0, 0⟩) a 2 = 0 := by
    rw [show RegId.resetWord ⟨.lpcGroupState, 0, 0⟩ = 0 from rfl]
    simp [fld]
  simp [State.rebuilding, State.rdF, e, hz] at h

/-- Writing another register leaves a running rebuild as it is told, in whatever order the register file lists its entries: LPC_GROUP_STATE is listed then. -/
theorem State.rebuilding_wr {s : State} {n : RegName} (hn : .lpcGroupState ≠ n) {k : Nat} (h : s.rebuilding k = true) (v : Word) (i j m : Nat) :
    (s.wr n v i j).rebuilding m = s.rebuilding m :=
  State.rebuilding_congr (State.rd_wr_name_of_listed hn (State.rd_lpcGroupState_of_rebuilding h) v) m

/-- A stripe of one hub's rebuild leaves both hubs' groups as they were. -/
theorem State.rebuilding_rebuildStripe {s : State} (k m : Nat) : (s.rebuildStripe k).rebuilding m = s.rebuilding m := by
  unfold State.rebuildStripe
  split
  next h =>
    obtain ⟨hr, -⟩ := (Bool.and_eq_true ..).mp h
    exact State.rebuilding_wr (s := s.background k 3 40 512) (by decide) (k := k) hr ..
  next => rfl

/-- Where hub 1's group is not rebuilding, an idle step is hub 0's turn alone. -/
theorem State.idle_hub0 {s : State} (h : s.rebuilding 1 = false) : s.idle = ({ s with time := s.time + 1 } : State).rebuildStripe 0 :=
  State.rebuildStripe_of_idle ((State.rebuilding_rebuildStripe (s := { s with time := s.time + 1 }) 0 1).trans h)

/-- Where hub 0's group is not rebuilding, an idle step is hub 1's turn alone. -/
theorem State.idle_hub1 {s : State} (h : s.rebuilding 0 = false) : s.idle = ({ s with time := s.time + 1 } : State).rebuildStripe 1 :=
  congrArg (State.rebuildStripe · 1) (State.rebuildStripe_of_idle (s := { s with time := s.time + 1 }) h)

theorem State.idle_of_still {s : State} (h0 : s.rebuilding 0 = false) (h1 : s.rebuilding 1 = false) : s.idle = { s with time := s.time + 1 } :=
  (State.idle_hub0 h1).trans (State.rebuildStripe_of_idle h0)

theorem State.idle_of_alone {s : State} : ∀ {g : Fin 2}, s.rebuilding (1 - g) = false → s.idle = ({ s with time := s.time + 1 } : State).rebuildStripe g
  | 0, h => State.idle_hub0 h
  | 1, h => State.idle_hub1 h

theorem State.idle_of_rebuilding {s : State} {g : Fin 2} (hg : s.rebuilding g = true) (hother : s.rebuilding (1 - g) = false) (hp : (s.rd .lpcRebuildPtr g).toNat < 2 ^ 31) :
    s.idle = (({ s with time := s.time + 1 } : State).background g 3 40 512).wr .lpcRebuildPtr (s.rd .lpcRebuildPtr g + 1) g :=
  (State.idle_of_alone hother).trans (State.rebuildStripe_of_rebuilding (s := { s with time := s.time + 1 }) hg hp)

/-- Settles O2. That 1 ns passes on an empty queue, and that a running rebuild does one stripe in it, are the model's choices (logs 2 and 3). -/
theorem idleStepPassesOneNs : Obligations.IdleStepPassesOneNs := by
  intro s hq
  rw [step_nil hq]
  exact ⟨fun h0 h1 => congrArg Host.Outcome.next (State.idle_of_still h0 h1), fun g hg hother hp => congrArg Host.Outcome.next (State.idle_of_rebuilding hg hother hp)⟩

end Sys2Proof.Machine
end

section
/-! PROOFS. Host links (04): requests of hosts on CXL.mem. -/

namespace Sys2Proof.Machine

/-! What reads and writes share once they have met an isolation entry. -/

/-- The state in which a host request that partition `p` is charged for meets its data: budget and level (R500, R505), the owner's map entry (R236), heat (R239). -/
def State.hostCharged (c : State) (p n owner addr : Nat) : State :=
  (((c.charge p 0 (c.classOf p 0 n) (c.levelOf p 0 0 n 0) 64).atLevel (c.levelOf p 0 0 n 0)).mapAccess owner (addr / 65536)).touchPage owner (addr / 4096)

/-- A host write is put into its slot, or held where no slot can be had (R211, R212). -/
def State.putHostWrite (u : State) (w : HeldWrite) : State :=
  let v := (u.tryWrite w).1
  if (u.tryWrite w).2 = .held then { v with lens := { v.lens with heldW := v.lens.heldW ++ [w], seq := v.lens.seq + 1 } }.incEvt .lnsPSlotStalls w.owner else v

section
variable {s : State} {link : LinkId} {ld : LdId}

/-! Requests that a planned switchover holds (R538). -/

theorem State.switchHolds_of_switching {p : Nat} (hb : s.bound link ld = some p) (hs : (s.mirPart p).switching.isSome = true) : s.switchHolds link ld = some p := by
  simp only [State.switchHolds, hb, hs, if_true]

theorem State.switchHolds_none (h : ∀ p, s.bound link ld = some p → (s.mirPart p).switching = none) : s.switchHolds link ld = none := by
  unfold State.switchHolds
  split
  next p hb => simp only [h p hb, Option.isSome_none, Bool.false_eq_true, if_false]
  next => rfl

/-! Reads (R112, R148 to R152, R96). -/

section
variable {tag hpa : Nat} {kind : ReadKind}

theorem execHostMemRead_switching {p : Nat} (hb : s.bound link ld = some p) (hs : (s.mirPart p).switching.isSome = true) :
    execHostMemRead link ld tag hpa kind s = .next (s.holdReq p (.hostMemRead link ld tag hpa kind)) := by
  rw [execHostMemRead, State.switchHolds_of_switching hb hs]

theorem execHostMemRead_notHeld (h : s.switchHolds link ld = none) : execHostMemRead link ld tag hpa kind s = .next (s.hostRead link ld tag hpa kind) := by
  rw [execHostMemRead, h]

theorem State.hostRead_notCarried (hc : s.linkCarries link = false) : s.hostRead link ld tag hpa kind = s := by
  rw [State.hostRead, if_neg (by rw [hc]; decide)]

theorem State.hostRead_memSpecRd : s.hostRead link ld tag hpa .memSpecRd = s := ite_self s

theorem State.hostRead_carried (hc : s.linkCarries link = true) : s.hostRead link ld tag hpa kind = s.hostReadIn link ld tag hpa kind := if_pos hc

variable {p : Nat} (hk : kind ≠ .memSpecRd) {t : State} (ht : s.wakeAbort = t)
include hk ht

theorem State.hostReadIn_ideBlocked (hi : t.ideBlocked link = true) :
    s.hostReadIn link ld tag hpa kind = (t.ideTell link).hostData link ld tag true 0 .light := by
  simp only [State.hostReadIn, beq_eq_false_iff_ne.mpr hk, Bool.false_eq_true, if_false, ht, hi, if_true]

variable (hi : t.ideBlocked link = false)
include hi

theorem State.hostReadIn_unbound (hm : t.hostMatch link ld (hpa / 64 * 64) = .unbound) :
    s.hostReadIn link ld tag hpa kind = (t.unmatchedReq link ld (hpa / 64 * 64) none).hostData link ld tag true 0 .light := by
  simp only [State.hostReadIn, beq_eq_false_iff_ne.mpr hk, Bool.false_eq_true, if_false, ht, hi, hm]

theorem State.hostReadIn_unmatched (hm : t.hostMatch link ld (hpa / 64 * 64) = .unmatched p) :
    s.hostReadIn link ld tag hpa kind = (t.unmatchedReq link ld (hpa / 64 * 64) (some p)).hostData link ld tag true 0 .light := by
  simp only [State.hostReadIn, beq_eq_false_iff_ne.mpr hk, Bool.false_eq_true, if_false, ht, hi, hm]

theorem State.hostReadIn_inactive (hm : t.hostMatch link ld (hpa / 64 * 64) = .inactive p) :
    s.hostReadIn link ld tag hpa kind = (t.inactiveTell link ld p (hpa / 64 * 64)).hostData link ld tag true 0 .light := by
  simp only [State.hostReadIn, beq_eq_false_iff_ne.mpr hk, Bool.false_eq_true, if_false, ht, hi, hm]

theorem State.hostReadIn_hit {k addr : Nat} {x : IsoEntry} (hm : t.hostMatch link ld (hpa / 64 * 64) = .hit p k x addr) {c u : State} (hc : t.countMatch k x = c)
    (hu : c.hostCharged p (16 * link.val + ld.val) x.owner addr = u) :
    s.hostReadIn link ld tag hpa kind = u.serveRead
      { link := link, ld := ld, tag := tag, hpa := hpa / 64 * 64, reqPart := p, owner := x.owner, addr := addr,
        level := c.levelOf p 0 0 (16 * link.val + ld.val) 0, at_ := u.time, fill := false } true := by
  subst hu hc
  simp only [State.hostReadIn, beq_eq_false_iff_ne.mpr hk, Bool.false_eq_true, if_false, ht, hi, hm, State.hostCharged]

end
end

/-- Settles O37, clause by clause. That MemSpecRd is dropped, and that CXL.mem has no effect on a link that is not in L0, are choices of log 44. -/
theorem hostReadsAreMatchedAndServed : Obligations.HostReadsAreMatchedAndServed := by
  intro s link ld tag hpa kind
  refine ⟨fun p hb hs => execHostMemRead_switching hb hs, fun hn => ?_⟩
  have hread : exec (.hostMemRead link ld tag hpa kind) s = .next (s.hostRead link ld tag hpa kind) := execHostMemRead_notHeld (State.switchHolds_none hn)
  rw [hread]
  refine ⟨fun hc => congrArg Host.Outcome.next (State.hostRead_notCarried hc), ?spec, fun hc hk => ?carried⟩
  case spec =>
    rintro rfl
    exact congrArg Host.Outcome.next State.hostRead_memSpecRd
  case carried =>
    rw [State.hostRead_carried hc]
    intro t a
    exact ⟨fun hi => congrArg Host.Outcome.next (State.hostReadIn_ideBlocked hk rfl hi),
      fun hi hm => congrArg Host.Outcome.next (State.hostReadIn_unbound hk rfl hi hm),
      fun p hi hm => congrArg Host.Outcome.next (State.hostReadIn_unmatched hk rfl hi hm),
      fun p hi hm => congrArg Host.Outcome.next (State.hostReadIn_inactive hk rfl hi hm),
      fun p k x y hi hm => congrArg Host.Outcome.next (State.hostReadIn_hit hk rfl hi hm rfl rfl)⟩

/-! Invalidates and writes (R112, R153, R204 to R218). -/

section
variable {s : State} {link : LinkId} {ld : LdId} {tag hpa : Nat} (hc : s.linkCarries link = true) {t : State} (ht : s.wakeAbort = t) (hi : t.ideBlocked link = false)
  {p k addr : Nat} {x : IsoEntry} (hm : t.hostMatch link ld (hpa / 64 * 64) = .hit p k x addr)
include hc ht hi hm

theorem execHostMemInvalidate_hit (nt : Bool) :
    execHostMemInvalidate link ld tag hpa nt s = .next ((t.countMatch k x).hostCmp link ld tag 3 (t.devLoad p (hubOf (addr / 65536)))) := by
  simp only [execHostMemInvalidate, State.hostInv, hc, Bool.not_true, Bool.false_eq_true, if_false, ht, hi, hm]

variable {data : Line} {be : BitVec 64} {poison : Bool} (hs : s.switchHolds link ld = none) {c : State} (hcount : t.countMatch k x = c)
include hs hcount

theorem execHostMemWrite_frozen (hf : x.attr = .frozen ∨ c.inFrozen x.owner (addr / 64 * 64) 64 = true) :
    execHostMemWrite link ld tag hpa data be poison s =
      .next (((c.incErr .prtFrozenWrites p).raiseGathered gkFrozen (16 * link.val + ld.val)
        { reg := .prtFrozenWrites, part := some p, link := some link.val, addr := hpa / 64 * 64, args := [ld.val] }).hostCmp link ld tag 1 (c.devLoad p (hubOf (addr / 65536)))) := by
  simp only [execHostMemWrite, hs, State.hostWrite, hc, if_true, State.hostWriteIn, ht, hi, Bool.false_eq_true, if_false, hm, hcount, if_pos hf]

theorem execHostMemWrite_hit (ha : x.attr ≠ .frozen) (hf : c.inFrozen x.owner (addr / 64 * 64) 64 = false) {u : State} (hu : c.hostCharged p (16 * link.val + ld.val) x.owner addr = u) :
    execHostMemWrite link ld tag hpa data be poison s = .next (u.putHostWrite
      { link := link, ld := ld, tag := tag, hpa := hpa / 64 * 64, reqPart := p, owner := x.owner, addr := addr, data := data, be := be, poison := poison,
        level := c.levelOf p 0 0 (16 * link.val + ld.val) 0, at_ := u.time, seq := u.lens.seq }) := by
  have hnot : ¬ (x.attr = .frozen ∨ c.inFrozen x.owner (addr / 64 * 64) 64 = true) := by simp [ha, hf]
  subst hu
  simp only [execHostMemWrite, hs, State.hostWrite, hc, if_true, State.hostWriteIn, ht, hi, Bool.false_eq_true, if_false, hm, hcount, if_neg hnot]
  unfold State.hostCharged State.putHostWrite
  split
  next v hr => simp only [hr, if_true]
  next v r hne hr => simp only [hr, if_neg hne]

end

/-- Settles O38, clause by clause. That a discarded write is still completed is log 19's choice. -/
theorem hostWritesAndInvalidatesComplete : Obligations.HostWritesAndInvalidatesComplete := by
  intro s link ld tag hpa data be poison nt hc t a hi p k x y hm n c
  refine ⟨execHostMemInvalidate_hit hc rfl hi hm nt, fun hn => ?_⟩
  have hs : s.switchHolds link ld = none := State.switchHolds_none hn
  exact ⟨fun hf => execHostMemWrite_frozen hc rfl hi hm hs rfl hf, fun ha hf => execHostMemWrite_hit hc rfl hi hm hs rfl ha hf rfl⟩

end Sys2Proof.Machine
end

section
/-! PROOFS. Host links (04): the queries of an LD's CXL mailbox (R115). -/

namespace Sys2Proof.Machine

/-- One state follows another by an output and at most one free value taken: all else is as it was. -/
def OnlyAnswers (s t : State) : Prop := ∃ (o : Output) (n : Nat), t = { s with out := s.out ++ [o], free := n } ∧ s.free ≤ n ∧ n ≤ s.free + 1

theorem OnlyAnswers.send (s : State) (o : Output) : OnlyAnswers s (s.send o) := ⟨o, s.free, rfl, le_refl _, Nat.le_succ _⟩

section
variable {s : State} {link : LinkId} {ld : LdId}

theorem OnlyAnswers.mbox (code : Nat) (payload : List Nat) : OnlyAnswers s (s.mbox link ld code payload) := .send ..

theorem OnlyAnswers.mboxFree (code : Nat) (payload : List Nat) : OnlyAnswers s (s.nextFree.2.mbox link ld code payload) :=
  ⟨_, s.free + 1, rfl, Nat.le_succ _, le_refl _⟩

theorem OnlyAnswers.ite {s a b : State} {c : Prop} [Decidable c] (ha : OnlyAnswers s a) (hb : OnlyAnswers s b) : OnlyAnswers s (if c then a else b) := by
  split <;> assumption

theorem State.mboxCmd_notCarried (hc : s.linkCarries link = false) (f : Nat → State) : s.mboxCmd link ld f = .next s := by
  simp only [State.mboxCmd, hc, Bool.not_false, if_true]

theorem State.mboxCmd_unbound (hc : s.linkCarries link = true) (hb : s.bound link ld = none) (f : Nat → State) :
    s.mboxCmd link ld f = .next (s.mbox link ld mbUnsupported []) := by
  simp only [State.mboxCmd, hc, Bool.not_true, Bool.false_eq_true, if_false, hb]

theorem State.mboxCmd_bound {p : Nat} (hc : s.linkCarries link = true) (hb : s.bound link ld = some p) (f : Nat → State) : s.mboxCmd link ld f = .next (f p) := by
  simp only [State.mboxCmd, hc, Bool.not_true, Bool.false_eq_true, if_false, hb]

end

/-- A command of an LD's mailbox is a query: for each partition that the LD may be bound to, all it does is answer. -/
def IsMboxQuery (s : State) (link : LinkId) (ld : LdId) (c : Instr) : Prop := ∃ f : Nat → State, exec c s = s.mboxCmd link ld f ∧ ∀ p, OnlyAnswers s (f p)

section
variable {s : State} {link : LinkId} {ld : LdId}

/-! The queries. -/

theorem isMboxQuery_getEventRecords (log : Nat) : IsMboxQuery s link ld (.getEventRecords link ld log) := ⟨_, rfl, fun _ => .ite (.mbox ..) (.send ..)⟩
theorem isMboxQuery_getEventInterruptPolicy : IsMboxQuery s link ld (.getEventInterruptPolicy link ld) := ⟨_, rfl, fun _ => .mbox ..⟩
theorem isMboxQuery_getFwInfo : IsMboxQuery s link ld (.getFwInfo link ld) := ⟨_, rfl, fun _ => .mbox ..⟩
theorem isMboxQuery_getTimestamp : IsMboxQuery s link ld (.getTimestamp link ld) := ⟨_, rfl, fun _ => .mbox ..⟩
theorem isMboxQuery_getSupportedLogs : IsMboxQuery s link ld (.getSupportedLogs link ld) := ⟨_, rfl, fun _ => .mbox ..⟩
theorem isMboxQuery_getLog (log off len : Nat) : IsMboxQuery s link ld (.getLog link ld log off len) := ⟨_, rfl, fun _ => .ite (.mbox ..) (.mboxFree ..)⟩
theorem isMboxQuery_identifyMemoryDevice : IsMboxQuery s link ld (.identifyMemoryDevice link ld) := ⟨_, rfl, fun _ => .mbox ..⟩
theorem isMboxQuery_getHealthInfo : IsMboxQuery s link ld (.getHealthInfo link ld) := ⟨_, rfl, fun _ => .mboxFree ..⟩
theorem isMboxQuery_getAlertConfig : IsMboxQuery s link ld (.getAlertConfig link ld) := ⟨_, rfl, fun _ => .mbox ..⟩
theorem isMboxQuery_getPoisonList (dpa len : Nat) : IsMboxQuery s link ld (.getPoisonList link ld dpa len) := ⟨_, rfl, fun _ => .mbox ..⟩
theorem isMboxQuery_getScanMediaCapabilities : IsMboxQuery s link ld (.getScanMediaCapabilities link ld) := ⟨_, rfl, fun _ => .mboxFree ..⟩
theorem isMboxQuery_getScanMediaResults : IsMboxQuery s link ld (.getScanMediaResults link ld) := ⟨_, rfl, fun _ => .mbox ..⟩
theorem isMboxQuery_getLostResponses (skip : Nat) : IsMboxQuery s link ld (.getLostResponses link ld skip) := ⟨_, rfl, fun _ => .ite (.mbox ..) (.mbox ..)⟩

/-! What every query does, on a link that carries nothing, for an LD without a binding, and for one with a binding. -/

theorem IsMboxQuery.notCarried {c : Instr} (hq : IsMboxQuery s link ld c) (hl : s.linkCarries link = false) : exec c s = .next s := by
  obtain ⟨f, hf, -⟩ := hq
  rw [hf, State.mboxCmd_notCarried hl]

theorem IsMboxQuery.unbound {c : Instr} (hq : IsMboxQuery s link ld c) (hl : s.linkCarries link = true) (hb : s.bound link ld = none) :
    exec c s = .next (s.mbox link ld mbUnsupported []) := by
  obtain ⟨f, hf, -⟩ := hq
  rw [hf, State.mboxCmd_unbound hl hb]

theorem IsMboxQuery.bound {c : Instr} (hq : IsMboxQuery s link ld c) (hl : s.linkCarries link = true) {p : Nat} (hb : s.bound link ld = some p) :
    ∃ t, exec c s = .next t ∧ OnlyAnswers s t := by
  obtain ⟨f, hf, ha⟩ := hq
  exact ⟨f p, hf.trans (State.mboxCmd_bound hl hb f), ha p⟩

theorem execCxlMboxUnsupported_notCarried (hl : s.linkCarries link = false) (opcode : Nat) : execCxlMboxUnsupported link ld opcode s = .next s := by
  simp only [execCxlMboxUnsupported, hl, Bool.false_eq_true, if_false]

theorem execCxlMboxUnsupported_carried (hl : s.linkCarries link = true) (opcode : Nat) :
    execCxlMboxUnsupported link ld opcode s = .next (s.mbox link ld mbUnsupported []) := by
  rw [execCxlMboxUnsupported, if_pos hl]

end

/-- Settles O52. Which answers an LD without a binding and an unlisted opcode have, that a link which carries nothing has none, and which answers are free values, are the model's choices (log 40). -/
theorem cxlMailboxQueriesOnlyAnswer : Obligations.CxlMailboxQueriesOnlyAnswer := by
  intro s link ld c hc
  by_cases hu : ∃ k, c = .cxlMboxUnsupported link ld k
  case pos =>
    obtain ⟨k, rfl⟩ := hu
    exact ⟨fun hl => execCxlMboxUnsupported_notCarried hl k,
      fun hl => ⟨_, s.free, execCxlMboxUnsupported_carried hl k, le_refl _, Nat.le_succ _, fun _ => rfl, fun _ => rfl⟩⟩
  case neg =>
    have hq : IsMboxQuery s link ld c := by
      rcases hc with ⟨n, rfl⟩ | rfl | rfl | rfl | rfl | ⟨l, o, n, rfl⟩ | rfl | rfl | rfl | ⟨a, n, rfl⟩ | rfl | rfl | ⟨n, rfl⟩ | h
      exacts [isMboxQuery_getEventRecords n, isMboxQuery_getEventInterruptPolicy, isMboxQuery_getFwInfo, isMboxQuery_getTimestamp, isMboxQuery_getSupportedLogs,
        isMboxQuery_getLog l o n, isMboxQuery_identifyMemoryDevice, isMboxQuery_getHealthInfo, isMboxQuery_getAlertConfig, isMboxQuery_getPoisonList a n,
        isMboxQuery_getScanMediaCapabilities, isMboxQuery_getScanMediaResults, isMboxQuery_getLostResponses n, absurd h hu]
    refine ⟨hq.notCarried, fun hl => ?_⟩
    cases hb : s.bound link ld with
    | none => exact ⟨_, s.free, hq.unbound hl hb, le_refl _, Nat.le_succ _, fun _ => rfl, fun h => absurd h hu⟩
    | some p =>
      obtain ⟨t, ht, o, n, rfl, hge, hle⟩ := hq.bound hl hb
      exact ⟨o, n, ht, hge, hle, nofun, fun h => absurd h hu⟩

end Sys2Proof.Machine
end

section
/-! PROOFS. Partitions (05): what a host request meets (R148 to R150). -/

namespace Sys2Proof.Machine

/-- The test by which a request's entry is chosen: an entry of partition `p` whose span holds the address (R148). -/
def isoMeets (p hpa : Nat) (e : Nat × Option IsoEntry) : Bool :=
  e.1 / 64 == p && (match e.2 with | some x => decide (x.base ≤ hpa ∧ hpa < x.base + x.len) | none => false)

@[simp] theorem isoMeets_some (p hpa k : Nat) (x : IsoEntry) :
    isoMeets p hpa (k, some x) = true ↔ k / 64 = p ∧ x.base ≤ hpa ∧ hpa < x.base + x.len := by
  simp only [isoMeets, Bool.and_eq_true, beq_iff_eq, decide_eq_true_eq]

section
variable {s : State} {link ld hpa p : Nat}

/-! The outcomes of R148, in its order. -/

theorem State.hostMatch_unbound (hb : s.bound link ld = none) : s.hostMatch link ld hpa = .unbound := by
  rw [State.hostMatch, hb]

theorem State.hostMatch_inactive (hb : s.bound link ld = some p) (h : (s.serving p && (s.ld link ld).memActive) = false) : s.hostMatch link ld hpa = .inactive p := by
  have hn : (!s.serving p || !(s.ld link ld).memActive) = true := by rw [← Bool.not_and, h]; rfl
  simp only [State.hostMatch, hb, hn, if_true]

theorem State.hostMatch_served (hb : s.bound link ld = some p) (h : (s.serving p && (s.ld link ld).memActive) = true) :
    s.hostMatch link ld hpa = match s.iso.find? (isoMeets p hpa) with
      | some (k, some x) => .hit p k x (x.target + (hpa - x.base))
      | _ => .unmatched p := by
  have hn : (!s.serving p || !(s.ld link ld).memActive) = false := by rw [← Bool.not_and, h]; rfl
  simp only [State.hostMatch, hb, hn, Bool.false_eq_true, if_false]
  rfl

/-- A request meets an entry exactly where its LD is bound to a served partition, is active itself, and the first entry of that partition whose span holds the address is this one. -/
theorem State.hostMatch_eq_hit {k a : Nat} {x : IsoEntry} : s.hostMatch link ld hpa = .hit p k x a ↔
    s.bound link ld = some p ∧ (s.serving p && (s.ld link ld).memActive) = true ∧ s.iso.find? (isoMeets p hpa) = some (k, some x) ∧ a = x.target + (hpa - x.base) := by
  cases hb : s.bound link ld with
  | none => simp [State.hostMatch_unbound hb]
  | some q =>
    cases hs : s.serving q && (s.ld link ld).memActive with
    | false =>
      rw [State.hostMatch_inactive hb hs]
      constructor
      · nofun
      · rintro ⟨⟨⟩, hs', -⟩
        exact absurd hs' (by rw [hs]; decide)
    | true =>
      rw [State.hostMatch_served hb hs]
      constructor
      · intro h
        split at h
        next hf => cases h; exact ⟨rfl, hs, hf, rfl⟩
        next => nomatch h
      · rintro ⟨⟨⟩, -, hf, rfl⟩
        rw [hf]

end

/-- Settles O39, from what it takes for a request to meet an entry. That the mirror can keep a partition from being served, as Memory_Active can (R96), stands in R530 and R535. -/
theorem hostsReachOnlyTheirRanges : Obligations.HostsReachOnlyTheirRanges := by
  intro s link ld hpa p k a x h
  obtain ⟨hb, hact, hf, rfl⟩ := State.hostMatch_eq_hit.mp h
  obtain ⟨hs, hm⟩ := (Bool.and_eq_true _ _).mp hact
  obtain ⟨hk, hlo, hhi⟩ := (isoMeets_some p hpa k x).mp (List.find?_some hf)
  exact ⟨hb, hs, hm, List.mem_of_find?_eq_some hf, hk, hlo, hhi, rfl, by omega, by omega⟩

end Sys2Proof.Machine
end

section
/-! PROOFS. Lens and compression (06_lens_compression): lines written into a merge slot. -/

namespace Sys2Proof.Machine

/-! Bits of masks, lines and pages. -/

theorem getLsbD_ofNat_two_pow (w i j : Nat) : (BitVec.ofNat w (2 ^ i)).getLsbD j = (decide (j < w) && decide (i = j)) := by
  rw [BitVec.getLsbD_ofNat, Nat.testBit_two_pow]

/-- A line's bit is set. -/
theorem getLsbD_setLine (v : BitVec 64) (line : Nat) {m : Nat} (hm : m < 64) : (v ||| BitVec.ofNat 64 (2 ^ line)).getLsbD m = (v.getLsbD m || decide (line = m)) := by
  rw [BitVec.getLsbD_or, getLsbD_ofNat_two_pow, decide_eq_true hm, Bool.true_and]

/-- A line's bit is cleared. -/
theorem getLsbD_clearLine (v : BitVec 64) (line : Nat) {m : Nat} (hm : m < 64) : (v &&& ~~~BitVec.ofNat 64 (2 ^ line)).getLsbD m = (v.getLsbD m && !decide (line = m)) := by
  rw [BitVec.getLsbD_and, BitVec.getLsbD_not, getLsbD_ofNat_two_pow, decide_eq_true hm, Bool.true_and, Bool.true_and]

/-- A number of `n` bits that stands in digit `k` of a word. -/
theorem getLsbD_ofNat_digit {v n : Nat} (hn : 0 < n) (hv : v < 2 ^ n) (w k b : Nat) :
    (BitVec.ofNat w (v * 2 ^ (n * k))).getLsbD b = (decide (b < w) && (decide (b / n = k) && v.testBit (b % n))) := by
  rw [BitVec.getLsbD_ofNat, Nat.testBit_mul_two_pow]
  congr 1
  have hb := Nat.div_add_mod b n
  have hm := Nat.mod_lt b hn
  by_cases hk : b / n = k
  · rw [hk] at hb
    rw [show b - n * k = b % n by omega]
    simp only [hk, decide_true, Bool.true_and, Bool.and_eq_right_iff_imp, decide_eq_true_eq]
    omega
  · simp only [hk, decide_false, Bool.false_and, Bool.and_eq_false_imp, decide_eq_true_eq]
    intro hle
    refine Nat.testBit_lt_two_pow (hv.trans_le (Nat.pow_le_pow_right (by decide) ?_))
    by_contra hlt
    exact hk (Nat.div_eq_of_lt_le (by rw [Nat.mul_comm]; omega) (by rw [Nat.mul_comm, Nat.mul_succ]; omega))

/-- Each bit of a byte mask stands for 8 bits of the data. -/
theorem testBit_spread : ∀ (n m i : Nat), (spread n m).testBit i = (decide (i < 8 * n) && m.testBit (i / 8))
  | 0, m, i => by simp [spread]
  | n + 1, m, i => by
    have hb : (if m % 2 = 1 then 255 else 0) < 2 ^ 8 := by split <;> decide
    rw [show spread (n + 1) m = (if m % 2 = 1 then 255 else 0) + 2 ^ 8 * spread n (m / 2) from rfl, Nat.add_comm, Nat.testBit_two_pow_mul_add _ hb]
    split
    next hi =>
      rw [show i / 8 = 0 by omega, Nat.testBit_zero]
      split
      next hm =>
        rw [show (255 : Nat) = 2 ^ 8 - 1 from rfl, Nat.testBit_two_pow_sub_one]
        simp [hi, hm]; omega
      next hm => simp [hm]
    next hi =>
      rw [testBit_spread n, ← Nat.testBit_succ, show ((i - 8) / 8).succ = i / 8 by omega]
      congr 1
      simp; omega

theorem spread_lt (n m : Nat) : spread n m < 2 ^ (8 * n) := by
  refine Nat.lt_pow_two_of_testBit _ fun i hi => ?_
  rw [testBit_spread, decide_eq_false (by omega), Bool.false_and]

theorem getLsbD_pageLine (d : Page) (line i : Nat) : (pageLine d line).getLsbD i = (decide (i < 512) && d.getLsbD (512 * line + i)) := by
  rw [pageLine, BitVec.getLsbD_ofNat, Nat.testBit_div_two_pow, BitVec.testBit_toNat, Nat.add_comm]

theorem getLsbD_lineMask (line : Nat) (be : BitVec 64) (b : Nat) :
    (lineMask line be.toNat).getLsbD b = (decide (b < 4096) && (decide (b / 64 = line) && be.getLsbD (b % 64))) := by
  rw [lineMask, getLsbD_ofNat_digit (by decide) be.isLt, BitVec.testBit_toNat]

/-- A line all of whose bytes are written can be read (R207). -/
theorem SlotSt.lineReady_of_written {x : SlotSt} {line : Nat} (h : ∀ i, i < 64 → x.written.getLsbD (64 * line + i) = true) : x.lineReady line = true := by
  rw [SlotSt.lineReady, Bool.or_eq_true, decide_eq_true_eq]
  right
  refine Nat.eq_of_testBit_eq fun i => ?_
  rw [Nat.testBit_mod_two_pow, Nat.testBit_div_two_pow, Nat.testBit_two_pow_sub_one, BitVec.testBit_toNat, Nat.add_comm i]
  by_cases hi : i < 64
  · rw [h i hi, Bool.and_true]
  · rw [decide_eq_false hi, Bool.false_and]

/-! A write of a line of a slot (R207, R209, R214). -/

/-- The data bits of a line that a byte mask selects. -/
def lineBits (line : Nat) (be : BitVec 64) : Page := BitVec.ofNat 32768 (spread 64 be.toNat * 2 ^ (512 * line))

/-- A slot whose bytes have all been written is complete, and seals where it was FILLING (R208). -/
def SlotSt.closeWhole (x : SlotSt) (now : Nat) : SlotSt :=
  if x.written ≠ BitVec.allOnes 4096 then x
  else if x.state = .filling then { x with state := .sealed, sealAt := now, filled := true } else { x with filled := true }

/-- The slot with a line's bytes put in, before it is looked at whether it is complete. -/
def SlotSt.merge (x : SlotSt) (now line : Nat) (data : Line) (be : BitVec 64) (poison : Bool) : SlotSt :=
  let lb : BitVec 64 := BitVec.ofNat 64 (2 ^ line)
  { x with
    data := (x.data &&& ~~~lineBits line be) ||| (BitVec.ofNat 32768 (data.toNat * 2 ^ (512 * line)) &&& lineBits line be)
    written := x.written ||| lineMask line be.toNat
    fresh := x.fresh ||| lb
    poison := if poison then x.poison ||| lb else if be = BitVec.allOnes 64 then x.poison &&& ~~~lb else x.poison
    bad := if be = BitVec.allOnes 64 then x.bad &&& ~~~lb else x.bad
    laterAt := if x.state = .encoding ∧ x.laterAt = none then some now else x.laterAt }

theorem SlotSt.closeWhole_frame (x : SlotSt) (now : Nat) : { x.closeWhole now with state := x.state, sealAt := x.sealAt, filled := x.filled } = x := by
  unfold SlotSt.closeWhole
  split_ifs <;> rfl

section
variable (x : SlotSt) (now line : Nat) (data : Line) (be : BitVec 64) (poison : Bool)

/-- That a write completes a slot shows in its state, its time of sealing and the mark itself alone. -/
theorem SlotSt.write_frame : { x.write now line data be poison with state := x.state, sealAt := x.sealAt, filled := x.filled } = x.merge now line data be poison :=
  (x.merge now line data be poison).closeWhole_frame now

theorem SlotSt.write_hub : (x.write now line data be poison).hub = x.hub := (congrArg SlotSt.hub (x.write_frame now line data be poison) :)
theorem SlotSt.write_part : (x.write now line data be poison).part = x.part := (congrArg SlotSt.part (x.write_frame now line data be poison) :)
theorem SlotSt.write_page : (x.write now line data be poison).page = x.page := (congrArg SlotSt.page (x.write_frame now line data be poison) :)
theorem SlotSt.write_snap : (x.write now line data be poison).snap = x.snap := (congrArg SlotSt.snap (x.write_frame now line data be poison) :)
theorem SlotSt.write_data : (x.write now line data be poison).data =
    (x.data &&& ~~~lineBits line be) ||| (BitVec.ofNat 32768 (data.toNat * 2 ^ (512 * line)) &&& lineBits line be) :=
  (congrArg SlotSt.data (x.write_frame now line data be poison) :)
theorem SlotSt.write_written : (x.write now line data be poison).written = x.written ||| lineMask line be.toNat := (congrArg SlotSt.written (x.write_frame now line data be poison) :)
theorem SlotSt.write_poison : (x.write now line data be poison).poison =
    if poison then x.poison ||| BitVec.ofNat 64 (2 ^ line) else if be = BitVec.allOnes 64 then x.poison &&& ~~~BitVec.ofNat 64 (2 ^ line) else x.poison :=
  (congrArg SlotSt.poison (x.write_frame now line data be poison) :)
theorem SlotSt.write_bad : (x.write now line data be poison).bad =
    if be = BitVec.allOnes 64 then x.bad &&& ~~~BitVec.ofNat 64 (2 ^ line) else x.bad :=
  (congrArg SlotSt.bad (x.write_frame now line data be poison) :)

/-- A written slot holds the written bytes in the line, and its own elsewhere. -/
theorem SlotSt.getLsbD_write_data (b : Nat) :
    (x.write now line data be poison).data.getLsbD b = if b < 32768 ∧ b / 512 = line ∧ be.getLsbD (b % 512 / 8) = true then data.getLsbD (b % 512) else x.data.getLsbD b := by
  have hs : b % 512 < 8 * 64 := Nat.mod_lt b (by decide)
  rw [SlotSt.write_data, BitVec.getLsbD_or, BitVec.getLsbD_and, BitVec.getLsbD_and, BitVec.getLsbD_not, lineBits,
    getLsbD_ofNat_digit (by decide) (spread_lt 64 _), getLsbD_ofNat_digit (by decide) data.isLt, testBit_spread, BitVec.testBit_toNat, BitVec.testBit_toNat, decide_eq_true hs]
  by_cases hb : b < 32768
  · by_cases hl : b / 512 = line <;> cases be.getLsbD (b % 512 / 8) <;> simp [hb, hl]
  · rw [BitVec.getLsbD_of_ge x.data b (not_lt.mp hb)]
    simp [hb]

/-- A line written with poison becomes poisoned; a line written whole without poison loses it (R214, R255). -/
theorem SlotSt.getLsbD_write_poison {m : Nat} (hm : m < 64) :
    (x.write now line data be poison).poison.getLsbD m = if line = m ∧ (poison = true ∨ be = BitVec.allOnes 64) then poison else x.poison.getLsbD m := by
  rw [SlotSt.write_poison]
  cases poison with
  | true =>
    rw [if_pos rfl, getLsbD_setLine _ _ hm]
    by_cases hl : line = m <;> simp [hl]
  | false =>
    by_cases hb : be = BitVec.allOnes 64
    · rw [if_neg Bool.false_ne_true, if_pos hb, getLsbD_clearLine _ _ hm]
      by_cases hl : line = m <;> simp [hl, hb]
    · rw [if_neg Bool.false_ne_true, if_neg hb, if_neg fun h => Or.elim h.2 Bool.false_ne_true hb]

end

section
variable (x : SlotSt) (now : Nat) {line : Nat} (data : Line) (poison : Bool) (hl : line < 64)

theorem SlotSt.getLsbD_write_whole_data (b : Nat) :
    (x.write now line data (BitVec.allOnes 64) poison).data.getLsbD b = if b < 32768 ∧ b / 512 = line then data.getLsbD (b % 512) else x.data.getLsbD b := by
  rw [SlotSt.getLsbD_write_data, BitVec.getLsbD_allOnes, decide_eq_true (by omega)]
  simp only [and_true]

/-- A line of a slot after a line has been written whole. -/
theorem SlotSt.pageLine_write_whole {m : Nat} (hm : m < 64) :
    pageLine (x.write now line data (BitVec.allOnes 64) poison).data m = if m = line then data else pageLine x.data m := by
  refine BitVec.eq_of_getLsbD_eq fun i hi => ?_
  rw [getLsbD_pageLine, SlotSt.getLsbD_write_whole_data, show (512 * m + i) / 512 = m by omega, show (512 * m + i) % 512 = i by omega]
  by_cases h : m = line
  · rw [if_pos ⟨by omega, h⟩, if_pos h, decide_eq_true hi, Bool.true_and]
  · rw [if_neg (fun h' => h h'.2), if_neg h, getLsbD_pageLine]

include hl

theorem SlotSt.lineReady_write_whole : (x.write now line data (BitVec.allOnes 64) poison).lineReady line = true := by
  refine SlotSt.lineReady_of_written fun i hi => ?_
  rw [SlotSt.write_written, BitVec.getLsbD_or, getLsbD_lineMask, BitVec.getLsbD_allOnes, show (64 * line + i) / 64 = line by omega, show (64 * line + i) % 64 = i by omega,
    decide_eq_true (show 64 * line + i < 4096 by omega), decide_eq_true hi, decide_eq_true rfl, Bool.and_self, Bool.and_self, Bool.or_true]

theorem SlotSt.write_whole_bad : (x.write now line data (BitVec.allOnes 64) poison).bad.getLsbD line = false := by
  rw [SlotSt.write_bad, if_pos rfl, getLsbD_clearLine _ _ hl, decide_eq_true rfl, Bool.not_true, Bool.and_false]

end

/-- Settles O40: a whole line is all bytes of one line of the slot, and what completes the slot touches neither data nor poison. -/
theorem writtenLineReadsBack : Obligations.WrittenLineReadsBack := by
  intro x now line data poison hl
  refine ⟨x.lineReady_write_whole now data poison hl, ?_, ?_, x.write_whole_bad now data poison hl, fun m hm hne => ⟨?_, ?_⟩,
    x.write_hub .., x.write_part .., x.write_page .., x.write_snap ..⟩
  · rw [SlotSt.pageLine_write_whole _ _ _ _ hl, if_pos rfl]
  · rw [SlotSt.getLsbD_write_poison _ _ _ _ _ _ hl, if_pos ⟨rfl, .inr rfl⟩]
  · rw [SlotSt.pageLine_write_whole _ _ _ _ hm, if_neg hne]
  · rw [SlotSt.getLsbD_write_poison _ _ _ _ _ _ hm, if_neg fun h => hne h.1.symm]

end Sys2Proof.Machine
end

section
/-! PROOFS. Lens and compression (06_lens_compression): reads from an open slot, the events of merge slots, and moves home from the relocation area. -/

namespace Sys2Proof.Machine

/-! Reads that an open slot answers (R207, R235, R259). -/

section
variable {s : State} {p page : Nat} {x : SlotSt}

theorem State.fromFlash_of_slot (hx : s.slot p page = some x) : s.fromFlash p page = false := by
  rw [State.fromFlash, hx, Option.isNone_some, Bool.and_false]

/-- A line that is not marked for repair is served as it stands. -/
theorem State.checkLines_of_good {line : Nat} (hb : x.bad.getLsbD line = false) : s.checkLines x (BitVec.ofNat 64 (2 ^ line)) = (s, x) := by
  have h : x.bad &&& BitVec.ofNat 64 (2 ^ line) = 0 := by
    rw [show BitVec.ofNat 64 (2 ^ line) = BitVec.twoPow 64 line from BitVec.eq_of_toNat_eq (by rw [BitVec.toNat_ofNat, BitVec.toNat_twoPow]), BitVec.and_twoPow, hb]
    rfl
  rw [State.checkLines, if_pos h]

theorem State.hostData_of_linked {link : Nat} (h : s.linkGone link = false) (ld tag : Nat) (poison : Bool) (data : Line) (load : DevLoad) :
    s.hostData link ld tag poison data load = s.send (.cxlData link ld tag poison (if poison then 0 else data) load) := by
  rw [State.hostData, h, if_neg Bool.false_ne_true]

end

/-- The promotion that a host read of a flash-homed frame asks for, unless it was already held (R259). -/
def State.askForRead (s : State) (p f : Nat) (first : Bool) : State := if s.flashFrame p f = true ∧ first = true then s.demand p f else s

/-- A read of a page with an open slot, whose line is ready and good, is answered from the slot once its promotion has been asked for. -/
theorem State.serveRead_of_slot {s t : State} {r : HeldRead} {first : Bool} {x : SlotSt} (hb : s.shwBuf r.owner (r.addr / 4096) = none)
    (hx : s.slot r.owner (r.addr / 4096) = some x) (ht : s.askForRead r.owner (r.addr / 4096 / 16) first = t) (hbt : t.shwBuf r.owner (r.addr / 4096) = none)
    (hxt : t.slot r.owner (r.addr / 4096) = some x) (hr : x.lineReady (r.addr / 64 % 64) = true) (hg : x.bad.getLsbD (r.addr / 64 % 64) = false) :
    s.serveRead r first = t.hostData r.link r.ld r.tag (x.poison.getLsbD (r.addr / 64 % 64)) (pageLine x.data (r.addr / 64 % 64))
      (s.devLoad r.reqPart (hubOf (r.addr / 4096 / 16))) := by
  have hask : (if s.flashFrame r.owner (r.addr / 4096 / 16) && (s.shwBuf r.owner (r.addr / 4096)).isNone && (first || s.fromFlash r.owner (r.addr / 4096))
      then s.demand r.owner (r.addr / 4096 / 16) else s) = t := by
    rw [← ht, hb, State.fromFlash_of_slot hx]
    simp only [State.askForRead, Option.isNone_none, Bool.and_true, Bool.or_false, Bool.and_eq_true]
  simp only [State.serveRead, hask, hbt, hxt, hr, if_true, State.checkLines_of_good hg]

/-- Settles O41. That a first read of a flash-homed frame asks for its promotion also where a slot answers it is log 24's choice. -/
theorem openSlotServesReads : Obligations.OpenSlotServesReads := by
  intro s r first x hb hx t hbt hxt hr hg hl
  rw [State.serveRead_of_slot hb hx rfl hbt hxt hr hg]
  exact State.hostData_of_linked hl ..

/-! Fills, ages and encodes of slots (R206 to R208, R223). -/

section
variable {s : State} {p page : Nat} {x : SlotSt}

theorem State.fillSlot_of_slot (hx : s.slot p page = some x) :
    s.fillSlot p page = ((if x.filled = true then s else ((s.atLevel x.level).viewPage x.req p page).1).releaseReads
      (fun r => r.fill && r.owner == p && r.addr / 4096 == page)).flashReadEnd (fun r => r.part == p && r.page == page) := by
  simp only [State.fillSlot, hx]

/-- What a commit that took effect leaves of its slot: the Lens unit idle, the count, the slot free or FILLING again, and the flushes told (R209, R210, R213). -/
def State.commitDone (s : State) (x : SlotSt) : State :=
  (((s.clrB .lnsUStatus 0 x.unit).incEvt .lnsPCommits x.part).slotAfter x).flushSeen x.part x.page

/-- The commit of a slot with a snapshot: of a correction in place, or of content, which waits where it finds no room (R210, R220, R335). -/
theorem State.commitSlot_of_snap {d : Page} {po : BitVec 64} (hs : x.snap = some (d, po)) {c : State} (hc : (s.atLevel x.level).commitCorrection x = c) {r : State × Bool}
    (hr : (s.atLevel x.level).commitContent x.part x.page x.req x.unit d po = r) :
    s.commitSlot x = if x.corr = true then State.commitDone (if po = 0 then c.cleanPoison x.part x.page else c) x
      else if r.2 = true then (r.1.afterCommit x.part x.page d po false).commitDone x else r.1.setSlot { x with waitReloc := true } := by
  subst hc hr
  simp only [State.commitSlot, hs, State.commitDone]

theorem State.encodeStart_of_idle {h i : Nat} (hi : i < 8) (hu : s.rdB .lnsUStatus 0 (8 * h + i) = false)
    (hx : leastBy (fun (x : SlotSt) => (7 - x.level) * 2 ^ 64 + x.sealAt) (s.encodable h) = some x) :
    s.encodeStart h = ((s.takeUnit h).2.setB .lnsUStatus 0 (s.takeUnit h).1).snapshotSlot x (s.takeUnit h).1 := by
  have hidle : ¬ ((List.range 8).all (fun i => s.rdB .lnsUStatus 0 (8 * h + i)) = true) := fun ha => by
    rw [List.all_eq_true.mp ha i (List.mem_range.mpr hi)] at hu
    exact Bool.noConfusion hu
  rw [State.encodeStart, if_neg hidle]
  simp only [hx]

end

theorem execMergeFillArrive_of_slot {s : State} {p : PartId} {page : Nat} {x : SlotSt} (hx : s.slot p page = some x)
    (h : s.flashPage p page = false ∨ s.ftlDown (some (hubOf (page / 16))) = false) :
    execMergeFillArrive p page s = .next (((if x.filled = true then s else ((s.atLevel x.level).viewPage x.req p page).1).releaseReads
      (fun r => r.fill && r.owner == p && r.addr / 4096 == page)).flashReadEnd (fun r => r.part == p && r.page == page)) := by
  have hgo : ¬ ((s.flashPage p page && s.ftlDown (some (hubOf (page / 16)))) = true) := by
    rcases h with h | h <;> simp [h]
  rw [execMergeFillArrive, if_neg hgo, State.fillSlot_of_slot hx]

theorem execMergeAgeExpiry_of_filling {s : State} {p : PartId} {page : Nat} {x : SlotSt} (hx : s.slot p page = some x) (hf : x.state = .filling) :
    execMergeAgeExpiry p page s = .next ((s.reach (x.ageAt + 1000 * s.rdF .lnsMergeAge 0 10)).sealSlot x) := by
  simp only [execMergeAgeExpiry, hx, hf, if_true]

theorem execSlotCommit_of_encoding {s : State} {p : PartId} {page : Nat} {x : SlotSt} (hx : s.slot p page = some x) (he : x.state = .encoding) :
    execSlotCommit p page s = .next (s.commitSlot x) := by
  simp only [execSlotCommit, hx, he, if_true]

/-! Held writes, flushes and deferred write-backs (R212, R213, R336). -/

theorem State.releaseWrites_of_one {s : State} {h : Nat} {w : HeldWrite} (hw : s.lens.heldW = [w]) (hh : hubOf (w.addr / 65536) = h) :
    s.releaseWrites h = let t := (s.tryWrite w).1
      if (s.tryWrite w).2 = .held then t else { t with lens := { t.lens with heldW := t.lens.heldW.erase w } } := by
  simp only [State.releaseWrites, hw, hh, List.filter_cons, beq_self_eq_true, if_true, List.filter_nil, List.foldl_cons, List.foldl_nil]
  split
  next t ht => simp only [ht, if_true]
  next t r hr ht => simp only [ht, if_neg hr]

theorem State.partFlush_of_clear {s : State} {p : PartId} (h : s.rdB .lnsPFlushCtrl 0 p = false) :
    s.partFlush p = (s.setB .lnsPFlushCtrl 0 p).startFlush (.part p) (fun x => x.part == p.val) := by
  rw [State.partFlush, h, if_neg Bool.false_ne_true, Fin.ofNat_val_eq_self]

theorem execDeferredWritebackOpen_of_free {s : State} {h : HubId} {p page : Nat} {l : List (Nat × Nat × Nat)} (hf : s.slotsFree h ≠ 0) (hl : s.lens.wb = (h.val, p, page) :: l) :
    execDeferredWritebackOpen h s = .next ({ s with lens := { s.lens with wb := l } }.readPage reqScrub p page true true).1 := by
  have ht : takeFirst (fun (x : Nat × Nat × Nat) => x.1 == h.val) s.lens.wb = some ((h.val, p, page), l) := by
    rw [hl]
    exact if_pos (beq_self_eq_true h.val)
  simp only [execDeferredWritebackOpen, if_neg hf, ht]

/-! Flip masks (R348). -/

/-- A unit whose mask is no Lens mask, or one of the sixteen Lens units in the hubs, has a flip. -/
theorem flipReg_hasFlip {u : FlipUnit} (hu : ∀ n : Fin 48, u = .lens n → n.val < 16) : ((flipReg u).1 == .lnsUFlipMask && decide (16 ≤ (flipReg u).2)) = false := by
  cases u with
  | lens n => exact decide_eq_false (Nat.not_le.mpr (hu n rfl))
  | lpc c => rfl
  | hbc k => rfl
  | flc f => rfl

theorem execFlipArm_enabled {s : State} {u : FlipUnit} (he : s.rdB .eccCtrl 0 = true) (hu : ∀ n : Fin 48, u = .lens n → n.val < 16) :
    execFlipArm u s = .next (s.wrB (flipReg u).1 63 true (flipReg u).2) := by
  simp only [execFlipArm, he, Bool.not_true, Bool.false_or, flipReg_hasFlip hu, Bool.false_eq_true, if_false]

theorem execFlipArm_disabled {s : State} (he : s.rdB .eccCtrl 0 = false) (u : FlipUnit) : execFlipArm u s = .next s := by
  simp only [execFlipArm, he, Bool.not_false, Bool.true_or, if_true]

/-! Event records write no register but their own and LNK_STATUS: an MSI-X message wakes its link (R127). -/

/-- The register file stays canonical, and every register but LNK_STATUS keeps its word. -/
structure WritesLnkStatusOnly (s t : State) : Prop where
  wf : t.regs.wf = true
  rd : ∀ m : RegName, m ≠ .lnkStatus → ∀ i j, t.rd m i j = s.rd m i j

section
variable {s t : State}

theorem WritesLnkStatusOnly.refl (h : s.regs.wf = true) : WritesLnkStatusOnly s s := ⟨h, fun _ _ _ _ => rfl⟩

theorem WritesLnkStatusOnly.leaveL1 (h : WritesLnkStatusOnly s t) (k : Nat) : WritesLnkStatusOnly s (t.leaveL1 k) := by
  simp only [State.leaveL1]
  split
  · exact h
  · exact ⟨State.wrF_regs_wf h.wf .., fun m hm i j => (State.rd_wrF_name h.wf hm ..).trans (h.rd m hm i j)⟩

theorem WritesLnkStatusOnly.msix (h : WritesLnkStatusOnly s t) (k ld vec : Nat) : WritesLnkStatusOnly s (t.msix k ld vec) := by
  simp only [State.msix]
  split
  · exact ⟨(h.leaveL1 k).wf, (h.leaveL1 k).rd⟩
  · exact ⟨h.wf, h.rd⟩

theorem WritesLnkStatusOnly.logLd (h : WritesLnkStatusOnly s t) (k ld : Nat) (r : EvRec) : WritesLnkStatusOnly s (t.logLd k ld r) := by
  have hl (x : LdSt) : WritesLnkStatusOnly s (t.setLd k ld x) := ⟨h.wf, h.rd⟩
  simp only [State.logLd]
  split
  · exact (hl _).msix ..
  · exact hl _

theorem WritesLnkStatusOnly.raise (h : s.regs.wf = true) (r : EvRec) : WritesLnkStatusOnly s (s.raise r) := by
  have h0 (e : EvSt) : WritesLnkStatusOnly s { s with ev := e } := ⟨h, fun _ _ _ _ => rfl⟩
  simp only [State.raise]
  split
  · exact h0 _
  · exact foldl_inv (fun _ d hb => hb.logLd d.1 d.2 _) _ (h0 _)

theorem State.event_regs_wf (h : s.regs.wf = true) (r : EvRec) (i : Nat) : (s.event r i).regs.wf = true :=
  (WritesLnkStatusOnly.raise (State.wrB_regs_wf h r.reg r.bit true i 0) r).wf

/-- An event leaves every register alone but the one that it sets a bit of, and LNK_STATUS. -/
theorem State.rd_event (h : s.regs.wf = true) (r : EvRec) {m : RegName} (hl : m ≠ .lnkStatus) (hm : m ≠ r.reg) (i a b : Nat) : (s.event r i).rd m a b = s.rd m a b :=
  ((WritesLnkStatusOnly.raise (State.wrB_regs_wf h r.reg r.bit true i 0) r).rd m hl a b).trans (State.rd_setB_name h hm ..)

end

/-! Watermarks (R226). -/

/-- The percentage that a field of a watermark write asks for: 0 and what lies above 100 stand for 100. -/
def watermarkOf (val i : Nat) : Nat :=
  let v := val / 2 ^ (8 * i) % 256
  if v = 0 ∨ 100 < v then 100 else v

theorem watermarkOf_lt (val i : Nat) : watermarkOf val i < 2 ^ 8 := by
  unfold watermarkOf
  dsimp only
  split <;> omega

/-- One field of a watermark write, with the partition's debt and its cap as the write met them. -/
def State.putWatermark (p val cap debt : Nat) (s : State) (i : Nat) : State :=
  let v := watermarkOf val i
  if v = s.rdF .lnsPWatermark (8 * i) 8 p then s else
  let s := s.wrF .lnsPWatermark (8 * i) 8 v p
  let d := s.part p
  let told := d.wmTold / 2 ^ i % 2 == 1
  if 0 < cap ∧ v * cap ≤ 100 * debt then
    (s.setPart p { d with wmTold := if told then d.wmTold else d.wmTold + 2 ^ i }).event { reg := .lnsPEvent, bit := i, part := some p, value := debt } p
  else s.setPart p { d with wmTold := if told then d.wmTold - 2 ^ i else d.wmTold }

theorem State.writeWatermark_eq (s : State) (p val : Nat) : s.writeWatermark p val = (List.range 3).foldl (State.putWatermark p val (s.debtCap p) (s.debt p)) s := rfl

section
variable {s : State} (h : s.regs.wf = true) (p val cap debt i : Nat)
include h

/-- A changed field is written; what is told of it goes to the partition's entry and to the event records. -/
theorem State.putWatermark_word (hne : watermarkOf val i ≠ s.rdF .lnsPWatermark (8 * i) 8 p) :
    (s.putWatermark p val cap debt i).regs.wf = true ∧
      (s.putWatermark p val cap debt i).rd .lnsPWatermark p = (s.wrF .lnsPWatermark (8 * i) 8 (watermarkOf val i) p).rd .lnsPWatermark p := by
  have hw := State.wrF_regs_wf h .lnsPWatermark (8 * i) 8 (watermarkOf val i) p 0
  have hp (d : PartSt) : ((s.wrF .lnsPWatermark (8 * i) 8 (watermarkOf val i) p).setPart p d).regs.wf = true := hw
  rw [State.putWatermark, if_neg hne]
  dsimp only
  split
  · exact ⟨State.event_regs_wf (hp _) .., State.rd_event (hp _) _ (by decide) (show RegName.lnsPWatermark ≠ .lnsPEvent by decide) ..⟩
  · exact ⟨hw, rfl⟩

theorem State.putWatermark_regs_wf : (s.putWatermark p val cap debt i).regs.wf = true := by
  by_cases hne : watermarkOf val i = s.rdF .lnsPWatermark (8 * i) 8 p
  · rw [State.putWatermark, if_pos hne]
    exact h
  · exact (State.putWatermark_word h p val cap debt i hne).1

theorem State.rdF_putWatermark_self (hi : i < 3) : (s.putWatermark p val cap debt i).rdF .lnsPWatermark (8 * i) 8 p = watermarkOf val i := by
  by_cases hne : watermarkOf val i = s.rdF .lnsPWatermark (8 * i) 8 p
  · rw [State.putWatermark, if_pos hne, ← hne]
  · rw [State.rdF, (State.putWatermark_word h p val cap debt i hne).2, ← State.rdF, State.rdF_wrF_self h _ _ _ _ _ _ (by omega), Nat.mod_eq_of_lt (watermarkOf_lt val i)]

theorem State.rdF_putWatermark_other {k : Nat} (hk : k < i) (hi : i < 3) : (s.putWatermark p val cap debt i).rdF .lnsPWatermark (8 * k) 8 p = s.rdF .lnsPWatermark (8 * k) 8 p := by
  by_cases hne : watermarkOf val i = s.rdF .lnsPWatermark (8 * i) 8 p
  · rw [State.putWatermark, if_pos hne]
  · rw [State.rdF, (State.putWatermark_word h p val cap debt i hne).2, ← State.rdF, State.rdF_wrF_field h _ _ _ _ _ _ _ _ (by omega) (by omega)]

/-- The fields below `n` read as written once they have been gone through. -/
theorem State.rdF_putWatermarks : ∀ n ≤ 3, let t := (List.range n).foldl (State.putWatermark p val cap debt) s
    t.regs.wf = true ∧ ∀ k < n, t.rdF .lnsPWatermark (8 * k) 8 p = watermarkOf val k
  | 0, _ => ⟨h, nofun⟩
  | n + 1, hn => by
    obtain ⟨hw, ih⟩ := State.rdF_putWatermarks n (by omega)
    rw [List.range_succ, List.foldl_append, List.foldl_cons, List.foldl_nil]
    refine ⟨State.putWatermark_regs_wf hw .., fun k hk => ?_⟩
    rcases Nat.lt_succ_iff_lt_or_eq.mp hk with hlt | rfl
    · exact (State.rdF_putWatermark_other hw p val cap debt n hlt (by omega)).trans (ih k hlt)
    · exact State.rdF_putWatermark_self hw p val cap debt k (by omega)

end

theorem State.rdF_writeWatermark {s : State} (h : s.regs.wf = true) (p val : Nat) {i : Nat} (hi : i < 3) :
    (s.writeWatermark p val).rdF .lnsPWatermark (8 * i) 8 p = watermarkOf val i := by
  rw [State.writeWatermark_eq]
  exact (State.rdF_putWatermarks h p val _ _ 3 le_rfl).2 i hi

/-- Settles O43, clause by clause. That a held write is tried again in arrival order is log 25's choice. -/
theorem mergeSlotEvents : Obligations.MergeSlotEvents := by
  exact ⟨fun s p page x hx => ⟨execMergeFillArrive_of_slot hx, execMergeAgeExpiry_of_filling hx,
      fun he d po hs => (execSlotCommit_of_encoding hx he).trans (congrArg Host.Outcome.next (State.commitSlot_of_snap hs rfl rfl))⟩,
    fun s h x i hi hu hx => congrArg Host.Outcome.next (State.encodeStart_of_idle hi hu hx),
    fun s h w hw hh => congrArg Host.Outcome.next (State.releaseWrites_of_one hw hh),
    fun s p hc => congrArg Host.Outcome.next (State.partFlush_of_clear hc),
    fun s h p page l => execDeferredWritebackOpen_of_free,
    fun s u => ⟨execFlipArm_enabled, fun he => execFlipArm_disabled he u, rfl⟩,
    fun s p val hs => ⟨s.writeWatermark p val.toNat, rfl, fun i hi => State.rdF_writeWatermark hs.regs p val.toNat hi⟩⟩

/-! Frames in the relocation area (R220, R246). -/

section
variable {s : State} {p f : Nat}

theorem State.moveHome_of_home (h : (s.frame p f).reloc = false ∨ (s.frame p f).hasRun = false) : s.moveHome p f = s := by
  have hn : (!(s.frame p f).reloc || !(s.frame p f).hasRun) = true := by
    rcases h with h | h <;> simp [h]
  simp only [State.moveHome, hn, if_true]

/-- The move home of a frame of partition `p`, before it has a destination. -/
def homeMove (p f : Nat) (e : FrameSt) : Move := { part := p, frame := f, cls := 1, kind := .goHome, target := e.home }

theorem State.moveHome_of_room {t u : State} {d h b : Nat} {e : FrameSt} (he : s.frame p f = e) (hr : e.reloc = true) (hn : e.hasRun = true)
    (hd : s.moveDest (homeMove p f e) e = .at_ t d h)
    (hb : t.newBase d h (e.freshAllots.foldl (fun x y => x + y) 0 + tailSectors (t.strength d)) = (b, u)) {r : Copied} (hc : u.copyPages p f e (u.homeCopy e) false = r) (hok : r.bad = none) :
    s.moveHome p f = (r.s.commitMove { homeMove p f e with running := true, destTier := d, destBase := b, destAllot := e.freshAllots } e r.pages).excess p := by
  unfold homeMove at hd ⊢
  simp only [State.moveHome, he, hr, hn, Bool.not_true, Bool.or_self, Bool.false_eq_true, if_false, hd, hb, hc, hok]

end

/-- Settles O46, by the two branches of the move home: nothing to move, and room with readable pages. -/
theorem relocatedFramesMoveHome : Obligations.RelocatedFramesMoveHome := by
  intro s p f e
  exact ⟨fun h => congrArg Host.Outcome.next (State.moveHome_of_home h),
    fun hr hn t d h hd hok => congrArg Host.Outcome.next (State.moveHome_of_room rfl hr hn hd rfl rfl hok)⟩

end Sys2Proof.Machine
end

section
/-! PROOFS. Tiers (07_tiers): heat counters, tier hints of descriptors, and the events of the tier manager. -/

namespace Sys2Proof.Machine

/-! Heat (R239 to R241). -/

section
variable {h : List Nat} {k : Nat}

theorem heatTouch_of_low (hv : h.getD k 0 < 254) : heatTouch h k = h.set k (h.getD k 0 + 1) := by
  have hm : min 255 (h.getD k 0 + 1) = h.getD k 0 + 1 := by omega
  rw [heatTouch, hm]
  exact if_neg (by omega)

/-- The counter reaches 255, or stands there: the touched counter and the fifteen others halve. -/
theorem heatTouch_of_full (hv : 254 ≤ h.getD k 0) : heatTouch h k = (h.set k 255).map (· / 2) := by
  have hm : min 255 (h.getD k 0 + 1) = 255 := by omega
  rw [heatTouch, hm]
  exact if_pos rfl

@[simp] theorem length_heatTouch (h : List Nat) (k : Nat) : (heatTouch h k).length = h.length := by
  rcases Nat.lt_or_ge (h.getD k 0) 254 with hv | hv
  · rw [heatTouch_of_low hv, List.length_set]
  · rw [heatTouch_of_full hv, List.length_map, List.length_set]

theorem getD_heatTouch_of_full (hk : k < h.length) (hv : 254 ≤ h.getD k 0) : (heatTouch h k).getD k 0 = 127 := by
  rw [heatTouch_of_full hv, List.getD_eq_getElem _ _ (by simpa using hk), List.getElem_map, List.getElem_set_self]

theorem heatTouch_le (hb : ∀ x ∈ h, x ≤ 255) : ∀ x ∈ heatTouch h k, x ≤ 255 := by
  have hset {v : Nat} (hv : v ≤ 255) : ∀ x ∈ h.set k v, x ≤ 255 := fun x hx =>
    (List.mem_or_eq_of_mem_set hx).elim (hb x) (fun he => he ▸ hv)
  rcases Nat.lt_or_ge (h.getD k 0) 254 with hv | hv
  · rw [heatTouch_of_low hv]
    exact hset (by omega)
  · rw [heatTouch_of_full hv]
    intro x hx
    obtain ⟨y, hy, rfl⟩ := List.mem_map.mp hx
    exact (Nat.div_le_self y 2).trans (hset le_rfl y hy)

end

/-- Settles O44: a touch halves the counters exactly where the touched one stood at 254 or 255. -/
theorem heatCountersHalveTogether : Obligations.HeatCountersHalveTogether := by
  intro h k hl hk hb v
  have hv : v = if h.getD k 0 < 255 then h.getD k 0 + 1 else h.getD k 0 := rfl
  refine ⟨fun hlow => ?_, fun hfull => ?_, (length_heatTouch h k).trans hl, heatTouch_le hb⟩
  · have hd : h.getD k 0 < 254 ∧ v = h.getD k 0 + 1 := by split at hv <;> omega
    rw [hd.2, heatTouch_of_low hd.1]
  · have hd : 254 ≤ h.getD k 0 := by split at hv <;> omega
    exact ⟨heatTouch_of_full hd, getD_heatTouch_of_full (by omega) hd⟩

/-! Hints of descriptors (R252, R253, R467). -/

section
variable {s : State} {q n p : Nat} {d : DescSt}

/-- A descriptor's bytes do not tell whether it has started. -/
@[simp] theorem DescSt.fld_started (d : DescSt) (t off len : Nat) : ({ d with started := true, startAt := t } : DescSt).fld off len = d.fld off len := rfl

theorem State.startDesc_of_starts (h : descStarts s q n p d) {types : Nat → Bool} (ht : types (d.fld 0 1) = true) :
    s.startDesc q n types = some (p, withStarted s q d, some { d with started := true, startAt := s.time }) := by
  obtain ⟨ho, hd, hm, hh, hf⟩ := h
  simp only [State.startDesc, ho, hd, ht, hm, hh, Bool.not_true, Bool.or_self, Bool.false_eq_true, if_false, hf, withStarted]

/-- A hint that starts acts on its frames one after another, and then ends where nothing is left to wait for. -/
theorem State.hintRun_of_starts (h : descStarts s q n p d) (ht : d.fld 0 1 = 4) {kind : Nat} (hk : d.fld 0x20 1 = kind) {act : State → Nat → Nat → Nat → State} {u : State}
    (hu : (spanFrames (d.fld 0x10 8) (d.fld 0x18 8)).foldl (fun t f => act t p f (d.fld 0x21 1)) (withStarted s q d) = u)
    {e : DescSt} (he : u.desc q n = some e) (hr : e.raw = d.raw) : s.hintRun q n kind act = u.hintEnd q e := by
  have hfld (off len : Nat) : e.fld off len = d.fld off len := congrArg (fieldOf · off len) hr
  have hstart : s.startDesc q n (· == 4) = some (p, withStarted s q d, some { d with started := true, startAt := s.time }) :=
    State.startDesc_of_starts h (by rw [ht]; rfl)
  have hsame : ¬ (d.fld 0 1 = 4 ∧ d.fld 0x20 1 ≠ kind ∧ (!decide (3 < d.fld 0x20 1)) = true) := fun hn => hn.2.1 hk
  have hend : e.fld 0 1 = 4 ∧ e.fld 0x20 1 = kind := ⟨(hfld ..).trans ht, (hfld ..).trans hk⟩
  simp only [State.hintRun, h.2.1, if_neg hsame, hstart, DescSt.fld_started, hu, he, if_pos hend]

end

section
variable {s : State} {q : QueueId} {n p : Nat} {d : DescSt}

/-- A pin that fits runs as every other hint does (R253). -/
theorem execHintPin_of_fits (ho : s.queueOwner q = some p) (hd : s.desc q n = some d) (hfit : s.pinFits p (d.fld 0x10 8) (d.fld 0x18 8) (d.fld 0x21 1) = true) :
    execHintPin q n s = .next (s.hintRun q n 1 (fun t p f lv => t.pinFrame p f lv (q, n))) := by
  simp only [execHintPin, ho, hd, hfit, Bool.not_true, Bool.false_eq_true, and_false, if_false]

theorem execHintPin_of_unfit (h : descStarts s q n p d) (ht : d.fld 0 1 = 4) (hk : d.fld 0x20 1 = 1)
    (hfit : s.pinFits p (d.fld 0x10 8) (d.fld 0x18 8) (d.fld 0x21 1) = false) (hf : s.descFails p d = []) :
    execHintPin q n s = .next ((withStarted s q d).endDesc q { d with started := true, startAt := s.time } stNospace 0) := by
  have hstart : s.startDesc q n (· == 4) = some (p, withStarted s q d, some { d with started := true, startAt := s.time }) :=
    State.startDesc_of_starts h (by rw [ht]; rfl)
  obtain ⟨ho, hd, hm, -, -⟩ := h
  simp only [execHintPin, ho, hd, ht, hk, hm, hf, hfit, List.isEmpty_nil, Bool.not_false, and_self, if_true, hstart]

end

/-- Settles O33. Each kind of hint is one run over the frames of its span; a pin looks at the quotas first. That a hint ends by its own row once no move that it asked for is left,
and that it asks for each frame of its span in address order, are choices of logs 39 and 68. -/
theorem hintsActOnTheirFrames : Obligations.HintsActOnTheirFrames := by
  intro s q n p d h ht t frames lv ends
  exact ⟨fun hk e he hr => congrArg Host.Outcome.next (State.hintRun_of_starts h ht hk rfl he hr),
    fun hk hfit e he hr => (execHintPin_of_fits h.1 h.2.1 hfit).trans (congrArg Host.Outcome.next (State.hintRun_of_starts h ht hk rfl he hr)),
    execHintPin_of_unfit h ht,
    fun hk e he hr => congrArg Host.Outcome.next (State.hintRun_of_starts h ht hk rfl he hr),
    fun hk e he hr => congrArg Host.Outcome.next (State.hintRun_of_starts h ht hk rfl he hr)⟩

/-! Aging and sweeps (R241, R242). -/

section
variable {s : State}

theorem execAgingEpoch_of_off (h : s.hubsOff = true) : execAgingEpoch s = .next s := by
  rw [execAgingEpoch, if_pos h]

theorem execAgingEpoch_of_powered (h : s.hubsOff = false) {t : State} (ht : s.reach (s.tier.epochAt + 1000000 * s.rdF .tirAgeEpoch 0 10) = t) :
    execAgingEpoch s = .next (({ t with tier := { t.tier with epochAt := t.time } } : State).wr .tirEpochNow (s.rd .tirEpochNow + 1)) := by
  subst ht
  rw [execAgingEpoch, h, if_neg Bool.false_ne_true]
  rfl

end

section
variable {s : State} {p : PartId} {f : Nat}

theorem execSweeperVisit_of_zero (hf : f < 2 ^ 31) (h : (s.frame p f).state = .zero) : execSweeperVisit p f s = .next s := by
  simp only [execSweeperVisit, Nat.mod_eq_of_lt hf, h, if_true]

/-- The sweep visits an entry with its counters brought up to date. -/
def State.sweepUpdate (s : State) (p f : Nat) : State :=
  let u := (s.sweepPass p f).mapAccess p f
  u.setFrame p f (u.aged (u.frame p f))

theorem execSweeperVisit_of_unqueued (hf : f < 2 ^ 31) (h : (s.frame p f).state ≠ .zero) (hm : (s.sweepUpdate p f).moveOf p f false = none) :
    execSweeperVisit p f s = .next ((((s.sweepUpdate p f).sweepFrame p f).excess p).checkBudget) := by
  unfold State.sweepUpdate at hm ⊢
  simp only [execSweeperVisit, Nat.mod_eq_of_lt hf, if_neg h, hm]

end

/-! Moves (R251, R254, R257). -/

section
variable {s : State} {p f : Nat} {m : Move}

theorem State.copyDone_of_closedArray (hm : s.moveOf p f true = some m) (hk : m.kind ≠ .replDown) (hd : m.destTier = 2) (hopen : (s.moveLevel m).halfOpen 2 0 = false) :
    s.copyDone p f = ((s.moveLevel m).abortMove p f).declineServed m := by
  have hclosed : m.destTier = 2 ∧ (!(s.moveLevel m).halfOpen 2 0) = true := ⟨hd, by rw [hopen]; rfl⟩
  simp only [State.copyDone, hm, if_neg hk, if_pos hclosed]

theorem State.copyDone_of_readable (hm : s.moveOf p f true = some m) (hk : m.kind ≠ .replDown) {u : State} (hu : s.moveLevel m = u)
    (hopen : m.destTier ≠ 2 ∨ u.halfOpen 2 0 = true) {r : Copied} (hr : u.copyPages p f (u.frame p f) (u.homeCopy (u.frame p f)) false = r) (hok : r.bad = none) :
    s.copyDone p f = r.s.commitMove m (u.frame p f) r.pages := by
  have hlands : ¬ (m.destTier = 2 ∧ (!u.halfOpen 2 0) = true) := fun ⟨hd, hn⟩ => by
    rcases hopen with ho | ho
    · exact ho hd
    · rw [ho] at hn
      exact Bool.noConfusion hn
  simp only [State.copyDone, hm, if_neg hk, hu, if_neg hlands, hr, hok]

end

theorem execMoveCopyDone_of_lt {f : Nat} (hf : f < 2 ^ 31) (p : PartId) (s : State) : execMoveCopyDone p f s = .next ((s.copyDone p f).serveMoved p f) := by
  rw [execMoveCopyDone, Nat.mod_eq_of_lt hf]

theorem execMoveStart_of_room {s : State} {h : HubId} {m : Move} (ha : s.migActive h < 256) (hn : s.nightBound = false) (hh : s.hubHot h = false)
    (hd : s.ftlDown (some h.val) = false) (hm : s.nextMove h = some m) : execMoveStart h s = .next (s.startMove m) := by
  have hgo : ¬ (256 ≤ s.migActive h ∨ s.ftlDown (some h.val) = true ∨ s.nightBound = true ∨ s.hubHot h = true) := by
    simp only [hd, hn, hh, Bool.false_eq_true, or_self, or_false]
    omega
  simp only [execMoveStart, if_neg hgo, hm]

/-! Reads held for flash (R259 to R261). -/

/-- What a page's arrival serves stands in the staging buffer only where the page must come from flash. -/
theorem State.flashArrive_eq (s : State) (p page : Nat) :
    let held (r : HeldRead) : Bool := !r.fill && r.owner == p && r.addr / 4096 == page
    let done (t : State) : State := t.flashReadEnd (fun r => r.part == p && r.page == page)
    s.flashArrive p page = if s.fromFlash p page = true
      then done (({ s with tier := { s.tier with staged := s.tier.staged ++ [stageKey p page] } }.releaseReads held).unstage p page) else done (s.releaseReads held) := by
  rw [State.flashArrive]
  cases s.fromFlash p page <;> rfl

section
variable {s : State}

theorem execFlashReadDataArrive_of_running {p : PartId} {page : Nat} (h : s.ftlDown (some (hubOf (page / 16))) = false) :
    execFlashReadDataArrive p page s = .next (s.flashArrive p page) := by
  rw [execFlashReadDataArrive, h, if_neg Bool.false_ne_true]

/-- The ceiling ends the hold of the first read of the link's tag that waits for flash (R260; log 24 for one that waits for a fill). -/
theorem execDeepMissExpiry_of_held {link : LinkId} {tag : Nat} {r : HeldRead} {l : List HeldRead} (hr : s.tier.heldR = r :: l) (hl : r.link = link) (ht : r.tag = tag)
    (hw : r.fill = false ∨ (s.frame r.owner (r.addr / 65536)).home = 2) :
    execDeepMissExpiry link tag s = .next (({ s with tier := { s.tier with heldR := l } }.reach (r.at_ + s.ceiling r.reqPart)).deepMiss r) := by
  have hit : (r.link == link.val && r.tag == tag && (!r.fill || (s.frame r.owner (r.addr / 65536)).home == 2)) = true := by
    rw [hl, ht, beq_self_eq_true, beq_self_eq_true]
    rcases hw with hw | hw <;> simp [hw]
  have hfirst : takeFirst (fun (x : HeldRead) => x.link == link.val && x.tag == tag && (!x.fill || (s.frame x.owner (x.addr / 65536)).home == 2)) s.tier.heldR = some (r, l) := by
    rw [hr]
    exact if_pos hit
  simp only [execDeepMissExpiry, hfirst]

end

/-! Map reads (R266, R268). -/

section
variable {s : State} {p f : Nat} (hp : fld (s.rd .tirMapAddr) 60 4 = p) (hf : fld (s.rd .tirMapAddr) 16 31 = f)
include hp hf

theorem State.readMap_of_outside (h : s.apparent p ≤ f * 65536) : s.readMap = s.wr .tirMapStat (BitVec.ofNat 64 (256 * stRange)) := by
  simp only [State.readMap, hp, hf, if_pos h]

/-- A ZERO entry that stands in the cache is read as it stands, and VALID, CACHED and DONE are reported. -/
theorem State.readMap_of_cachedZero (h : f * 65536 < s.apparent p) {e : FrameSt} (he : s.frame p f = e) (hz : e.state = .zero) (hb : e.mapBad = 0) (hc : s.mapCached p f = true) :
    s.readMap = ((List.range 16).foldl (fun (u : State) i =>
      u.wr .tirMapData (BitVec.ofNat 64 (e.entryWord p ((s.setFrame p f e).shadowed p f) / 2 ^ (32 * i) % 2 ^ 32)) i) (s.setFrame p f e)).wr .tirMapStat 3 := by
  have hin : ¬ s.apparent p ≤ f * 65536 := Nat.not_le.mpr h
  simp only [State.readMap, hp, hf, if_neg hin, he, hz, hb, hc, if_true, OfNat.zero_ne_ofNat, zero_ne_one, false_and, if_false]
  rfl

end

/-- Settles O45, clause by clause. Three readings are the model's: that a command which reports the end of a period moves module time to that end (log 2), that a read which waits for a fill from flash has the same ceiling (log 24),
and that VALID of a map read is set only together with DONE (log 53). -/
theorem tierManagerEvents : Obligations.TierManagerEvents := by
  refine ⟨fun s => ⟨fun h => execAgingEpoch_of_powered h rfl, execAgingEpoch_of_off⟩, fun _ _ => rfl,
    fun s p f hf => ⟨execSweeperVisit_of_zero hf, execSweeperVisit_of_unqueued hf, ?copy⟩,
    fun s h m => execMoveStart_of_room, fun s p page h => ?arrive, fun s link tag r l => execDeepMissExpiry_of_held,
    fun s h => congrArg Host.Outcome.next (State.readMap_of_outside rfl rfl h),
    fun s hin hz hb hc => congrArg Host.Outcome.next (State.readMap_of_cachedZero rfl rfl hin rfl hz hb hc)⟩
  case copy =>
    intro m hm hk
    have served {t : State} (h : s.copyDone p f = t) : execMoveCopyDone p f s = .next (t.serveMoved p f) := h ▸ execMoveCopyDone_of_lt hf p s
    exact ⟨fun hd ho => served (State.copyDone_of_closedArray hm hk hd ho), fun ho hok => served (State.copyDone_of_readable hm hk rfl ho rfl hok)⟩
  case arrive =>
    exact (execFlashReadDataArrive_of_running h).trans (congrArg Host.Outcome.next (State.flashArrive_eq s p page))

end Sys2Proof.Machine
end

section
/-! PROOFS. DRAM and HBM (08_dram_hbm): training probes, refresh, Rowhammer windows, rebuilds onto a spare channel, and the ends of gather windows. -/

namespace Sys2Proof.Machine

/-! Training probes (R287). -/

section
variable (l : LaneSt) {x : LaneMove}

theorem LaneSt.drifted_iff : l.drifted = true ↔ 8 < l.readDrift.natAbs ∨ 8 < l.writeDrift.natAbs := by
  rw [LaneSt.drifted, Bool.or_eq_true, decide_eq_true_eq, decide_eq_true_eq]

theorem LaneSt.shift_of_read (h : x.write = false) :
    l.shift x = { l with readDelay := if x.up then l.readDelay + 1 else l.readDelay - 1, readDrift := l.readDrift + (if x.up then 1 else -1) } := by
  rw [LaneSt.shift, h]
  rfl

theorem LaneSt.shift_of_write (h : x.write = true) :
    l.shift x = { l with writeDelay := if x.up then l.writeDelay + 1 else l.writeDelay - 1, writeDrift := l.writeDrift + (if x.up then 1 else -1) } := by
  rw [LaneSt.shift, h]
  rfl

end

/-- The probe of a controller falls due, 100 ms after the one before it. -/
def State.probe (s : State) (k : Nat) : State :=
  let t := s.reach (Store.get 0 k s.dram.probeAt + 100000000)
  { t with dram := { t.dram with probeAt := Store.set 0 k t.time t.dram.probeAt } }

/-- One lane of a controller is replaced. -/
def State.setLane (s : State) (k n : Nat) (l : LaneSt) : State :=
  { s with dram := { s.dram with lanes := Store.set [] k ((Store.get [] k s.dram.lanes).set n l) s.dram.lanes } }

/-- The event comes with the shift that takes the lane out of its 8 taps, and not with the shifts after it. -/
theorem State.shiftLane_of_lane {s : State} {k : Nat} {x : LaneMove} {l : LaneSt} (hl : (Store.get [] k s.dram.lanes)[x.lane]? = some l) :
    s.shiftLane k x = if (l.shift x).drifted = true ∧ l.drifted = false
      then (s.setLane k x.lane (l.shift x)).event { reg := if 64 ≤ k then .hbcEvent else .lpcEvent, bit := 5, addr := k % 64, value := x.lane }
      else s.setLane k x.lane (l.shift x) := by
  simp only [State.shiftLane, hl, Bool.and_eq_true, Bool.not_eq_true', State.setLane]

/-- A probe shifts the lanes whose edges moved, and then saves its results where some did and the last save is 10 s old. -/
theorem execTrainingProbe_of_shifted {m : MemCtrl} {moves : List LaneMove} {s w : State}
    (hw : moves.foldl (fun (t : State) x => t.shiftLane (ctrlId m) x) (s.probe (ctrlId m)) = w) :
    execTrainingProbe m moves s =
      .next (if moves.isEmpty = true ∨ w.time < Store.get 0 (ctrlId m) w.dram.savedAt + 10000000000 then w else w.saveLanes (ctrlId m)) := by
  subst hw
  rfl

theorem execTrainingProbe_nil (m : MemCtrl) (s : State) : execTrainingProbe m [] s = .next (s.probe (ctrlId m)) :=
  (execTrainingProbe_of_shifted rfl).trans (congrArg Host.Outcome.next (if_pos (.inl rfl)))

theorem execTrainingProbe_one {m : MemCtrl} {s w : State} {x : LaneMove} (hw : (s.probe (ctrlId m)).shiftLane (ctrlId m) x = w) :
    execTrainingProbe m [x] s = .next (if w.time < Store.get 0 (ctrlId m) w.dram.savedAt + 10000000000 then w else w.saveLanes (ctrlId m)) := by
  rw [execTrainingProbe_of_shifted (moves := [x]) hw]
  simp only [List.isEmpty_cons, Bool.false_eq_true, false_or]

/-! Refresh (R288, R498). -/

theorem ctrlPick_of_refresh {q : List CtrlReq} {i : Nat} (h : q.findIdx? (·.refresh) = some i) (hit : CtrlReq → Bool) (n : Nat) : ctrlPick hit n q = some (i, false) := by
  simp only [ctrlPick, h]

@[simp] theorem ctrlPick_nil (hit : CtrlReq → Bool) (n : Nat) : ctrlPick hit n [] = none := rfl

section
variable {s : State} {k : Nat}

theorem State.ctrlServe_of_empty (h : Store.get [] k s.dram.queue = []) (n : Nat) : s.ctrlServe k n = s := by
  cases n with
  | zero => rfl
  | succ n => simp only [State.ctrlServe, h, ctrlPick_nil]

/-- A refresh that stands in the queue is the next request served: it closes its bank and is noted for it, and the run of row hits ends. -/
theorem State.ctrlServe_of_refresh {q : List CtrlReq} (hq : Store.get [] k s.dram.queue = q) {i : Nat} {r : CtrlReq} (hi : q.findIdx? (·.refresh) = some i)
    (hr : q[i]? = some r) (hf : r.refresh = true) (n : Nat) :
    s.ctrlServe k (n + 1) = ({ s with dram := { s.dram with
      queue := Store.set [] k (q.eraseIdx i) s.dram.queue, rowHits := Store.set 0 k 0 s.dram.rowHits,
      openRow := Store.set none r.bank none s.dram.openRow, refAt := Store.set 0 r.bank s.time s.dram.refAt } } : State).ctrlServe k n := by
  simp only [State.ctrlServe, hq, ctrlPick_of_refresh hi, hr, hf, if_true, Bool.false_eq_true, if_false]

/-- A refresh that finds every queue empty is served alone. -/
theorem State.ctrlDrain_refreshPush_of_idle (h : s.dram.queue = []) (bank : Nat) :
    (s.refreshPush k bank).ctrlDrain k = { s with dram := { s.dram with refAt := Store.set 0 bank s.time s.dram.refAt, openRow := [], rowHits := [] } } := by
  let r : CtrlReq := { refresh := true, bank := bank }
  have hpush : (s.refreshPush k bank).dram.queue = [(k, [r])] := by
    rw [State.refreshPush, h]
    rfl
  have hq : Store.get [] k (s.refreshPush k bank).dram.queue = [r] := by
    simp [hpush, Store.get, Store.find]
  have hpop : Store.set [] k ([r].eraseIdx 0) [(k, [r])] = [] := by
    simp [Store.set, Store.drop]
  rw [State.ctrlDrain, hq, show 2 * [r].length = 1 + 1 from rfl, State.ctrlServe_of_refresh hq (i := 0) (r := r) rfl rfl rfl, hpush, hpop, State.ctrlServe_of_empty rfl]
  simp only [State.refreshPush, h]
  rfl

end

/-! Rowhammer windows (R291 to R293). -/

/-- One window is taken off each throttle. -/
def windowTaken (l : List (Nat × Nat × Nat)) : List (Nat × Nat × Nat) := l.map (fun x => (x.1, x.2.1, x.2.2 - 1))

theorem windowTaken_lasts {l : List (Nat × Nat × Nat)} (h : ∀ x ∈ l, 2 ≤ x.2.2) : ∀ x ∈ windowTaken l, x.2.2 ≠ 0 := by
  intro y hy
  obtain ⟨x, hx, rfl⟩ := List.mem_map.mp hy
  exact Nat.sub_ne_zero_of_lt (h x hx)

section
variable {s : State}

/-- A window's end keeps the throttles that have windows left, and takes the others from their controllers. -/
theorem execRowhammerWindowEnd_eq {u : State} (hu : s.reach (s.dram.rhAt + 32000000) = u) {t : State}
    (ht : { u with dram := { u.dram with rh := [], rhAt := u.time, throttle := (windowTaken s.dram.throttle).filter (fun x => x.2.2 != 0) } } = t) :
    execRowhammerWindowEnd s = .next (((windowTaken s.dram.throttle).filter (fun x => x.2.2 == 0)).foldl
      (fun t x => if 64 ≤ x.1 then t.wrB .hbcSThrottle x.2.1 false (x.1 - 64) else t.wrB .lpcCThrottle x.2.1 false x.1) t) := by
  subst hu ht
  rfl

/-- Throttles with more than one window left all go on. -/
theorem execRowhammerWindowEnd_of_lasting (h : ∀ x ∈ s.dram.throttle, 2 ≤ x.2.2) :
    let t := s.reach (s.dram.rhAt + 32000000)
    execRowhammerWindowEnd s = .next { t with dram := { t.dram with rh := [], rhAt := t.time, throttle := windowTaken t.dram.throttle } } := by
  have hkept : (windowTaken s.dram.throttle).filter (fun x => x.2.2 != 0) = windowTaken s.dram.throttle :=
    List.filter_eq_self.mpr fun x hx => bne_iff_ne.mpr (windowTaken_lasts h x hx)
  have hended : (windowTaken s.dram.throttle).filter (fun x => x.2.2 == 0) = [] :=
    List.filter_eq_nil_iff.mpr fun x hx he => windowTaken_lasts h x hx (beq_iff_eq.mp he)
  rw [execRowhammerWindowEnd_eq rfl rfl, hkept, hended]
  rfl

/-- A throttle in its last window ends, and its controller no longer shows it. -/
theorem execRowhammerWindowEnd_of_ending {ch bit : Nat} (h : s.dram.throttle = [(ch, bit, 1)]) {u : State} (hu : s.reach (s.dram.rhAt + 32000000) = u) {t : State}
    (ht : { u with dram := { u.dram with rh := [], rhAt := u.time, throttle := [] } } = t) :
    execRowhammerWindowEnd s = .next (if 64 ≤ ch then t.wrB .hbcSThrottle bit false (ch - 64) else t.wrB .lpcCThrottle bit false ch) := by
  rw [execRowhammerWindowEnd_eq hu rfl, h, ← ht]
  rfl

end

/-! Rebuilds onto the spare channel (R280, R281). -/

section
variable {s : State} {h : Nat}

/-- The first position of a hub that has lost its channel in a DEGRADED group. -/
def State.lostPosition (s : State) (h : Nat) : Option Nat :=
  (List.range 16).find? (fun i => (s.rdF .lpcCState 0 3 (17 * h + i) == 2 || s.rdF .lpcCState 0 3 (17 * h + i) == 4) && s.rdF .lpcGroupState (4 * (2 * h + i / 8)) 2 == 1)

/-- LPC_SPARE shows the hub's spare in use, for the channel of position `i`. -/
def State.nameSpare (s : State) (h i : Nat) : State := (s.wrF .lpcSpare (8 * h) 6 (17 * h + i)).wrB .lpcSpare (8 * h + 6) true

/-- The hub's spare channel is given position `i`: it is a rebuild target, with the strength and the group of the channel it replaces. -/
def State.assignSpare (s : State) (h i : Nat) : State :=
  let t := s.nameSpare h i
  ((t.wrF .lpcCState 0 3 3 (17 * h + 16)).wrF .lpcCState 4 3 (t.rdF .lpcCState 4 3 (17 * h + i)) (17 * h + 16)).wrF .lpcCState 8 2 (2 * h + i / 8) (17 * h + 16)

/-- The module time at which the hub's rebuild starts is noted. -/
def State.noteRebuild (s : State) (h : Nat) : State := { s with dram := { s.dram with rebuildAt := s.dram.rebuildAt.set h s.time } }

@[simp] theorem State.rd_noteRebuild (s : State) (h : Nat) (n : RegName) (a b : Nat) : (s.noteRebuild h).rd n a b = s.rd n a b := rfl

theorem State.rebuildStart_of_lost {i : Nat} (hi : s.lostPosition h = some i) (hf : s.rdB .lpcSpare (8 * h + 6) = false)
    (h2 : s.rdF .lpcCState 0 3 (17 * h + 16) ≠ 2) (h4 : s.rdF .lpcCState 0 3 (17 * h + 16) ≠ 4) :
    s.rebuildStart h = ((((s.assignSpare h i).noteRebuild h).wr .lpcRebuildPtr 0 h).wrF .lpcGroupState (4 * (2 * h + i / 8)) 2 2).setB .lpcRebuildCtrl h := by
  unfold State.lostPosition at hi
  simp only [State.rebuildStart, hi, hf, beq_eq_false_iff_ne.mpr h2, beq_eq_false_iff_ne.mpr h4, Bool.or_self, Bool.false_eq_true, if_false, State.noteRebuild,
    State.assignSpare, State.nameSpare]

variable (hs : s.regs.wf = true)
include hs

theorem State.nameSpare_regs_wf (h i : Nat) : (s.nameSpare h i).regs.wf = true := State.wrB_regs_wf (State.wrF_regs_wf hs ..) ..

theorem State.assignSpare_regs_wf (h i : Nat) : (s.assignSpare h i).regs.wf = true :=
  State.wrF_regs_wf (State.wrF_regs_wf (State.wrF_regs_wf (State.nameSpare_regs_wf hs h i) ..) ..) ..

/-- The spare's STATE reads as rebuild target: its strength and its group are other fields. -/
theorem State.rdF_assignSpare_state (h i : Nat) : (s.assignSpare h i).rdF .lpcCState 0 3 (17 * h + 16) = 3 := by
  have hspare := State.nameSpare_regs_wf hs h i
  have hstate := State.wrF_regs_wf hspare .lpcCState 0 3 3 (17 * h + 16) 0
  rw [State.assignSpare, State.rdF_wrF_field (State.wrF_regs_wf hstate ..) _ _ _ _ _ _ _ _ (by decide) (by decide),
    State.rdF_wrF_field hstate _ _ _ _ _ _ _ _ (by decide) (by decide), State.rdF_wrF_self hspare _ _ _ _ _ _ (by decide), Nat.mod_eq_of_lt (by decide)]

/-- A rebuild that has started shows in LPC_REBUILD_CTRL, stands at stripe 0, and has the spare as its target. -/
theorem State.rebuildStart_shows (hh : h < 32) {i : Nat} (hi : s.lostPosition h = some i) (hf : s.rdB .lpcSpare (8 * h + 6) = false)
    (h2 : s.rdF .lpcCState 0 3 (17 * h + 16) ≠ 2) (h4 : s.rdF .lpcCState 0 3 (17 * h + 16) ≠ 4) :
    (s.rebuildStart h).rdB .lpcRebuildCtrl h = true ∧ (s.rebuildStart h).rd .lpcRebuildPtr h = 0 ∧ (s.rebuildStart h).rdF .lpcCState 0 3 (17 * h + 16) = 3 := by
  have htaken : ((s.assignSpare h i).noteRebuild h).regs.wf = true := State.assignSpare_regs_wf hs h i
  have hptr := State.wr_regs_wf htaken .lpcRebuildPtr 0 h 0
  have hgroup := State.wrF_regs_wf hptr .lpcGroupState (4 * (2 * h + i / 8)) 2 2 0 0
  rw [State.rebuildStart_of_lost hi hf h2 h4]
  refine ⟨State.rdB_wrB_self hgroup _ _ _ _ _ hh, ?_, ?_⟩
  · rw [State.rd_setB_name hgroup (by decide), State.rd_wrF_name hptr (by decide), State.rd_wr_self htaken]
    split <;> rfl
  · rw [State.rdF, State.rd_setB_name hgroup (by decide), State.rd_wrF_name hptr (by decide), State.rd_wr_name htaken (by decide), State.rd_noteRebuild]
    exact State.rdF_assignSpare_state hs h i

end

theorem execLpRebuildStart_of_stopped {s : State} {g : Fin 2} (h : s.rdB .lpcRebuildCtrl g = false) : execLpRebuildStart g s = .next (s.rebuildStart g) := by
  rw [execLpRebuildStart, h, if_neg Bool.false_ne_true]

theorem execLpRebuildDone_of_rebuilding {s : State} {g : Fin 2} {n : Nat} (hn : s.rdF .lpcCState 8 2 (17 * g + 16) = n) (hst : s.rdF .lpcCState 0 3 (17 * g + 16) = 3)
    (hg : s.rdF .lpcGroupState (4 * n) 2 = 2) {t : State} (ht : (s.reach (s.dram.rebuildAt.getD g 0 + rebuildNs)).wr .lpcRebuildPtr (2 ^ 31) g = t) :
    execLpRebuildDone g s = .next ((((t.wrF .lpcCState 0 3 0 (17 * g + 16)).wrF .lpcGroupState (4 * n) 2 0).clrB .lpcRebuildCtrl g).event
      { reg := .lpcEvent, bit := 1, addr := 17 * g + 16, value := n }) := by
  simp only [execLpRebuildDone, hn, hst, hg, ht, ne_eq, not_true_eq_false, or_self, if_false]

/-! The ends of gather windows (R626). -/

section
variable {s : State} {kind key : Nat} {g : Gather} (hg : Store.get none (gatherKey kind key) s.ev.gather = some g) {t : State} (ht : s.reach (g.opened + 1000000) = t)
include hg ht

theorem State.gatherEnd_of_none (hf : g.first = none) :
    s.gatherEnd kind key = { t with ev := { t.ev with gather := Store.set none (gatherKey kind key) none t.ev.gather } } := by
  simp only [State.gatherEnd, hg, ht, hf]

/-- The record that counts what the window held opens the next window. -/
theorem State.gatherEnd_of_held {r : EvRec} (hf : g.first = some r) :
    s.gatherEnd kind key = (({ t with ev := { t.ev with gather := Store.set none (gatherKey kind key) (some { opened := t.time }) t.ev.gather } } : State).raise
      { r with count := g.count }).tiedMsix g.msix := by
  simp only [State.gatherEnd, hg, ht, hf]

end

/-- Settles O47, clause by clause. Three readings are the model's:
that a command which reports the end of a period moves module time to that end (log 2), that a controller's rows close when the command ends (log 20), and that each lane of a probe names its side and direction and shifts by one tap (log 81). -/
theorem memoryUpkeepEvents : Obligations.MemoryUpkeepEvents := by
  refine ⟨fun s m => ⟨execTrainingProbe_nil m s, fun x l hl => execTrainingProbe_one (State.shiftLane_of_lane hl)⟩,
    fun l x => ⟨l.drifted_iff, fun hr => ?read, fun hw => ?write⟩,
    fun s m _ b hq => congrArg Host.Outcome.next (State.ctrlDrain_refreshPush_of_idle hq _),
    fun hit n i q hi => ctrlPick_of_refresh hi hit n,
    fun s hlast => execRowhammerWindowEnd_of_lasting hlast,
    fun s ch bit hend => execRowhammerWindowEnd_of_ending hend rfl rfl,
    fun s g hs hstop => ⟨execLpRebuildStart_of_stopped hstop, fun i hi hf h2 h4 =>
      ⟨s.rebuildStart g, execLpRebuildStart_of_stopped hstop, State.rebuildStart_shows hs.regs (by omega) hi hf h2 h4⟩⟩,
    fun s g hst hg => execLpRebuildDone_of_rebuilding rfl hst hg rfl,
    fun s kind key g hg => ⟨fun hf => congrArg Host.Outcome.next (State.gatherEnd_of_none hg rfl hf), fun r hf => congrArg Host.Outcome.next (State.gatherEnd_of_held hg rfl hf)⟩⟩
  case read =>
    rw [l.shift_of_read hr]
    exact ⟨rfl, rfl, rfl⟩
  case write =>
    rw [l.shift_of_write hw]
    exact ⟨rfl, rfl, rfl⟩

end Sys2Proof.Machine
end

section
/-! PROOFS. Flash carriers (09_flash_carriers): NAND timeouts, background work of the FTL, restripes, and carriers that are adopted, rebuilt or evacuated. -/

namespace Sys2Proof.Machine

/-! NAND timeouts (R307). -/

/-- The timeouts of a bay within the last second, with one that comes now. -/
def State.expiriesNow (s : State) (b : Nat) : List Nat := (s.bay b).expiries.filter (fun t => s.time < t + 1000000000) ++ [s.time]

/-- A timeout is counted: in the controller's register, and among those of its bay. -/
def State.noteExpiry (s : State) (f : Nat) : State := (s.incErr .flcCTimeouts f).setBay (f / 8) { s.bay (f / 8) with expiries := s.expiriesNow (f / 8) }

section
variable (s : State)

/-- The eighth timeout within a second fails the carrier, once the operation has been answered. -/
theorem execNandOpTimeout_eq (f : Fin 32) (lun : Fin 16) (op : NandOp) {u : State} (hu : (s.noteExpiry f).nandExpiry f (16 * f + lun) op = u) :
    execNandOpTimeout f lun op s = .next (if 8 ≤ (s.expiriesNow (f / 8)).length then u.carrierFailed (f / 8) else u) := by
  subst hu
  rfl

/-- A read that timed out is tried again. -/
theorem State.nandExpiry_read (f lun : Nat) :
    s.nandExpiry f lun .read = { s with flash := { s.flash with reads := s.flash.reads.map (fun r => if r.lun = lun then { r with tries := r.tries + 1 } else r) } } := by
  simp only [State.nandExpiry, mapIf, beq_iff_eq]

end

/-! Background work of the FTL (R306, R309, R312 to R314, R323, R591). -/

section
variable {s : State} {n : Nat} (hup : s.ftlDown none = false)
include hup

/-- With no stale stripe, and fewer than four writable carriers, there is nothing to collect. -/
theorem execFtlBackgroundWork_collect (hw : s.writable < 4) (hl : ∀ x ∈ s.flash.stripes, x.1 ∈ s.nandPages.map (fun y => y.2.2.2.stripe)) :
    execFtlBackgroundWork (.collect n) s = .next s := by
  have hstale : s.flash.stripes.filter (fun x => !(s.nandPages.map (fun y => y.2.2.2.stripe)).contains x.1) = [] :=
    List.filter_eq_nil_iff.mpr fun x hx => by simpa using hl x hx
  have hkept : s.flash.stripes.filter (fun x => !([] : List Nat).contains x.1) = s.flash.stripes := List.filter_eq_self.mpr fun _ _ => rfl
  simp only [execFtlBackgroundWork, hup, Bool.false_eq_true, if_false, hstale, List.map_nil, List.take_nil, hkept]
  exact congrArg Host.Outcome.next (if_pos hw)

section
variable (hf : s.hup.flushAt = none)
include hf

theorem execFtlBackgroundWork_restripe (hr : s.flash.restriping = true ∨ s.flash.short = true) {l : List Nat} (hl : (s.stripesIn Stripe.exposed).take n = l)
    {t : State} (ht : ({ s with flash := { s.flash with restriping := true, short := false } } : State).ftlWrites n = t) :
    execFtlBackgroundWork (.restripe n) s = .next (((t.rewriteStripes l).setExposed (t.flash.exposed - (n - l.length))).arrayUpdate) := by
  have hgo : (s.flash.restriping || s.flash.short) = true := Bool.or_eq_true _ _ ▸ hr
  subst hl ht
  simp only [execFtlBackgroundWork, hup, hf, hgo, Option.isSome_none, Bool.not_true, Bool.or_self, Bool.false_eq_true, if_false]

theorem execFtlBackgroundWork_rebuild {b : Nat} (hb : (List.range 4).find? (fun x => s.bayState x == 7) = some b) {l : List Nat} (hl : (s.stripesIn Stripe.exposed).take n = l) :
    execFtlBackgroundWork (.rebuild n) s = .next ((((s.ftlWrites n).rebuildMembers b l).setExposed (s.flash.exposed - (n - l.length))).arrayUpdate) := by
  subst hl
  simp only [execFtlBackgroundWork, hup, hf, hb, Option.isSome_none, Bool.false_eq_true, if_false]

theorem execFtlBackgroundWork_evacuate {b : Fin 4} (hb : s.bayState b = 4 ∨ s.bayState b = 5) {l : List Nat} (hl : (s.stripesIn (fun x => x.has b)).take n = l) :
    execFtlBackgroundWork (.evacuate b n) s = .next ((((s.ftlWrites n).rewriteStripes l).setLive b ((s.bay b).live - (n - l.length))).arrayUpdate) := by
  have hgo : (s.bayState b == 4 || s.bayState b == 5) = true := by simpa using hb
  subst hl
  simp only [execFtlBackgroundWork, hup, hf, hgo, Option.isSome_none, Bool.not_true, Bool.or_self, Bool.false_eq_true, if_false]

end

theorem execFtlBackgroundWork_rekey (p : PartId) : execFtlBackgroundWork (.rekey p n) s = .next ((s.ftlWrites n).rekey p n) := by
  simp only [execFtlBackgroundWork, hup, Bool.false_eq_true, if_false]

theorem execFtlBackgroundWork_erase (f : Fin 32) (lun : Fin 16) :
    execFtlBackgroundWork (.erase f lun n) s = .next ((s.incEvt .carBErases (f / 8) n).nandBegin (16 * f + lun) true) := by
  simp only [execFtlBackgroundWork, hup, Bool.false_eq_true, if_false]

theorem execFtlBackgroundWork_blockFail (f : Fin 32) : execFtlBackgroundWork (.blockFail f) s = .next (s.blockRetire f) := by
  simp only [execFtlBackgroundWork, hup, Bool.false_eq_true, if_false]

end

/-! Restripes (R309). Which stripes are exposed is not a matter of registers, nor of whether a restripe runs. -/

@[simp] theorem State.exposedAll_wrB (s : State) (n : RegName) (b : Nat) (v : Bool) (i j : Nat) : (s.wrB n b v i j).exposedAll = s.exposedAll := rfl

section
variable {s : State}

theorem State.restripeStart_of_whole (h : s.exposedAll = 0) : s.restripeStart = s.clrB .carCtrl 0 := if_pos h

theorem State.restripeStart_of_exposed (h : s.exposedAll ≠ 0) : s.restripeStart = { s with flash := { s.flash with restriping := true, short := false } } := if_neg h

/-- The state in which a restripe has stopped. -/
def State.restripeStop (s : State) : State := ({ s with flash := { s.flash with restriping := false } } : State).clrB .carCtrl 0

@[simp] theorem State.exposedAll_restripeStop (s : State) : s.restripeStop.exposedAll = s.exposedAll := rfl

theorem execRestripe_of_whole (h : s.exposedAll = 0) : execRestripe s = .next ((s.setB .carCtrl 0).clrB .carCtrl 0) :=
  congrArg Host.Outcome.next (State.restripeStart_of_whole ((State.exposedAll_wrB ..).trans h))

theorem execRestripe_of_exposed (h : s.exposedAll ≠ 0) :
    execRestripe s = .next { s.setB .carCtrl 0 with flash := { s.flash with restriping := true, short := false } } :=
  congrArg Host.Outcome.next (State.restripeStart_of_exposed (s := s.setB .carCtrl 0) ((State.exposedAll_wrB ..).trans_ne h))

/-- A restripe that completes stops; it has left no stripe exposed, or space has run out (R309). -/
theorem execRestripeComplete_of_running (h : s.flash.restriping = true) {t : State} (ht : s.restripeStop = t) :
    execRestripeComplete s = .next (if s.exposedAll = 0 then ({ t with flash := { t.flash with lostPos := none } } : State).arrayUpdate
      else ({ t with flash := { t.flash with short := true } } : State).event { reg := .carEvent, bit := 0, value := s.exposedAll }) := by
  subst ht
  rw [execRestripeComplete, h, ← State.exposedAll_restripeStop s]
  rfl

end

/-! Adoption, rebuild and evacuation of carriers (R311, R312, R314, R316). -/

section
variable {s : State} {b : Fin 4}

theorem execCarrierAdopted_of_starting (h : s.bayState b = 2) (bad : BitVec 8) : execCarrierAdopted b bad s = .next (s.adopt b bad.getLsbD) :=
  congrArg Host.Outcome.next (if_pos h)

theorem execCarrierRebuildDone_of_rebuilding (h : s.bayState b = 7) {t : State} (ht : (s.setBayState b 3).rebuildMembers b (s.stripesIn Stripe.exposed) = t) :
    execCarrierRebuildDone b s = .next (({ t with flash := { t.flash with restriping := false, short := false } } : State).setExposed 0).arrayUpdate := by
  subst ht
  exact congrArg Host.Outcome.next (if_pos h)

theorem execEvacuationComplete_of_empty (h : s.bayState b = 5) (hl : s.liveOn b = 0) : execEvacuationComplete b s = .next (s.slotOff b).arrayUpdate := by
  simp only [execEvacuationComplete, h, hl, Nat.lt_irrefl, if_true, if_false]

/-- An evacuation that ends with members left exposes their stripes, and the bay becomes the lost position. -/
theorem execEvacuationComplete_of_live (h : s.bayState b = 5) (hl : s.liveOn b ≠ 0) {t : State}
    (ht : ({ s with flash := { s.flash with lostPos := some b.val } } : State).setExposed (s.flash.exposed + (s.bay b).live) = t) :
    execEvacuationComplete b s = .next (((t.loseMembers b).event { reg := .carEvent, bit := 0, addr := b, value := s.liveOn b }).slotOff b).arrayUpdate := by
  subst ht
  simp only [execEvacuationComplete, h, Nat.pos_of_ne_zero hl, if_true]

end

/-- Settles O49, clause by clause. Two readings are the model's: that stripes of data go before those of the system area, whose number is free (log 22),
and that an adopted carrier enters IN_SERVICE unless it takes a lost position, which it rebuilds first (log 46). -/
theorem carrierMediaEvents : Obligations.CarrierMediaEvents := by
  refine ⟨fun s f lun op => ?timeout,
    fun s n b f lun p hup => ⟨execFtlBackgroundWork_collect hup, fun hf hr => execFtlBackgroundWork_restripe hup hf hr rfl rfl,
      fun hf hb => execFtlBackgroundWork_rebuild hup hf hb rfl, fun hf hb => execFtlBackgroundWork_evacuate hup hf hb rfl,
      execFtlBackgroundWork_rekey hup p, execFtlBackgroundWork_erase hup f lun, execFtlBackgroundWork_blockFail hup f⟩,
    fun s => ⟨execRestripe_of_whole, execRestripe_of_exposed, fun h => ⟨fun he => (execRestripeComplete_of_running h rfl).trans (congrArg Host.Outcome.next (if_pos he)),
      fun he => (execRestripeComplete_of_running h rfl).trans (congrArg Host.Outcome.next (if_neg he))⟩⟩,
    fun s b => ⟨fun bad h => execCarrierAdopted_of_starting h bad, fun h => execCarrierRebuildDone_of_rebuilding h rfl, execEvacuationComplete_of_empty,
      fun h hl => execEvacuationComplete_of_live h hl rfl⟩⟩
  case timeout =>
    cases op with
    | read => exact execNandOpTimeout_eq s f lun .read (State.nandExpiry_read _ _ _)
    | suspend => exact execNandOpTimeout_eq s f lun .suspend rfl
    | program => exact execNandOpTimeout_eq s f lun .program rfl
    | erase => exact execNandOpTimeout_eq s f lun .erase rfl

end Sys2Proof.Machine
end

section
/-! PROOFS. The compute plane (11): operand pages that arrive (R364, R439), and barriers that release (R457, R459). -/

namespace Sys2Proof.Machine

/-! Pages on their way. -/

/-- A page that can be read is written to its destination, and is no longer outstanding. -/
theorem execTldPageArrive_of_read {s t : State} {c : CoreId} {i : Nat} {k : KernelSt} {p : TldPage} {o a v : Nat} (hk : (s.core c).kid.bind s.kernel = some k)
    (hp : (s.core c).tld[i]? = some p) (hr : k.running = true) (hf : k.fault = none) (ha : s.resolve k.part p.addr 4096 = some (o, a))
    (ht : s.tldPage k (c / 8) o (a / 4096) (if p.dsp = 0 then (s.core c).urgency p.em else 0) = (t, .ok v)) {u : State} (hu : t.flashGot (.kernel k.id) o (a / 4096) = u) :
    execTldPageArrive c i s =
      .next (u.spacePut c { u.core c with tld := (u.core c).tld.eraseIdx i } p.dsp p.em (if p.dsp = 1 then 4096 * p.off else p.off) 4096 v) := by
  subst hu
  simp only [execTldPageArrive, hk, hp, hr, hf, ha, ht, Bool.not_true, Option.isSome_none, Bool.or_self, Bool.false_eq_true, if_false]

/-! A change made to each core of a list. -/

/-- Each core of a list changed by `f`. -/
def State.mapCores (s : State) (f : CoreSt → CoreSt) (l : List Nat) : State := l.foldl (fun t c => t.setCore c (f (t.core c))) s

section
variable {s : State} (f : CoreSt → CoreSt) (l : List Nat)

/-- Nothing but the cores changes. -/
theorem State.mapCores_frame : s.mapCores f l = { s with cores := (s.mapCores f l).cores } := by
  induction l generalizing s with
  | nil => rfl
  | cons c l ih => exact ih (s := s.setCore c (f (s.core c)))

variable {l}

/-- Where no core is listed twice, each listed core is changed once, and every other core stays. -/
theorem State.core_mapCores (hs : s.Canonical) (hl : l.Nodup) (n : Nat) : (s.mapCores f l).core n = if n ∈ l then f (s.core n) else s.core n := by
  induction l generalizing s with
  | nil => rfl
  | cons c l ih =>
    obtain ⟨hc, hl⟩ := List.nodup_cons.mp hl
    have hstep : (s.mapCores f (c :: l)).core n = ((s.setCore c (f (s.core c))).mapCores f l).core n := rfl
    rw [hstep, ih ((State.setCore_keeps (Keeps.refl s) c _).canonical hs) hl]
    by_cases hn : n = c
    · subst hn
      simp only [hc, if_false, State.core_setCore_self hs, List.mem_cons_self, if_true]
    · simp only [State.core_setCore_ne hs hn, List.mem_cons, hn, false_or]

end

/-- Eight cores per cluster: cores of different clusters differ. -/
theorem KernelSt.cores_nodup {k : KernelSt} (h : k.clusters.Nodup) : k.cores.Nodup := by
  refine List.nodup_flatMap.mpr ⟨fun c _ => List.nodup_range.map fun i j (hij : 8 * c + i = 8 * c + j) => Nat.add_left_cancel hij, h.imp fun {c d} hcd n hc hd => hcd ?_⟩
  obtain ⟨i, hi, rfl⟩ := List.mem_map.mp hc
  obtain ⟨j, hj, hij⟩ := List.mem_map.mp hd
  have hi := List.mem_range.mp hi
  have hj := List.mem_range.mp hj
  omega

/-! Barriers. -/

/-- A core goes on from a BAR of a scope. -/
def CoreSt.passBar (x : CoreSt) (scope : Nat) : CoreSt := { x with atBar := none, bars := x.bars.set scope (x.bars.getD scope 0 + 1), pc := (x.pc + 1) % 8192, pos := 0 }

/-- The cores of a kernel that go on from a BAR of a scope: those at it whose whole group has come to it or has ended. -/
def State.barGoers (s : State) (k : KernelSt) (scope : Nat) : List Nat :=
  k.cores.filter (fun c => (s.core c).atBar == some scope &&
    (k.cores.filter (fun d => barGroup scope d == barGroup scope c)).all (fun d => (s.core d).ended || (s.core d).atBar == some scope))

section
variable {s : State} {k : KernelSt} {scope : Nat}

theorem State.mem_barGoers {c : Nat} : c ∈ s.barGoers k scope ↔ c ∈ k.cores ∧ (s.core c).atBar = some scope ∧
    ∀ d ∈ k.cores, barGroup scope d = barGroup scope c → (s.core d).ended = true ∨ (s.core d).atBar = some scope := by
  simp only [State.barGoers, List.mem_filter, List.all_eq_true, Bool.and_eq_true, Bool.or_eq_true, beq_iff_eq, and_imp]

theorem State.barGoers_nodup (h : k.clusters.Nodup) : (s.barGoers k scope).Nodup := (KernelSt.cores_nodup h).filter _

theorem execBarrierRelease_of_running {kid : Nat} (hk : s.kernel kid = some k) (hr : k.running = true) (hl : k.lid = 0) (hf : k.fault = none) (h1 : 1 ≤ scope) (h3 : scope ≤ 3) :
    execBarrierRelease kid scope s = .next (s.mapCores (·.passBar scope) (s.barGoers k scope)) := by
  have h0 : (scope == 0) = false := beq_false_of_ne (Nat.pos_iff_ne_zero.mp h1)
  have h4 : decide (3 < scope) = false := decide_eq_false (Nat.not_lt.mpr h3)
  simp only [execBarrierRelease, hk, hr, hl, hf, h0, h4, Bool.not_true, bne_self_eq_false, Option.isSome_none, Bool.or_self, Bool.false_eq_true, if_false]
  rfl

end

/-- Settles O21. A page that arrives is the read, then the write to its destination; of a kernel's cores, those that BARRIER_RELEASE lets go on are changed once each, as its clusters differ. -/
theorem pagesArriveAndBarriersRelease : Obligations.PagesArriveAndBarriersRelease := by
  refine ⟨fun s c i k p o a v t hk hp hr hf ha ht => execTldPageArrive_of_read hk hp hr hf ha ht rfl, fun s kid k scope hs hk hr hl hf hn h1 h3 => ?_⟩
  refine ⟨_, execBarrierRelease_of_running hk hr hl hf h1 h3, State.mapCores_frame .., fun c => ?_⟩
  rw [State.core_mapCores _ hs (State.barGoers_nodup hn)]
  exact ⟨fun hgo => if_pos (State.mem_barGoers.mpr hgo), fun hstay => if_neg fun hgo => hstay (State.mem_barGoers.mp hgo)⟩

end Sys2Proof.Machine
end

section
/-! PROOFS. The compute plane (11): launches and the dispatch of kernels (R356 to R359). -/

namespace Sys2Proof.Machine

/-! Launch descriptors (R358, R359). -/

section
variable {s : State} {q : QueueId} {n p : Nat} {d : DescSt}
  (hp : s.queueOwner q = some p) (hd : s.desc q n = some d) (hop : d.fld 0 1 = 1) (hs : s.mayStart q d = true) (hh : s.startHeld p = false) (hc : s.descFails p d = [])
  (hup : s.hup.flushAt = none)
include hp hd hop hs hh hc hup

/-- Below Daylight a launch only asks for power. -/
theorem execDescLaunch_of_asleep (hw : s.rdF .pwrState 0 2 ≠ 0) : execDescLaunch q n s = .next (s.wakeBy 0 2 0) := by
  simp [execDescLaunch, hp, hd, hop, hs, hh, hc, hup, hw]

variable (hw : s.rdF .pwrState 0 2 = 0) (he : s.rdB .pwrState 7 = false)
include hw he

/-- A partition without compute clusters launches nothing. -/
theorem execDescLaunch_of_noClusters (hm : (s.part p).comp = 0) : execDescLaunch q n s = .next (s.endDesc q d stDenied 0) := by
  simp [execDescLaunch, hp, hd, hop, hs, hh, hc, hup, hw, he, hm]

/-- A launch whose checks pass queues its kernel, and its descriptor waits. -/
theorem execDescLaunch_of_passing (hm : (s.part p).comp ≠ 0) (hst : s.rdB .strStatus 5 = false) {t u : State} {v : Nat} (ha : s.readArgs p (d.fld 0x10 8) = (t, .ok v))
    (hl : t.launchCheck p (d.fld 0x10 8) (bytesOf (max 64 (fieldOf v 2 2)) v) = (u, .fails [])) {w : State} (hu : (u.flashDone (.desc q n)).setDesc q { d with launched := true } = w) :
    execDescLaunch q n s = .next { w with comp := { w.comp with
      kernels := w.comp.kernels ++ [{ id := u.comp.nextKid, part := p, queue := q, count := n, block := bytesOf (max 64 (fieldOf v 2 2)) v }], nextKid := w.comp.nextKid + 1 } } := by
  subst hu
  simp [execDescLaunch, hp, hd, hop, hs, hh, hc, hup, hw, he, hm, hst, ha, hl]

end

/-! Dispatch (R356, R357). -/

/-- A dispatched kernel moves the round-robin pointer past its queue and starts on the clusters that it takes. -/
def State.dispatched (s : State) (p : Nat) (k : KernelSt) (idx : Nat) (cl : List Nat) (code : List Word) : State :=
  ({ s with comp := { s.comp with rr := s.comp.rr.set p (idx + 1) } }.flashDone (.kernel k.id)).startKernel k cl code none

section
variable {s : State} {p : PartId} {k : KernelSt} (hk : s.pickLaunch p = some k) (hup : s.hup.flushAt = none) (hw : s.rdF .pwrState 0 2 = 0) (he : s.rdB .pwrState 7 = false)
  (hq : s.quarantined p = false)
include hk hup hw he hq

/-- Where too few clusters are free, the round-robin pointer stays on the kernel's queue (R357). -/
theorem execKernelDispatch_of_few (hn : (s.freeClusters p).length < k.arg 4 1) :
    execKernelDispatch p s = .next { s with comp := { s.comp with rr := s.comp.rr.set p (s.queueIdx p k.queue) } } := by
  simp [execKernelDispatch, hk, hup, hw, he, hq, hn]

variable (hn : k.arg 4 1 ≤ (s.freeClusters p).length)
include hn

/-- A kernel of the library has no program to fetch. -/
theorem execKernelDispatch_of_library (hl : k.lid ≠ 0) :
    execKernelDispatch p s = .next (s.dispatched p k (s.queueIdx p k.queue) ((s.freeClusters p).take (k.arg 4 1)) []) := by
  simp [execKernelDispatch, State.dispatched, hk, hup, hw, he, hq, Nat.not_lt.mpr hn, hl]

/-- A tile program is fetched first, and its words are checked. -/
theorem execKernelDispatch_of_program (hl : k.lid = 0) {o x v : Nat} {t : State} (ha : s.resolve p (k.arg 0x10 8) (k.arg 0x18 4) = some (o, x))
    (hg : s.getBytes (reqComp p) o x (k.arg 0x18 4) = (t, .ok v)) (hc : checkCode (codeWords v (k.arg 0x18 4)) = 0) :
    execKernelDispatch p s = .next (t.dispatched p k (s.queueIdx p k.queue) ((s.freeClusters p).take (k.arg 4 1)) (codeWords v (k.arg 0x18 4))) := by
  simp [execKernelDispatch, State.dispatched, hk, hup, hw, he, hq, Nat.not_lt.mpr hn, hl, ha, hg, hc]

end

/-- Settles O35, clause by clause. A dispatch with too few free clusters leaves the round-robin pointer on the kernel that it waits for (R357). -/
theorem kernelsLaunchAndDispatch : Obligations.KernelsLaunchAndDispatch := by
  refine ⟨fun s q n p d hp hd hop hs hh hc hup => ⟨?launch, execDescLaunch_of_asleep hp hd hop hs hh hc hup, execDescLaunch_of_noClusters hp hd hop hs hh hc hup⟩,
    fun s p k hk hup hw he hq => ⟨execKernelDispatch_of_few hk hup hw he hq, execKernelDispatch_of_library hk hup hw he hq, ?program⟩⟩
  case launch =>
    intro hw he hm hst t u v ha hl
    exact execDescLaunch_of_passing hp hd hop hs hh hc hup hw he hm hst ha hl rfl
  case program =>
    intro hn hl o x v t ha hg hc
    exact execKernelDispatch_of_program hk hup hw he hq hn hl ha hg hc

end Sys2Proof.Machine
end

section
/-! PROOFS. The compute plane (11): the ends of kernels, waits on flash that end, and the library that takes over (R307, R366, R369, R375). -/

namespace Sys2Proof.Machine

/-! The ends of kernels (R369). -/

section
variable {s : State} {kid : Nat} {k : KernelSt} (hk : s.kernel kid = some k) (hr : k.running = true)
include hk hr

/-- Module time reaches the limit; that changes no core, so that a kernel which had not ended by itself meets it. -/
theorem execKernelTimeLimit_of_running (hf : k.fault = none) (hms : k.arg 6 2 ≠ 0) (hrun : k.lid ≠ 0 ∨ k.cores.all (fun c => (s.core c).ended) = false) :
    execKernelTimeLimit kid s = .next ((s.reach (k.startAt + 1000000 * k.arg 6 2)).kernelFault kid .timeLimit) := by
  have hends : ¬ (k.lid = 0 ∧ k.cores.all (fun c => ((s.reach (k.startAt + 1000000 * k.arg 6 2)).core c).ended) = true) :=
    fun ⟨hl, hall⟩ => hrun.elim (· hl) fun hnot => Bool.false_ne_true (hnot.symm.trans hall)
  have hms : (k.arg 6 2 == 0) = false := beq_false_of_ne hms
  simp only [execKernelTimeLimit, hk, hr, hf, hms, Bool.not_true, Option.isSome_none, Bool.or_self, Bool.false_eq_true, if_false, if_neg hends]

/-- A kernel that met a fault ends with that fault's cause. -/
theorem execKernelEnd_of_fault {c : EndCause} (hf : k.fault = some c) : execKernelEnd kid c s = .next (s.endKernel k c false) := by
  simp only [execKernelEnd, hk, hr, hf, Bool.not_true, Bool.false_eq_true, if_false, if_true]

theorem execKernelEnd_of_ended (hf : k.fault = none) (hl : k.lid = 0) (hall : k.cores.all (fun c => (s.core c).ended) = true) :
    execKernelEnd kid .normal s = .next (s.endKernel k .normal false) := by
  simp [execKernelEnd, hk, hr, hf, hl, hall]

theorem execKernelEnd_of_library (hf : k.fault = none) (hl : k.lid ≠ 0) {t : State} {r : Unit} (hrun : s.libRun k = .ok t r) :
    execKernelEnd kid .normal s = .next (t.libEnd kid .normal) := by
  simp [execKernelEnd, hk, hr, hf, hl, hrun]

end

/-! Waits on flash that reach 50 ms (R307). -/

/-- What the end of a wait does to who waited. -/
def State.waitTimedOut (s : State) : FlashWaiter → State
  | .ring q => match s.queueOwner q with | none => s | some p => s.fetchStop p q stTimeout
  | .desc q n => match s.desc q n with | none => s | some d => if d.status.isSome then s else s.endDesc q d stTimeout (d.pos / 4096)
  | .kernel id => match s.kernel id with
    | none => s
    | some k => if k.running then s.kernelFault id .timeLimit else
      match s.desc k.queue k.count with
      | some d => (s.dropKernel id).endDesc k.queue d stTimeout 0
      | none => s.dropKernel id

section
variable {s : State}

/-- The first wait that is listed is found by who waits, as long as its page still comes from flash; module time reaches its deadline. -/
theorem execFlashWaitTimeout_of_first {w : FlashWait} {l : List FlashWait} (hw : s.flash.waits = w :: l) (hf : s.flashWaits w.part w.page = true) :
    execFlashWaitTimeout w.who s = .next (((s.reach (w.since + 50000000)).flashDone w.who).waitTimedOut w.who) := by
  have hfind : s.flash.waits.find? (fun x => x.who == w.who && s.flashWaits x.part x.page) = some w := by
    rw [hw, List.find?_cons_of_pos (by simp only [hf, beq_self_eq_true, Bool.and_self])]
  rw [execFlashWaitTimeout, hfind]
  cases w.who <;> rfl

theorem State.waitTimedOut_ring {q : QueueId} {p : Nat} (ho : s.queueOwner q = some p) : s.waitTimedOut (.ring q) = s.fetchStop p q stTimeout := by
  simp only [State.waitTimedOut, ho]

theorem State.waitTimedOut_desc {q : QueueId} {n : Nat} {d : DescSt} (hd : s.desc q n = some d) (hst : d.status = none) :
    s.waitTimedOut (.desc q n) = s.endDesc q d stTimeout (d.pos / 4096) := by
  simp only [State.waitTimedOut, hd, hst, Option.isSome_none, Bool.false_eq_true, if_false]

theorem State.waitTimedOut_kernel {id : Nat} {k : KernelSt} (hk : s.kernel id = some k) (hr : k.running = true) : s.waitTimedOut (.kernel id) = s.kernelFault id .timeLimit := by
  simp only [State.waitTimedOut, hk, hr, if_true]

end

/-! The library (R375). -/

/-- The library that waited is told in the registers of CMP_LIB and in an event record. -/
theorem execLibraryActivate_of_pending {s : State} {c : Component} (hc : s.comp.pendLib = some c) {t : State}
    (ht : ((s.wr .cmpLibVersion (BitVec.ofNat 64 c.version)).wr .cmpLibKernels (BitVec.ofNat 64 c.kernels.toNat)).putDigest .cmpLibDigest c.digest = t) :
    execLibraryActivate s = .next (({ t with comp := { t.comp with pendLib := none } } : State).event { reg := .cmpEvent, bit := 2, value := c.version }) := by
  subst ht
  simp only [execLibraryActivate, hc]

/-- Settles O36, clause by clause. Three readings are the model's: that a command which reports a limit moves module time to it (log 2), that an END on the last core wins over a time limit of
the same time (log 35), and that a kernel's wait on flash ends as its time limit does, at a deadline in absolute module time (log 63). -/
theorem kernelsEndAndTimeOut : Obligations.KernelsEndAndTimeOut := by
  refine ⟨fun s kid k hk hr => ⟨execKernelTimeLimit_of_running hk hr, fun c => execKernelEnd_of_fault hk hr, execKernelEnd_of_ended hk hr,
      fun hf hl t r => execKernelEnd_of_library hk hr hf hl⟩,
    fun s w l hw hf => ?wait, fun s c hc => execLibraryActivate_of_pending hc rfl⟩
  case wait =>
    have hend := execFlashWaitTimeout_of_first hw hf
    refine ⟨fun q p hq ho => ?_, fun q n d hq hd hst => ?_, fun id k hq hk hr => ?_⟩
    · exact hend.trans (congrArg Host.Outcome.next (by rw [← State.waitTimedOut_ring ho, hq]))
    · exact hend.trans (congrArg Host.Outcome.next (by rw [← State.waitTimedOut_desc hd hst, hq]))
    · exact hend.trans (congrArg Host.Outcome.next (by rw [← State.waitTimedOut_kernel hk hr, hq]))

end Sys2Proof.Machine
end

section
/-! PROOFS. Tile programs (13_tile_programs): a core that issues, and its control, scalar integer and scalar FP64 instructions (R423, R430 to R436, R457, R459). -/

namespace Sys2Proof.Machine

/-! A core that issues carries out the word at its pc (R423, R430). -/

section
variable {s : State} {c : Nat} {k : KernelSt} {x : CoreSt} {w : Word} (hi : s.issue c = some (k, x, w))
include hi

theorem State.tile_of_issue {op : Nat} (ho : fld w 56 8 = op) (f : State → KernelSt → CoreSt → Word → State) : s.tile c op f = .next (f s k x w) := by
  simp only [State.tile, hi, if_pos ho]

/-- A conditional branch goes to pc + IMM where its condition holds, and on otherwise. -/
theorem State.branch_of_issue {op : Nat} (ho : fld w 56 8 = op) {f : Word → Word → Bool} {cond : Prop} [Decidable cond]
    (hc : f (x.s.getD (rA w) 0) (x.s.getD (rB w) 0) = true ↔ cond) :
    s.branch c op f = .next (if cond then s.setCore c (x.jump w) else s.setCore c x.next) := by
  rw [← apply_ite]
  simp only [State.branch, State.tile_of_issue hi ho, CoreSt.reg, hc]

theorem State.alu_of_issue {op : Nat} (ho : fld w 56 8 = op) (f : Word → Word → Word) :
    s.alu c op f = .next (s.setCore c (x.setReg (rD w) (f (x.reg (rA w)) (if fld w 40 1 = 1 then rImm w else x.reg (rB w)))).next) :=
  State.tile_of_issue hi ho _

theorem State.fpu_of_issue {op : Nat} (ho : fld w 56 8 = op) (f : Nat → Nat → Nat → Nat) :
    s.fpu c op f = .next (s.setCore c (x.setReg (rD w) (BitVec.ofNat 64 (f (x.reg (rA w)).toNat (x.reg (rB w)).toNat (x.reg (rD w)).toNat))).next) :=
  State.tile_of_issue hi ho _

end

/-! Branches and loops (R432, R434). -/

section
variable {s : State} {c : CoreId} {k : KernelSt} {x : CoreSt} {w : Word} (hi : s.issue c = some (k, x, w))
include hi

theorem execTNop_of_issue (ho : fld w 56 8 = 0x01) : execTNop c s = .next (s.setCore c x.next) := State.tile_of_issue hi ho _

theorem execTBra_of_issue (ho : fld w 56 8 = 0x02) : execTBra c s = .next (s.setCore c (x.jump w)) := State.tile_of_issue hi ho _

/-- A loop whose count is 0 is left at once. -/
theorem execTLps_of_issue (ho : fld w 56 8 = 0x08) {n : Nat} (hn : (x.s.getD (rA w) 0).toNat % 2 ^ 32 = n) :
    execTLps c s = .next (s.setCore c { x with lc := x.lc.set (rD w) n, pc := if n = 0 then (((x.pc : Int) + immOf w) % 8192).toNat else (x.pc + 1) % 8192, pos := 0 }) := by
  refine (State.tile_of_issue hi ho _).trans ?_
  simp only [CoreSt.reg, hn]
  by_cases h : n = 0 <;> simp only [h, if_true, if_false, CoreSt.jump, CoreSt.next]

theorem execTLpb_of_more (ho : fld w 56 8 = 0x09) (hn : 1 < x.lc.getD (rD w) 0) :
    execTLpb c s = .next (s.setCore c (({ x with lc := x.lc.set (rD w) (x.lc.getD (rD w) 0 - 1) } : CoreSt).jump w)) := by
  simp only [execTLpb, State.tile_of_issue hi ho, if_pos hn]

theorem execTLpb_of_last (ho : fld w 56 8 = 0x09) (hn : x.lc.getD (rD w) 0 ≤ 1) :
    execTLpb c s = .next (s.setCore c ({ x with lc := x.lc.set (rD w) 0 } : CoreSt).next) := by
  simp only [execTLpb, State.tile_of_issue hi ho, if_neg (Nat.not_lt.mpr hn)]

end

theorem slt_iff (a b : Word) : a.slt b = true ↔ a.toInt < b.toInt := by rw [BitVec.slt_eq_decide, decide_eq_true_eq]

/-- Settles O15: each conditional branch is the shared one with its own condition. -/
theorem branchesMoveThePc : Obligations.BranchesMoveThePc := by
  intro s c k x w hi a b on far
  have hge (u v : Word) : (!u.slt v) = true ↔ ¬ u.toInt < v.toInt := by rw [Bool.not_eq_true', ← slt_iff, Bool.not_eq_true]
  exact ⟨execTNop_of_issue hi, execTBra_of_issue hi, fun ho => State.branch_of_issue hi ho beq_iff_eq,
    fun ho => (State.branch_of_issue hi ho bne_iff_ne).trans (congrArg _ (ite_not ..)), fun ho => State.branch_of_issue hi ho (slt_iff a b),
    fun ho => (State.branch_of_issue (f := fun u v => !u.slt v) hi ho (hge a b)).trans (congrArg _ (ite_not ..)), fun ho => State.branch_of_issue hi ho BitVec.ult_iff_lt⟩

/-- Settles O16. -/
theorem loopCountersCountDown : Obligations.LoopCountersCountDown :=
  fun _ _ _ _ _ hi => ⟨fun ho => execTLps_of_issue hi ho rfl, execTLpb_of_more hi, execTLpb_of_last hi⟩

/-! Waits and special values (R430, R435, R436, R457, R459). -/

section
variable {s : State} {c : CoreId} {k : KernelSt} {x : CoreSt} {w : Word} (hi : s.issue c = some (k, x, w))
include hi

/-- What GET writes to s[D]. -/
theorem execTGet_of_loop (ho : fld w 56 8 = 0x0A) (hn : fld w 0 32 ≤ 3) :
    execTGet c s = .next (s.setCore c (x.setReg (rD w) (BitVec.ofNat 64 (x.lc.getD (fld w 0 32) 0))).next) := by
  have h4 : fld w 0 32 ≠ 4 := by omega
  refine (State.tile_of_issue hi ho _).trans ?_
  generalize fld w 0 32 = n at hn h4
  simp only [if_neg h4]
  interval_cases n <;> rfl

theorem execTGet_of_special (ho : fld w 56 8 = 0x0A) {n : Nat} (hn : fld w 0 32 = n) {v : Nat} (hv : n = 5 ∧ v = s.time / 1000 ∨ n = 6 ∧ v = x.flags ∨ n = 7 ∧ v = x.glare) :
    execTGet c s = .next (s.setCore c (x.setReg (rD w) (BitVec.ofNat 64 v)).next) := by
  refine (State.tile_of_issue hi ho _).trans ?_
  obtain ⟨rfl, rfl⟩ | ⟨rfl, rfl⟩ | ⟨rfl, rfl⟩ := hv <;> simp only [hn] <;> rfl

theorem execTGet_of_cycles (ho : fld w 56 8 = 0x0A) (hn : fld w 0 32 = 4) :
    execTGet c s = .next ({ s with free := s.free + 1 }.setCore c (x.setReg (rD w) (BitVec.ofNat 64 (Config.freeNat s.free))).next) := by
  refine (State.tile_of_issue hi ho _).trans ?_
  simp only [hn, if_true]
  rfl

/-- WAITG goes on once each group that it names is at its count or below (R436). -/
theorem execTWaitg_of_issue (ho : fld w 56 8 = 0x0B) {l : List Nat} (hl : (if fld w 40 1 = 1 then List.range 8 else [rD w]) = l) :
    execTWaitg c s = .next (if ∀ g ∈ l, s.outstanding c x g ≤ fld w 0 32 then s.setCore c x.next else s) := by
  simp only [execTWaitg, State.tile_of_issue hi ho, hl, List.all_eq_true, decide_eq_true_eq]

theorem execTBar_of_settled (ho : fld w 56 8 = 0x0C) (hs : s.settled c x = true) :
    execTBar c s = .next (s.setCore c (if fld w 0 32 = 0 then x.next else { x with atBar := some (fld w 0 32) })) := by
  rw [apply_ite (s.setCore c)]
  simp only [execTBar, State.tile_of_issue hi ho, hs, Bool.not_true, Bool.false_eq_true, if_false]

theorem execTEnd_of_settled (ho : fld w 56 8 = 0x00) (hs : s.settled c x = true) :
    execTEnd c s = .next ((s.setCore c { x with ended := true }).wrF .cmpCoreState 0 3 1 c) := by
  simp only [execTEnd, State.lastEnd_of_issue hi, hi, ho, hs, decide_true, Bool.and_self, if_true]

end

/-- Settles O17. That GET's selector 4 takes a free value, since the model keeps no core clock (log 2), that WAITG, BAR and END leave the state as it is while they wait, to be issued again,
and that an END wins over a time limit of the same time (logs 35 and 37), are the model's choices. -/
theorem waitsAndSpecialValues : Obligations.WaitsAndSpecialValues := by
  intro s c k x w hi on put
  refine ⟨fun ho => ⟨execTGet_of_loop hi ho, execTGet_of_cycles hi ho, fun hn => execTGet_of_special hi ho hn (.inl ⟨rfl, rfl⟩),
      fun hn => execTGet_of_special hi ho hn (.inr (.inl ⟨rfl, rfl⟩)), fun hn => execTGet_of_special hi ho hn (.inr (.inr ⟨rfl, rfl⟩))⟩,
    fun ho hall hn => ?one, fun ho hall hn => ?all, fun ho hall hn => ?wait, execTBar_of_settled hi, execTEnd_of_settled hi⟩
  case one => exact (execTWaitg_of_issue hi ho (if_neg (by rw [hall]; decide))).trans (congrArg _ (if_pos (by simpa using hn)))
  case all => exact (execTWaitg_of_issue hi ho (if_pos hall)).trans (congrArg _ (if_pos (fun g hg => hn g (List.mem_range.mp hg))))
  case wait => exact (execTWaitg_of_issue hi ho (if_neg (by rw [hall]; decide))).trans (congrArg _ (if_neg (by simpa using hn)))

/-! Scalar arithmetic (R432, R433). -/

theorem aluDoes_of_exec {i : CoreId → Instr} {op : Nat} {f : Word → Word → Word} (h : ∀ (c : CoreId) (s : State), exec (i c) s = s.alu c op f) : aluDoes i op f :=
  fun s c _ _ _ hi ho => (h c s).trans (State.alu_of_issue hi ho f)

theorem fpuDoes_of_exec {i : CoreId → Instr} {op : Nat} {f : Nat → Nat → Nat → Nat} (h : ∀ (c : CoreId) (s : State), exec (i c) s = s.fpu c op f) : fpuDoes i op f :=
  fun s c _ _ _ hi ho => (h c s).trans (State.fpu_of_issue hi ho f)

theorem setFld_high (w : Word) (n : Nat) : setFld w 32 32 n = BitVec.ofNat 64 (w.toNat % 2 ^ 32 + n * 2 ^ 32) := by
  refine BitVec.eq_of_getLsbD_eq fun i hlt => ?_
  rw [setFld_getLsbD _ _ _ _ _ hlt, BitVec.getLsbD_ofNat, Nat.add_comm (w.toNat % _), Nat.mul_comm n, Nat.two_pow_add_eq_or_of_lt (Nat.mod_lt _ (by decide)), Nat.testBit_or,
    Nat.testBit_two_pow_mul, Nat.testBit_mod_two_pow, BitVec.testBit_toNat]
  by_cases h : 32 ≤ i
  · simp [h, hlt, Nat.not_lt.mpr h]
  · simp [h, hlt, Nat.lt_of_not_le h]

theorem execTMovhi_of_issue {s : State} {c : CoreId} {k : KernelSt} {x : CoreSt} {w : Word} (hi : s.issue c = some (k, x, w)) (ho : fld w 56 8 = 0x1B) :
    execTMovhi c s = .next (s.setCore c (x.setReg (rD w) (BitVec.ofNat 64 ((x.reg (rD w)).toNat % 2 ^ 32 + fld w 0 32 * 2 ^ 32))).next) := by
  rw [← setFld_high]
  exact State.tile_of_issue hi ho _

theorem execTMovi_of_issue {s : State} {c : CoreId} {k : KernelSt} {x : CoreSt} {w : Word} (hi : s.issue c = some (k, x, w)) (ho : fld w 56 8 = 0x1C) :
    execTMovi c s = .next (s.setCore c (x.setReg (rD w) (rImm w)).next) := State.tile_of_issue hi ho _

/-- Settles O18. -/
theorem integerInstructions : Obligations.IntegerInstructions := by
  refine ⟨aluDoes_of_exec fun _ _ => rfl, aluDoes_of_exec fun _ _ => rfl, aluDoes_of_exec fun _ _ => rfl, aluDoes_of_exec fun _ _ => rfl, aluDoes_of_exec fun _ _ => rfl,
    aluDoes_of_exec fun _ _ => rfl, aluDoes_of_exec fun _ _ => rfl, aluDoes_of_exec fun _ _ => rfl, aluDoes_of_exec fun _ _ => rfl,
    aluDoes_of_exec fun c s => ?min, aluDoes_of_exec fun c s => ?max, fun s c k x w hi => ⟨execTMovhi_of_issue hi, execTMovi_of_issue hi⟩⟩
  case min => simp only [← slt_iff]; rfl
  case max => simp only [← slt_iff]; rfl

section
variable (y : Num)

theorem Num.add_nan : y.add .nan = .nan := by cases y <;> rfl
theorem Num.mul_nan : y.mul .nan = .nan := by cases y <;> rfl
theorem Num.div_nan : y.div .nan = .nan := by cases y <;> rfl
theorem Num.lt_nan : y.lt .nan = false := by cases y <;> rfl

end

/-- Settles O19: each instruction rounds once what it computes exactly, and a NaN operand gives NaN. -/
theorem floatInstructions : Obligations.FloatInstructions :=
  ⟨fpuDoes_of_exec fun _ _ => rfl, fpuDoes_of_exec fun _ _ => rfl, fpuDoes_of_exec fun _ _ => rfl, fpuDoes_of_exec fun _ _ => rfl, fpuDoes_of_exec fun _ _ => rfl,
    fpuDoes_of_exec fun _ _ => rfl, fpuDoes_of_exec fun _ _ => rfl, fpuDoes_of_exec fun _ _ => rfl, fpuDoes_of_exec fun _ _ => rfl, by decide,
    fun y => ⟨rfl, y.add_nan, rfl, y.mul_nan, rfl, y.div_nan, rfl, y.lt_nan⟩, rfl⟩

end Sys2Proof.Machine
end

section
/-! PROOFS. Tile programs (13_tile_programs): loads, stores and transfers, engine and vector instructions, and sync operations (R424 to R429, R437 to R454). -/

namespace Sys2Proof.Machine

/-! Loads, stores and transfers (R424, R425, R437 to R441). -/

section
variable {s : State} {c : CoreId} {k : KernelSt} {x : CoreSt} {w : Word} (hi : s.issue c = some (k, x, w))
include hi

/-- The core's s[D] takes what LD read, and the core goes on. -/
theorem execTLd_of_space (ho : fld w 56 8 = 0x30) (hsp : fld w 37 3 ≠ 5) (hl : x.locked (regionsOf (fld w 37 3) 0 (ldAddr x w) (2 ^ fld w 35 2)) = false) :
    execTLd c s = .next (s.setCore c ((s.core c).setReg (rD w)
      (BitVec.ofNat 64 (readWrap (s.space c x (fld w 37 3) 0) (spaceSize (fld w 37 3)) (ldAddr x w) (2 ^ fld w 35 2)))).next) := by
  refine (State.tile_of_issue hi ho _).trans ?_
  simp only [if_pos hsp, hl, Bool.false_eq_true, if_false]

theorem execTLd_of_pool (ho : fld w 56 8 = 0x30) (hsp : fld w 37 3 = 5) {o y r : Nat} {z : Option (Nat × Nat)} {t : State} (hr : s.resolve k.part (ldAddr x w) (2 ^ fld w 35 2) = some (o, y))
    (ha : s.storeAhead c o y (2 ^ fld w 35 2) = false) (hk : s.kernelRead k (ldAddr x w) (2 ^ fld w 35 2) = (t, z, .ok r)) {u : State}
    (hu : t.flashGot (.kernel k.id) o (y / 4096) = u) : execTLd c s = .next (u.setCore c ((u.core c).setReg (rD w) (BitVec.ofNat 64 r)).next) := by
  subst hu
  refine (State.tile_of_issue hi ho _).trans ?_
  simp only [hsp, ne_eq, not_true_eq_false, if_false, hr, ha, Bool.false_eq_true, hk]

theorem execTSt_of_space (ho : fld w 56 8 = 0x31) (hsp : fld w 37 3 ≠ 5) (hl : x.locked (regionsOf (fld w 37 3) 0 (ldAddr x w) (2 ^ fld w 35 2)) = false) :
    execTSt c s = .next (s.spacePut c x.next (fld w 37 3) 0 (ldAddr x w) (2 ^ fld w 35 2) ((x.reg (rD w)).toNat % 256 ^ 2 ^ fld w 35 2)) := by
  refine (State.tile_of_issue hi ho _).trans ?_
  simp only [if_pos hsp, hl, Bool.false_eq_true, if_false]

theorem execTSt_of_pool (ho : fld w 56 8 = 0x31) (hsp : fld w 37 3 = 5) :
    execTSt c s = .next (s.coreStore c k x (ldAddr x w) (2 ^ fld w 35 2) ((x.reg (rD w)).toNat % 256 ^ 2 ^ fld w 35 2) 8) := by
  refine (State.tile_of_issue hi ho _).trans ?_
  simp only [hsp, ne_eq, not_true_eq_false, if_false]

theorem execTTst_of_free (ho : fld w 56 8 = 0x39) {off n : Nat} (hoff : (x.reg (fld w 46 5)).toNat / 64 * 64 = off) (hn : 64 * (fld w 29 10 + 1) = n)
    (hl : x.locked (regionsOf (fld w 43 3) 0 off n) = false) (hg : s.outstanding c x (fld w 26 3) < 64) :
    execTTst c s = .next (s.coreStore c k x ((x.reg (fld w 51 5)).toNat / 64 * 64) n (readWrap (s.space c x (fld w 43 3) 0) (spaceSize (fld w 43 3)) off n) (fld w 26 3)) := by
  subst hoff hn
  refine (State.tile_of_issue hi ho _).trans ?_
  simp only [hl, Bool.false_or, decide_eq_true_eq, if_neg (Nat.not_le.mpr hg)]

end

/-- A pool store that is done lets the core go on, and awaits its acceptance (R428, R430). -/
theorem State.coreStore_of_done {s t : State} {c : Nat} {k : KernelSt} {x : CoreSt} {a n v p o y : Nat} (hs : s.kernelStore (.core c) k a n v x.pos = (t, p, .done))
    (hr : t.resolve k.part a n = some (o, y)) (group : Nat) :
    s.coreStore c k x a n v group = (t.setCore c { x.next with xid := x.xid + 1 }).storeAwait c (group + 16 * x.xid) o y n := by
  simp only [State.coreStore, hs, hr]

/-- The i-th page that a TLD asks for (R439). -/
def tldPageOf (x : CoreSt) (w : Word) (i : Nat) : TldPage :=
  { xid := x.xid, group := fld w 30 3, addr := (x.s.getD (fld w 51 5) 0).toNat / 4096 * 4096 + 4096 * i, dsp := fld w 43 3, em := fld w 39 4,
    off := if fld w 43 3 = 1 then (fld w 39 4 + i) % 16 else ((x.s.getD (fld w 46 5) 0).toNat / 4096 * 4096 % spaceSize (fld w 43 3) + 4096 * i) % spaceSize (fld w 43 3) }

section
variable {s : State} {c : CoreId} {k : KernelSt} {x : CoreSt} {w : Word} (hi : s.issue c = some (k, x, w))
include hi

theorem execTTld_of_free (ho : fld w 56 8 = 0x38) {l : List TldPage} (hp : (List.range (fld w 33 6 + 1)).map (tldPageOf x w) = l)
    (hr : ∀ t ∈ l, s.resolve k.part t.addr 4096 ≠ none) (hg : s.outstanding c x (fld w 30 3) < 64) (hl : x.locked (l.flatMap (·.regions)) = false)
    (ha : ∀ t ∈ l, ∀ o y, s.resolve k.part t.addr 4096 = some (o, y) → s.storeAhead c o y 4096 = false) :
    execTTld c s = .next (s.setCore c
      { (if fld w 43 3 = 0 then x.fillSlots (fld w 39 4) ((x.s.getD (fld w 46 5) 0).toNat / 4096 * 4096 % spaceSize (fld w 43 3)) (min 196608 (4096 * (fld w 33 6 + 1))) false else x) with
        tld := x.tld ++ l, xid := x.xid + 1, pc := (x.pc + 1) % 8192, pos := 0 }) := by
  have hrange : ¬ l.any (fun t => (s.resolve k.part t.addr 4096).isNone) = true := by simpa using hr
  have hbusy : ¬ (decide (64 ≤ s.outstanding c x (fld w 30 3)) || x.locked (l.flatMap (·.regions))) = true := by simpa [hl] using hg
  have hahead : ¬ l.any (fun t => match s.resolve k.part t.addr 4096 with | some (o, y) => s.storeAhead c o y 4096 | none => false) = true := by
    rw [List.any_eq_true]
    rintro ⟨t, ht, h⟩
    split at h
    next o y hy => rw [ha t ht o y hy] at h; cases h
    next => cases h
  refine (State.tile_of_issue hi ho _).trans (congrArg _ ?_)
  subst hp
  refine (if_neg hrange).trans ((if_neg hbusy).trans ((if_neg hahead).trans (congrArg (s.setCore c) ?_)))
  rw [List.length_map, List.length_range]
  by_cases h : fld w 43 3 = 0
  · rw [if_pos h, if_pos h]
    rfl
  · rw [if_neg h, if_neg h]
    rfl

/-- A copy of a space takes its lines as they were before it (R441). -/
theorem execTXfer_of_free (ho : fld w 56 8 = 0x3A) (ht : x.tld = []) (hg : s.outstanding c x (fld w 19 3) < 64) :
    execTXfer c s = .next ((List.range (fld w 22 14 + 1)).foldl (fun t i => t.spacePut c (t.core c) (fld w 43 3) (fld w 36 4) ((x.reg (fld w 51 5)).toNat / 64 * 64 + 64 * i) 64
      (readWrap (s.space c x (fld w 40 3) (fld w 36 4)) (spaceSize (fld w 40 3)) ((x.reg (fld w 46 5)).toNat / 64 * 64 + 64 * i) 64)) (s.setCore c x.next)) := by
  have hl (l : List (Nat × Nat × Nat)) : x.locked l = false := by rw [CoreSt.locked, ht]; rfl
  refine (State.tile_of_issue hi ho _).trans ?_
  simp only [hl, Bool.false_or, decide_eq_true_eq, if_neg (Nat.not_le.mpr hg), Nat.mul_div_cancel_left _ (show 0 < 64 by decide)]
  rw [← List.map_prod_left_eq_zip, List.foldl_map]

end

/-- Settles O20. -/
theorem tileMemoryInstructions : Obligations.TileMemoryInstructions := by
  intro s c k x w hi on n sp a v
  refine ⟨fun ho hsp => execTLd_of_space hi ho (by omega), fun ho hsp o y t z r hr ha hk => execTLd_of_pool hi ho hsp hr ha hk rfl,
    fun ho hsp hl => (execTSt_of_space hi ho (by omega) hl).trans ?loc, fun ho hsp hl => (execTSt_of_space hi ho (by omega) hl).trans ?sh,
    fun ho hsp t p o y hk hr => (execTSt_of_pool hi ho hsp).trans (congrArg _ (State.coreStore_of_done hk hr 8)),
    fun ho hl hg t p o y hk hr => (execTTst_of_free hi ho rfl rfl hl hg).trans (congrArg _ (State.coreStore_of_done hk hr _)),
    fun ho hr hg hl ha => execTTld_of_free hi ho rfl hr hg hl ha, fun ho ht hg => execTXfer_of_free hi ho ht hg⟩
  case loc =>
    rw [show fld w 37 3 = 2 from hsp]
    rfl
  case sh =>
    rw [show fld w 37 3 = 3 from hsp]
    rfl

/-! The engine (R442 to R449). -/

section
variable {s : State} {c : CoreId} {k : KernelSt} {x : CoreSt} {w : Word} (hi : s.issue c = some (k, x, w))
include hi

theorem execTMma_of_free (ho : fld w 56 8 = 0x40) (hr : fld w 7 1 = 0) {row} {regs more : List (Nat × Nat × Nat)} {cols} (hw : mmaWeights x w = (row, false, regs))
    (hc : mmaColumns x w = (cols, more)) (hl : x.locked (regs ++ more ++ regionsOf 4 0 (16384 * fld w 51 3) 16384) = false) {p : CoreSt × Nat × Nat}
    (hp : (List.range 64).foldl (fun (a : CoreSt × Nat × Nat) r =>
        (a.1.putRow (fld w 51 3) r (mmaRow (a.1.accRow (fld w 51 3) r) (row r) cols (fld w 8 3 == 3 || fld w 8 3 == 4)).1,
          a.2.1 ||| (mmaRow (a.1.accRow (fld w 51 3) r) (row r) cols (fld w 8 3 == 3 || fld w 8 3 == 4)).2.1,
          a.2.2 + (mmaRow (a.1.accRow (fld w 51 3) r) (row r) cols (fld w 8 3 == 3 || fld w 8 3 == 4)).2.2)) (x, 0, 0) = p) :
    execTMma c s = .next (((s.setCore c { p.1.addFlags (fld w 51 3) p.2.1 with glare := (p.1.addFlags (fld w 51 3) p.2.1).glare + p.2.2 }.next).countGlare k.id p.2.2).kernelFlags k.id p.2.1) := by
  refine (State.tile_of_issue hi ho _).trans ?_
  simp only [hw, hc, hl, hr, Bool.false_eq_true, if_false, false_and, Nat.zero_ne_one, hp]

theorem execTCvt_of_free (ho : fld w 56 8 = 0x48) {off nc ob : Nat} (hoff : (x.reg (fld w 41 5)).toNat / 64 * 64 = off) (hnc : fld w 19 6 + 1 = nc) (hob : cvtBytes (fld w 33 3) = ob)
    (hl : x.locked (regionsOf (fld w 50 3) (fld w 46 4) off (ob * nc) ++ regionsOf 4 0 (16384 * fld w 53 3) 16384) = false) :
    execTCvt c s = .next ((List.range nc).foldl (fun u i => u.spacePut c (u.core c) (fld w 50 3) (fld w 46 4) (off + ob * i) ob
      (columnBytes (fld w 33 3) ((List.range 64).map (fun r => fieldOf (x.accRow (fld w 53 3) r) (4 * (fld w 25 6 + i)) 4))
        (fun r => if k.arg 5 1 = 1 ∧ fld w 31 2 ≠ 0 then some (randomG k.seed k.launchNo ((x.reg (fld w 36 5)).toNat + 64 * (fld w 25 6 + i) + r)) else none)))
      (s.setCore c x.next)) := by
  subst hoff hnc hob
  refine (State.tile_of_issue hi ho _).trans ?_
  simp only [hl, Bool.false_eq_true, if_false, List.map_map, Function.comp_def]

end

/-- Settles O22. -/
theorem engineInstructions : Obligations.EngineInstructions := by
  intro s c k x w hi
  refine ⟨?mma, fun ho hl => execTCvt_of_free hi ho rfl rfl rfl hl⟩
  intro ho hr row regs cols more hw hc t hl wide out
  generalize hp : out = p
  exact execTMma_of_free hi ho hr hw hc hl hp

/-! Vector operations (R450 to R453). -/

section
variable {s : State} {c : CoreId} {k : KernelSt} {x : CoreSt} {w : Word} (hi : s.issue c = some (k, x, w)) (ho : fld w 56 8 = 0x60)
  (hl : x.locked (tileRegions [(vopOf x w).d, (vopOf x w).a, (vopOf x w).b]) = false)
include hi ho hl

/-- A VOP that no transfer of the core holds carries out its function. -/
theorem State.vop_of_issue {fn : Nat} (hf : fld w 51 5 = fn) (f : State → KernelSt → CoreSt → Vop → State) : s.vop c fn f = .next (f s k x (vopOf x w)) := by
  refine (State.tile_of_issue hi ho _).trans ?_
  simp only [hf, hl, ne_eq, not_true_eq_false, Bool.false_eq_true, false_or, if_false]

theorem State.vopReduce_of_issue {fn : Nat} (hf : fld w 51 5 = fn) (f : CoreSt → Vop → Nat) :
    s.vopReduce c fn f = .next (s.setCore c (x.setReg (vopOf x w).sb (BitVec.ofNat 64 (f x (vopOf x w)))).next) := State.vop_of_issue hi ho hl hf _

theorem execTVopClr_of_issue (hf : fld w 51 5 = 12) {y : CoreSt} (hy : (List.range (vopOf x w).rows).foldl (fun (y : CoreSt) i => y.putRow (vopOf x w).d ((vopOf x w).row0 + i) 0) x = y) :
    execTVopClr c s = .next (s.setCore c
      { y with flags := if (vopOf x w).row0 = 0 ∧ (vopOf x w).rows = 64 then y.flags - y.flags / 4 ^ (vopOf x w).d % 4 * 4 ^ (vopOf x w).d else y.flags : CoreSt }.next) := by
  subst hy
  exact State.vop_of_issue hi ho hl hf _

theorem execTVopDot_of_issue (hf : fld w 51 5 = 13) : execTVopDot c s = .next (s.setCore c (x.setReg (vopOf x w).sb (BitVec.ofNat 64
    ((vopOf x w).reduce (fun r => (vopOf x w).lanes (x.accRow (vopOf x w).a r)) (fun r => (vopOf x w).lanes (x.accRow (vopOf x w).b r))))).next) :=
  State.vopReduce_of_issue hi ho hl hf _

theorem execTVopRsum_of_issue (hf : fld w 51 5 = 14) : execTVopRsum c s = .next (s.setCore c (x.setReg (vopOf x w).sb (BitVec.ofNat 64
    ((vopOf x w).reduce (fun r => (vopOf x w).lanes (x.accRow (vopOf x w).a r)) (fun _ => List.replicate (256 / (vopOf x w).wb) ((vopOf x w).f.code (.fin false 1 0)))))).next) :=
  State.vopReduce_of_issue hi ho hl hf _

end

/-- The largest of the lanes, which the first of them starts. -/
theorem foldl_max_cons (m : Num) (l : List Num) :
    (m :: l).foldl (fun (m : Option Num) y => some (match m with | none => y | some z => z.max y)) none = some (l.foldl (fun a b => a.max b) m) := by
  induction l generalizing m with
  | nil => rfl
  | cons y l ih => exact ih (m.max y)

theorem execTVopRmax_of_issue {s : State} {c : CoreId} {k : KernelSt} {x : CoreSt} {w : Word} (hi : s.issue c = some (k, x, w)) (ho : fld w 56 8 = 0x60)
    (hl : x.locked (tileRegions [(vopOf x w).d, (vopOf x w).a, (vopOf x w).b]) = false) (hf : fld w 51 5 = 15) {m : Num} {l : List Num}
    (hm : (List.range (vopOf x w).rows).flatMap (fun i => ((vopOf x w).lanes (x.accRow (vopOf x w).a ((vopOf x w).row0 + i))).map (vopOf x w).f.num) = m :: l) :
    execTVopRmax c s = .next (s.setCore c (x.setReg (vopOf x w).sb (BitVec.ofNat 64 ((vopOf x w).f.code (l.foldl (fun a b => a.max b) m)))).next) := by
  refine (State.vopReduce_of_issue hi ho hl hf _).trans ?_
  rw [hm]
  exact congrArg (fun r : Option Num => Host.Outcome.next (s.setCore c (x.setReg (vopOf x w).sb (BitVec.ofNat 64 ((vopOf x w).f.code (r.getD .nan)))).next)) (foldl_max_cons m l)

theorem laneDoes_of_exec {i : CoreId → Instr} {fn : Nat} {f : Fmt → Nat → Nat → Nat → Nat} (h : ∀ (c : CoreId) (s : State), exec (i c) s = s.vopMap c fn f) : laneDoes i fn f := by
  intro s c k x w hi ho hf v hl row out
  refine (h c s).trans ((State.vop_of_issue hi ho hl hf _).trans ?_)
  generalize hp : out = p
  simp only [out, row, v] at hp
  simp only [hp]
  rfl

/-- Settles O23. That MAX and MIN are NaN where a lane is NaN and how they order zeros, and that ABS, NEG and MOV are no arithmetic, are the model's choices (log 30). -/
theorem vectorInstructions : Obligations.VectorInstructions := by
  refine ⟨laneDoes_of_exec fun _ _ => rfl, laneDoes_of_exec fun _ _ => rfl, laneDoes_of_exec fun _ _ => rfl, laneDoes_of_exec fun _ _ => rfl, laneDoes_of_exec fun _ _ => rfl,
    laneDoes_of_exec fun _ _ => rfl, laneDoes_of_exec fun _ _ => rfl, laneDoes_of_exec fun _ _ => rfl, laneDoes_of_exec fun _ _ => rfl, laneDoes_of_exec fun _ _ => rfl,
    laneDoes_of_exec fun _ _ => rfl, laneDoes_of_exec fun _ _ => rfl, ?_⟩
  intro s c k x w hi ho v hl put
  refine ⟨fun hf => ?clr, execTVopDot_of_issue hi ho hl, execTVopRsum_of_issue hi ho hl, fun hf m l hm => execTVopRmax_of_issue hi ho hl hf hm⟩
  case clr =>
    intro y
    generalize hy : y = z
    exact execTVopClr_of_issue hi ho hl hf hy

/-! Sync operations (R454, R471). -/

theorem exec_syncCommand (s : State) {op : Nat} (hop : op < 8) (src : SyncSrc) : exec (syncCommand op src) s = .next (s.syncCmd op src) := by
  interval_cases op <;> rfl

theorem State.coreSync_of_issue {s : State} {c op : Nat} {k : KernelSt} {x : CoreSt} {w : Word} {r : PartRec} (hi : s.issue c = some (k, x, w)) (ho : fld w 56 8 = 0x70) (hop : fld w 0 4 = op)
    (hs : op = 2 ∨ op = 3 ∨ op = 5 ∨ s.settled c x = true) (hr : (s.part k.part).cfg = some r) (hn : (x.reg (rA w)).toNat < r.syncCount) (src : SyncSrc) :
    s.coreSync c op src = s.syncOp (r.syncBase + (x.reg (rA w)).toNat)
      { op := op, value := x.reg (rB w), expected := x.reg (fld w 35 5), timeoutUs := 0, part := k.part, queue := k.queue, src := src } := by
  have hgo : (!(op == 2 || op == 3 || op == 5) && !s.settled c x) = false := by
    rcases hs with rfl | rfl | rfl | hs
    · rfl
    · rfl
    · rfl
    · rw [hs, Bool.not_true, Bool.and_false]
  have hcode : ¬ (fld w 56 8 ≠ 0x70 ∨ fld w 0 4 ≠ op) := by simp [ho, hop]
  simp only [State.coreSync, hi, if_neg hcode, hgo, Bool.false_eq_true, if_false, hr, if_neg (Nat.not_le.mpr hn)]

theorem State.syncCmd_of_starts {s : State} {q : QueueId} {n p o op : Nat} {d : DescSt} (h : descStarts s q n p d) (ht : d.fld 0 1 = 7) (hop : d.fld 0x12 1 = op)
    (hr : (withStarted s q d).objRef p (d.fld 0x10 2) = .inl o) :
    s.syncCmd op (.desc q n) = (withStarted s q d).syncOp o
      { op := op, value := BitVec.ofNat 64 (d.fld 0x18 8), expected := BitVec.ofNat 64 (d.fld 0x20 8), timeoutUs := d.fld 0x14 4, part := p, queue := q, src := .desc q n } := by
  have hstart := State.startDesc_of_starts h (types := (· == 7)) (by rw [ht]; rfl)
  have hsame : ¬ (d.fld 0 1 = 7 ∧ d.fld 0x12 1 ≠ op ∧ d.fld 0x12 1 ≤ 7) := fun hn => hn.2.1 hop
  simp only [State.syncCmd, h.2.1, if_neg hsame, hstart, DescSt.fld_started, hr]

/-- Settles O24. -/
theorem syncCommandsReachTheirObject : Obligations.SyncCommandsReachTheirObject := by
  intro s op hlt
  refine ⟨fun c k x w r hi ho hop hs hr hn => ?core, fun q n p o d hq hd ht hop hm hh hf hr => ?desc⟩
  case core => exact (exec_syncCommand s hlt _).trans (congrArg _ (State.coreSync_of_issue hi ho hop hs hr hn _))
  case desc => exact (exec_syncCommand s hlt _).trans (congrArg _ (State.syncCmd_of_starts ⟨hq, hd, hm, hh, hf⟩ ht hop hr))

end Sys2Proof.Machine
end

section
/-! PROOFS. Queues and synchronisation (14_queues_sync): synchronisation objects (R482 to R486, R495). -/

namespace Sys2Proof.Machine

/-! An object stored as it is leaves a canonical table alone. -/

section
variable {α : Type} {k : Nat} {v : α}

theorem Store.mem_of_find : ∀ {t : Store α}, Store.find k t = some v → (k, v) ∈ t
  | [], h => by cases h
  | (j, w) :: t, h => by
    unfold Store.find at h
    split at h
    next hj => cases h; exact hj ▸ List.mem_cons_self
    next =>
      split at h
      next => cases h
      next => exact List.mem_cons_of_mem _ (Store.mem_of_find h)

theorem Store.put_of_find : ∀ {t : Store α}, Store.find k t = some v → Store.put k v t = t
  | [], h => by cases h
  | (j, w) :: t, h => by
    unfold Store.find at h
    unfold Store.put
    split at h
    next hj => cases h; rw [if_neg (by omega), if_pos hj, hj]
    next hj =>
      split at h
      next => cases h
      next hk => rw [if_neg hk, if_neg hj, Store.put_of_find h]

theorem Store.drop_of_find : ∀ {t : Store α}, Store.find k t = none → Store.drop k t = t
  | [], _ => rfl
  | (j, w) :: t, h => by
    unfold Store.find at h
    unfold Store.drop
    split at h
    next => cases h
    next hj =>
      rw [if_neg hj]
      split at h
      next hk => rw [if_pos hk]
      next hk => rw [if_neg hk, Store.drop_of_find h]

theorem Store.set_get_self [DecidableEq α] {d : α} {t : Store α} (h : Store.wf (fun _ => d) t = true) : Store.set d k (Store.get d k t) t = t := by
  unfold Store.set Store.get
  cases hf : Store.find k t with
  | none => exact (if_pos rfl).trans (Store.drop_of_find hf)
  | some v =>
    simp only [Store.wf, Bool.and_eq_true, List.all_eq_true, decide_eq_true_eq] at h
    exact (if_neg (h.2 _ (Store.mem_of_find hf))).trans (Store.put_of_find hf)

end

/-! An object that nothing awaits, of a partition that no mirror serves (R482 to R487). -/

section
variable {s : State} {k : Nat}

@[simp] theorem State.setObj_obj (h : s.Canonical) : s.setObj k (s.obj k) = s := by
  have hs : Store.set {} k (s.obj k) s.sync = s.sync := Store.set_get_self h.sync
  unfold State.setObj
  rw [hs]

theorem State.setObj_canonical (h : s.Canonical) (v : SyncObj) : (s.setObj k v).Canonical := (State.setObj_keeps (.refl s) k v).canonical h

theorem State.wakeWaits_of_idle (h : s.Canonical) (hw : (s.obj k).waits = []) : s.wakeWaits k = s := by
  have ho : { s.obj k with waits := [] } = s.obj k := by rw [← hw]
  simp only [State.wakeWaits, hw, List.filter_nil, List.foldl_nil]
  exact (congrArg (s.setObj k) ho).trans (State.setObj_obj h)

theorem State.setValue_of_idle (h : s.Canonical) (hw : (s.obj k).waits = []) (v : Word) : s.setValue k v = s.setObj k { s.obj k with value := v } :=
  State.wakeWaits_of_idle (State.setObj_canonical h _) (by rw [State.obj_setObj_self h]; exact hw)

theorem State.syncWait_of_idle (hw : (s.obj k).waits = []) (r : SyncReq) (kind : WaitKind) {w : SyncWait}
    (hn : w = { src := r.src, kind := kind, part := r.part, queue := r.queue, deadline := if r.timeoutUs = 0 then none else some (s.time + 1000 * r.timeoutUs) }) :
    s.syncWait k r kind = match r.src with
      | .core c => (s.setObj k { s.obj k with waits := [w] }).setCore c { (s.setObj k { s.obj k with waits := [w] }).core c with inSync := true }
      | .desc _ _ => s.setObj k { s.obj k with waits := [w] } := by
  subst hn
  simp only [State.syncWait, hw, List.nil_append] <;> rfl

section
variable (hm : ∀ p, s.syncOwner k = some p → s.mirRole p ≠ 1)
include hm

theorem State.shipObj_of_unmirrored : s.shipObj k = s := by
  unfold State.shipObj
  split
  next => rfl
  next p hp => simp [State.shipsLive, hm p hp]

theorem State.syncChanged_of_unmirrored (src : SyncSrc) (st v : Nat) : s.syncChanged k src st v = s.syncDone src st v := by
  unfold State.syncChanged
  simp only [State.shipObj_of_unmirrored hm]
  split
  next p hp => simp [State.mirSync, hm p hp]
  next => rfl

/-- A change of the object is reported at once. -/
theorem State.changed_of_unmirrored (v : SyncObj) (src : SyncSrc) (st x : Nat) : (s.setObj k v).syncChanged k src st x = (s.setObj k v).syncDone src st x :=
  State.syncChanged_of_unmirrored (s := s.setObj k v) hm src st x

theorem State.changedValue_of_idle (h : s.Canonical) (hw : (s.obj k).waits = []) (v : Word) (src : SyncSrc) (st x : Nat) :
    (s.setValue k v).syncChanged k src st x = (s.setObj k { s.obj k with value := v }).syncDone src st x := by
  rw [State.setValue_of_idle h hw, State.changed_of_unmirrored hm]

end

end

/-- Settles O25. -/
theorem syncOperationsOnAnIdleObject : Obligations.SyncOperationsOnAnIdleObject := by
  intro s k r hc hw hm o done wait
  have hset (v : Word) (x : Nat) : (s.setValue k v).syncChanged k r.src stDone x = done { o with value := v } 0 x := State.changedValue_of_idle hm hc hw v r.src 0 x
  have hput (v : SyncObj) (st x : Nat) : (s.setObj k v).syncChanged k r.src st x = done v st x := State.changed_of_unmirrored hm v r.src st x
  have hwait (kind : WaitKind) : s.syncWait k r kind = wait kind := State.syncWait_of_idle hw r kind rfl
  have hnone : o.lockWaiter = none := by
    unfold SyncObj.lockWaiter
    rw [hw]
    rfl
  have hlock {st : Nat} (hl : o.lock ≠ 1) (hst : (if o.lock = 2 then stAbandoned else stDone) = st) :
      s.syncOp k { r with op := 5 } = done { o with lock := 1, owner := r.part * 4096 + r.queue % 4096 } st st := by
    subst hst
    exact (if_neg hl).trans (hput ..)
  have hop {n : Nat} (h : r.op = n) : s.syncOp k r = s.syncOp k { r with op := n } := by rw [← h]
  refine ⟨fun h => (hop h).trans ?set, fun h => (hop h).trans ?add, fun h => (hop h).trans ?ge, fun h => (hop h).trans ?eq, fun h => (hop h).trans ?cas,
    fun h hl => (hop h).trans ?free, fun h hl => (hop h).trans ?abandoned, fun h hl => (hop h).trans ?held, fun h => (hop h).trans ?unlock, fun h => (hop h).trans ?arrive⟩
  case set => exact hset ..
  case add => exact hset ..
  case arrive =>
    simp only [State.syncOp]
    exact hset ..
  case ge => exact congrArg (ite _ _) (hwait _)
  case eq => exact congrArg (ite _ _) (hwait _)
  case cas => exact congrArg (ite _ · _) (hset ..)
  case free => exact hlock (by omega) (if_neg (by omega))
  case abandoned => exact hlock (by omega) (if_pos hl)
  case held => exact (if_pos hl).trans (congrArg (ite _ _) (hwait _))
  case unlock =>
    by_cases hu : o.lock = 1 ∧ o.owner = r.part * 4096 + r.queue % 4096
    · rw [if_pos hu]
      refine (if_pos hu).trans ?_
      rw [hnone]
      exact hput ..
    · rw [if_neg hu]
      exact if_neg hu

/-! Barriers (R486): VALUE holds the generation in its upper half and the count in its lower. -/

section
variable {target g n : Nat} (ht : target < 2 ^ 32) (hg : g < 2 ^ 32)
include ht hg

/-- An arrival in generation `g` after `n` others. -/
theorem barrierNext_ofNat (hn : n < max target 1) :
    barrierNext (BitVec.ofNat 64 (g * 2 ^ 32 + n)) target =
      if n + 1 = max target 1 then BitVec.ofNat 64 ((g + 1) % 2 ^ 32 * 2 ^ 32) else BitVec.ofNat 64 (g * 2 ^ 32 + (n + 1)) := by
  have hv : (BitVec.ofNat 64 (g * 2 ^ 32 + n)).toNat = g * 2 ^ 32 + n := by rw [BitVec.toNat_ofNat, Nat.mod_eq_of_lt (by omega)]
  have hcount : (g * 2 ^ 32 + n) % 2 ^ 32 = n := by omega
  have hgen : (g * 2 ^ 32 + n) / 2 ^ 32 = g := by omega
  have hturn : max target 1 ≤ n + 1 ↔ n + 1 = max target 1 := by omega
  simp only [barrierNext, hv, hcount, hgen, hturn]

theorem barrierNext_iterate (hn : n < max target 1) : (fun v => barrierNext v target)^[n] (BitVec.ofNat 64 (g * 2 ^ 32)) = BitVec.ofNat 64 (g * 2 ^ 32 + n) := by
  induction n with
  | zero => rw [Function.iterate_zero_apply, Nat.add_zero]
  | succ n ih => rw [Function.iterate_succ_apply', ih (by omega), barrierNext_ofNat ht hg (by omega), if_neg (by omega)]

end

/-- Settles O26, by induction on the number of arrivals. -/
theorem barrierGenerationsTurn : Obligations.BarrierGenerationsTurn := by
  intro target g n ht hg
  refine ⟨barrierNext_iterate ht hg, ?_⟩
  obtain ⟨m, hm⟩ : ∃ m, max target 1 = m + 1 := ⟨max target 1 - 1, by omega⟩
  rw [hm, Function.iterate_succ_apply', barrierNext_iterate ht hg (by omega), barrierNext_ofNat ht hg (by omega), if_pos hm.symm]

/-! Deadlines and sharing (R483, R484, R495). -/

theorem State.endWaits_of_none {s : State} {f : Nat → SyncWait → Bool} (h : ∀ k, (s.obj k).waits.filter (f k) = []) (st : Nat) : s.endWaits f st = s :=
  List.foldl_fixed' (fun e => by simp only [h, List.isEmpty_nil, if_true]) _

theorem State.writeShare_of_idle {s : State} {k : Nat} (h : s.Canonical) (hw : (s.obj k).waits = []) (hm : ∀ p, s.syncOwner k = some p → s.mirRole p ≠ 1) (m : Nat) :
    s.writeShare k m = s.setObj k { s.obj k with share := m % 65536 } := by
  simp only [State.writeShare]
  rw [State.endWaits_of_none]
  · exact State.shipObj_of_unmirrored (s := s.setObj k { s.obj k with share := m % 65536 }) hm
  · intro j
    by_cases hj : j = k
    · rw [hj, State.obj_setObj_self h, hw]
      rfl
    · rw [beq_false_of_ne hj]
      exact List.filter_false _

/-- A wait with the first of an object's deadlines ends there. -/
theorem execSyncWaitTimeout_of_first {s : State} {k d : Nat} {o : SyncObj} {w : SyncWait} {l : List SyncWait} (hs : s.sync = [(k, o)]) (hw : o.waits = w :: l) (hd : w.deadline = some d) :
    execSyncWaitTimeout w.src s = .next (((s.reach d).setObj k { o with waits := o.waits.filter (fun v => v.src != w.src) }).syncDone w.src stTimeout
      (if w.kind = .lock then stTimeout else o.value.toNat)) := by
  have hobj : s.sync.find? (fun e => e.2.waits.any (fun v => v.src == w.src && v.deadline.isSome)) = some (k, o) := by
    simp [hs, hw, hd]
  have hwait : o.waits.find? (fun v => v.src == w.src) = some w := by simp [hw]
  simp only [execSyncWaitTimeout, hobj, hwait, hd, Option.getD_some]

/-- Settles O27. That a deadline is an absolute module time, to which its expiry moves the module, is the model's choice (log 63). -/
theorem syncTimeoutsAndSharing : Obligations.SyncTimeoutsAndSharing :=
  ⟨fun _ _ _ _ _ _ hs hw hd => execSyncWaitTimeout_of_first hs hw hd, fun _ _ m hw hc hm => congrArg _ (State.writeShare_of_idle hc hw hm m.toNat)⟩

end Sys2Proof.Machine
end

section
/-! PROOFS. Queues and synchronisation (14_queues_sync): queue control, doorbells, fetches, and the start and end of descriptors (R410, R462 to R468, R470 to R480). -/

namespace Sys2Proof.Machine

/-! Queue control (R410, R462, R468). -/

section
variable {s : State} {q : QueueId} {p : Nat}

theorem State.shipTable_of_unmirrored (hm : s.mirRole p ≠ 1) : s.shipTable p = s := by
  simp [State.shipTable, State.shipsLive, hm]

section
variable (ho : s.queueOwner q = some p)
include ho

theorem execQueueEnable_of_disabled (he : s.qEnabled q = false) : execQueueEnable q s = .next (s.enableQueue p q) := by
  simp only [execQueueEnable, ho, he, Bool.false_eq_true, if_false]

theorem execQueueDisable_of_enabled (he : s.qEnabled q = true) : execQueueDisable q s = .next (((s.wrB .qdCtrl 0 false q).wrB .qdStatus 0 false q).shipTable p) := by
  simp only [execQueueDisable, ho, State.disableQueue, he, if_true]

theorem execQdSeedWrite_of_owner (v : Word) : execQdSeedWrite q v s = .next (((s.wr .qdSeed v q).wr .qdLaunchNo 0 q).shipTable p) := by
  simp only [execQdSeedWrite, ho, State.writeSeed]

end

end

/-- Settles O28. -/
theorem queueControlWrites : Obligations.QueueControlWrites := by
  intro s q p ho
  refine ⟨fun he hr => (execQueueEnable_of_disabled ho he).trans (congrArg _ ?sound), fun he hr => (execQueueEnable_of_disabled ho he).trans (congrArg _ ?bad),
    execQueueDisable_of_enabled ho, execQdSeedWrite_of_owner ho, State.shipTable_of_unmirrored⟩
  case sound => exact if_neg (not_not_intro hr)
  case bad => exact if_pos hr

/-! Doorbells (R463). -/

/-- Settles O29. -/
theorem doorbellsMoveTheTail : Obligations.DoorbellsMoveTheTail := by
  intro s link ld q tail p hc hb
  have hbell : exec (.doorbell link ld q tail) s = .next (if s.queueOwner q = some p then s.doorbell p q link ld tail.toNat else s) := congrArg _ (State.onBar0_bound hc hb _ _)
  refine ⟨fun ho => ?other, fun h => ?held, fun ho hq he hm => ?_⟩
  case other => rw [hbell, if_neg ho]
  case held =>
    have hgate : (s.quarantined p || !s.qEnabled q || s.mirRole p == 2) = true := by
      rcases h with h | h <;> simp [h]
    rw [hbell, State.doorbell, if_pos hgate, ite_self]
  have hgate : ¬ (s.quarantined p || !s.qEnabled q || s.mirRole p == 2) = true := by simp [hq, he, hm]
  refine ⟨fun hn => ?fits, fun hn => ?overrun⟩ <;> rw [hbell, if_pos ho, State.doorbell, if_neg hgate]
  case fits => exact congrArg _ (if_pos hn)
  case overrun => exact congrArg _ (if_neg (Nat.not_le.mpr hn))

/-! Fetches (R464, R466). -/

/-- Settles O30. -/
theorem fetchTakesTheHeadDescriptor : Obligations.FetchTakesTheHeadDescriptor := by
  intro s q p ho he hh h hne
  have hq : Fin.ofNat 4096 q.val = q := Fin.ofNat_val_eq_self q
  have hgate : ¬ (!s.qEnabled q || s.fetchHeld p || h == (s.rd .qdTail q).toNat) = true := by simp [he, hh, hne]
  have hfetch : exec (.descFetch q) s = .next (s.fetchDesc p q) := by
    change execDescFetch q s = _
    simp only [execDescFetch, ho]
  refine ⟨fun t v hg => ?ok, fun t w hg => ?bad⟩ <;> refine hfetch.trans (congrArg _ ((if_neg hgate).trans ?_))
  case ok =>
    change s.getBytes (reqComp p) p (s.slotAddr q (s.rd .qdHead q).toNat) 64 = _ at hg
    simp only [hg, hq]
    rfl
  case bad =>
    change s.getBytes (reqComp p) p (s.slotAddr q (s.rd .qdHead q).toNat) 64 = _ at hg
    simp only [hg]

/-! Descriptors that end at their start, flushes and scrubs (R213, R467, R470, R473, R476). -/

section
variable {s : State} {q : QueueId} {n p : Nat} {d : DescSt}

/-- A descriptor with a bad field ends where it would start, with the first such field's status and offset. -/
theorem State.startDesc_of_fails (ho : s.queueOwner q = some p) (hd : s.desc q n = some d) (hm : s.mayStart q d = true) (hh : s.startHeld p = false) {off st : Nat} {l : List (Nat × Nat)}
    (hf : s.descFails p { d with started := true, startAt := s.time } = (off, st) :: l) {types : Nat → Bool} (ht : types (d.fld 0 1) = true) :
    s.startDesc q n types = some (p, s.endDesc q { d with started := true, startAt := s.time } st off, none) := by
  simp only [State.startDesc, ho, hd, ht, hm, hh, Bool.not_true, Bool.or_self, Bool.false_eq_true, if_false, hf]

theorem execDescNop_of_starts (h : descStarts s q n p d) (ht : d.fld 0 1 = 0) :
    execDescNop q n s = .next ((withStarted s q d).endDesc q { d with started := true, startAt := s.time } stDone 0) := by
  have hstart := State.startDesc_of_starts h (types := fun t => t == 0 || decide (7 < t)) (by rw [ht]; rfl)
  simp only [execDescNop, hstart]

theorem execDescFlush_of_starts (h : descStarts s q n p d) (ht : d.fld 0 1 = 6) {o a : Nat} (hr : (withStarted s q d).resolve p (d.fld 0x10 8) (d.fld 0x18 8) = some (o, a)) :
    execDescFlush q n s = .next ((withStarted s q d).startFlush (.desc q n) (fun x => x.part == o && decide (a ≤ x.page * 4096 ∧ x.page * 4096 < a + d.fld 0x18 8))) := by
  have hstart := State.startDesc_of_starts h (types := (· == 6)) (by rw [ht]; rfl)
  simp only [execDescFlush, hstart, DescSt.fld_started, hr]
  rfl

theorem execDescScrub_of_starts (h : descStarts s q n p d) (ht : d.fld 0 1 = 5) : execDescScrub q n s = .next (withStarted s q d) := by
  have hstart := State.startDesc_of_starts h (types := (· == 5)) (by rw [ht]; rfl)
  simp only [execDescScrub, hstart]

section
variable {who : FlushWho} (hr : s.flushReady who = true)
include hr

theorem execFlushComplete_of_part {i : PartId} (hw : who = .part i) : execFlushComplete who s = .next ((s.flushEnd who).clrB .lnsPFlushCtrl 0 i) := by
  subst hw
  simp only [execFlushComplete, hr, Bool.not_true, Bool.false_eq_true, if_false]

theorem execFlushComplete_of_desc (hw : who = .desc q n) (hd : s.desc q n = some d) : execFlushComplete who s = .next ((s.flushEnd who).endDesc q d stDone 0) := by
  subst hw
  have hd' : (s.flushEnd (.desc q n)).desc q n = some d := hd
  simp only [execFlushComplete, hr, Bool.not_true, Bool.false_eq_true, if_false, hd']

end

end

/-- Settles O31. -/
theorem descriptorsStartAndEnd : Obligations.DescriptorsStartAndEnd := by
  refine ⟨fun s q n p d h => ⟨execDescNop_of_starts h, fun ht o a hr => execDescFlush_of_starts h ht hr, execDescScrub_of_starts h⟩,
    fun s q n p off st d l ho hd hm hh hf => ?fails, fun s who hr => ⟨fun i hw => execFlushComplete_of_part hr hw, fun q n d hw hd => execFlushComplete_of_desc hr hw hd⟩⟩
  have hstart {types : Nat → Bool} := State.startDesc_of_fails (types := types) ho hd hm hh hf
  refine ⟨fun ht => ?nop, fun ht => ?scrub, fun ht => ?flush, fun ht => ?copy, fun ht => ?fill⟩
  case nop =>
    have hty : (d.fld 0 1 == 0 || decide (7 < d.fld 0 1)) = true := by
      rcases ht with ht | ht <;> simp [ht]
    change execDescNop q n s = _
    simp only [execDescNop, hstart (types := fun t => t == 0 || decide (7 < t)) hty]
  case scrub =>
    change execDescScrub q n s = _
    simp only [execDescScrub, hstart (types := (· == 5)) (beq_iff_eq.mpr ht)]
  case flush =>
    change execDescFlush q n s = _
    simp only [execDescFlush, hstart (types := (· == 6)) (beq_iff_eq.mpr ht)]
  case copy =>
    change execDescCopy q n s = _
    simp only [execDescCopy, State.descMove, hstart (types := (· == 2)) (beq_iff_eq.mpr ht)]
  case fill =>
    change execDescFill q n s = _
    simp only [execDescFill, State.descMove, hstart (types := (· == 3)) (beq_iff_eq.mpr ht)]

end Sys2Proof.Machine
end

section
/-! PROOFS. Queues and synchronisation (14_queues_sync): completions, and the transfers of copies and fills (R347, R474, R475, R477, R480). -/

namespace Sys2Proof.Machine

/-! Completion (R477, R480). -/

/-- A register of 32 bits holds 32 bits. -/
theorem State.rd_lt {s : State} (h : s.regs.wf = true) {n : RegName} {i j : Nat} (hw : n.row.width = 32) (hr : (RegId.resetWord ⟨n, i, j⟩).toNat < 2 ^ 32) :
    (s.rd n i j).toNat < 2 ^ 32 := by
  unfold State.rd RegFile.read Store.get
  cases hf : Store.find (RegId.key ⟨n, i, j⟩) s.regs with
  | none => exact hr
  | some v =>
    simp only [RegFile.wf, Bool.and_eq_true, List.all_eq_true, decide_eq_true_eq] at h
    have hcut : v &&& 0xFFFFFFFF = v := h.2 _ (Store.mem_of_find hf) (by rw [RegId.ofKey_key]; exact hw)
    rw [Option.getD_some, ← hcut, toNat_cut]
    exact Nat.mod_lt _ (by decide)

section
variable {s : State} {q : QueueId} {n p : Nat} {d : DescSt}

/-- Without a completion object a descriptor is gone at once. -/
theorem State.descFinish_of_unnamed (hr : d.fld 4 2 = 0xFFFF) (q : Nat) : s.descFinish p q d = s.descGone p q d := by
  unfold State.descFinish
  by_cases h : d.stage = 2
  · rw [if_pos h]
  · simp only [if_neg h, hr, true_or, if_true]

section
variable {st : Nat} (hst : d.status = some st)
include hst

/-- The completion of a descriptor whose work has ended; a hint has its status then. -/
theorem execDescComplete_of_status (ho : s.queueOwner q = some p) (hd : s.desc q n = some d) : execDescComplete q n s = .next (s.descComplete p q d) := by
  have hhint : (if d.fld 0 1 = 4 then s.hintEnd q d else s) = s := by
    rw [State.hintEnd, hst, Option.isSome_some, Bool.true_or, Bool.true_or, if_pos rfl, ite_self]
  simp only [execDescComplete, ho, hd, hhint]

section
variable (hs : d.stage = 0)
include hs

theorem State.descComplete_of_lost {q : Nat} (hf : (s.inFrozen p (s.slotAddr q d.n) 64 || decide (s.apparent p < s.slotAddr q d.n + 64)) = true) :
    s.descComplete p q d = ((s.wrB .qdStatus 4 true q).setB .queEvent 2).descFinish p q d := by
  simp only [State.descComplete, hst, hs, ne_eq, not_true_eq_false, if_false, hf, if_true]

theorem State.descComplete_of_put (hres : d.result = none) (hf : ¬ (s.inFrozen p (s.slotAddr q d.n) 64 || decide (s.apparent p < s.slotAddr q d.n + 64)) = true)
    {t : State} {w : Nat} (hput : (s.atLevel (s.compLevel p q 0)).putRun (.desc q d.n) (reqComp p) (s.compLevel p q 0) p (s.slotAddr q d.n + 8) 8 (st + d.detail * 2 ^ 32) 0 4 = (t, w, .done))
    {u : State} (hu : t.compCharge p q (s.compLevel p q 0) (8 + 4096 * (t.openSlots - s.openSlots)) = u) (hm : u.mirSync p = false) :
    s.descComplete p q d = u.descFinish p q d := by
  subst hu
  simp only [State.descComplete, hst, hs, ne_eq, not_true_eq_false, if_false, if_neg hf, hres, hput, hm, Bool.false_eq_true]

end

end

end

/-- The counts of a descriptor that leaves its queue (R491). -/
def State.countGone (s : State) (q : Nat) (d : DescSt) : State :=
  if isFailure (d.status.getD 0) then (s.incEvt .qdDone q).incErr .qdFailed q else s.incEvt .qdDone q

section
variable {s : State} (q : Nat) (d : DescSt)

theorem State.countGone_keeps : Keeps s (s.countGone q d) := by
  unfold State.countGone
  split
  · exact State.incErr_keeps (State.incEvt_keeps (.refl s) ..) ..
  · exact State.incEvt_keeps (.refl s) ..

theorem State.rd_countGone_name (h : s.regs.wf = true) {m : RegName} (hd : m ≠ .qdDone) (hf : m ≠ .qdFailed) (i j : Nat) : (s.countGone q d).rd m i j = s.rd m i j := by
  unfold State.countGone State.incErr State.incEvt
  split
  · rw [State.rd_wr_name (State.wr_regs_wf h ..) hf, State.rd_wr_name h hd]
  · rw [State.rd_wr_name h hd]

theorem State.rdF_countGone_done (h : s.regs.wf = true) : (s.countGone q d).rdF .qdDone 0 48 q = (s.rdF .qdDone 0 48 q + 1) % 2 ^ 48 := by
  have hd : (s.incEvt .qdDone q).rdF .qdDone 0 48 q = (s.rdF .qdDone 0 48 q + 1) % 2 ^ 48 := by
    rw [State.rdF, State.rd_incEvt_self h rfl, fld_evtCount_count]
    rfl
  unfold State.countGone
  split
  · rw [← hd]
    exact congrArg (fld · 0 48) (State.rd_wr_name (State.wr_regs_wf h ..) (by decide) ..)
  · exact hd

theorem State.rdF_countGone_failed (h : s.regs.wf = true) : (s.countGone q d).rdF .qdFailed 0 32 q =
    if isFailure (d.status.getD 0) then min (s.rdF .qdFailed 0 32 q + 1) (2 ^ 32 - 1) else s.rdF .qdFailed 0 32 q := by
  have hold : (s.incEvt .qdDone q).rd .qdFailed q = s.rd .qdFailed q := State.rd_wr_name h (by decide) ..
  have hlt : (s.rd .qdFailed q).toNat < 2 ^ 32 := State.rd_lt h rfl (show (BitVec.ofNat 64 0).toNat < 2 ^ 32 by decide)
  have hnew : (((s.incEvt .qdDone q).incErr .qdFailed q).rd .qdFailed q).toNat = min ((s.rd .qdFailed q).toNat + 1) (2 ^ 32 - 1) := by
    rw [← hold]
    exact State.rd_incErr_self (s := s.incEvt .qdDone q) (State.wr_regs_wf h ..) rfl q 1
  have hfld {w : Word} (hw : w.toNat < 2 ^ 32) : fld w 0 32 = w.toNat := by rw [fld, Nat.shiftRight_zero, Nat.mod_eq_of_lt hw]
  unfold State.countGone State.rdF
  split
  · rw [hfld (by omega), hfld hlt, hnew]
  · rw [hold]

/-- A descriptor of an unmirrored partition that asks for no message leaves its queue, counted. -/
theorem State.descGone_of_unmirrored {p : Nat} (h : s.regs.wf = true) (hm : s.mirRole p ≠ 1) (hx : d.fld 1 1 / 2 % 2 = 0) :
    s.descGone p q d = ((s.countGone q d).storeGone (.desc q d.n)).setQueue q { (s.queue q) with descs := (s.queue q).descs.filter (fun e => e.n != d.n) } := by
  have hmsg : ¬ (d.fld 1 1 / 2 % 2 = 1 ∧ d.fld 2 2 ≤ 2047 ∧ (!s.quarantined p) = true) := by omega
  have hrole : (s.countGone q d).mirRole p ≠ 1 := by
    rwa [State.mirRole, State.rdF, State.rd_countGone_name q d h (by decide) (by decide)]
  have hq : (s.countGone q d).queue q = s.queue q := by
    unfold State.countGone
    split <;> rfl
  have hgone : s.descGone p q d = (((s.countGone q d).storeGone (.desc q d.n)).setQueue q
      { ((s.countGone q d).queue q) with descs := ((s.countGone q d).queue q).descs.filter (fun e => e.n != d.n) }).shipTable p := by
    unfold State.descGone
    rw [if_neg hmsg]
    rfl
  rw [hgone, hq]
  exact State.shipTable_of_unmirrored (s := ((s.countGone q d).storeGone (.desc q d.n)).setQueue q _) hrole

end

/-- A scrub ends with its summary written (R347). -/
theorem execScrubPassComplete_of_written {s t u : State} {q : QueueId} {n p st : Nat} {d : DescSt} {x : ScrubSum} (ho : s.queueOwner q = some p) (hd : s.desc q n = some d) (ht : d.fld 0 1 = 5)
    (hb : d.started = true) (he : d.status = none) (hx : s.scrubSpan p (d.fld 0x10 8) (d.fld 0x18 8) (d.fld 0x28 1 == 1) (d.fld 0x29 1 / 2 % 2 == 1) = (t, x))
    (hst : (if d.fld 0x29 1 % 2 = 1 ∧ t.dmaRefused d ≠ stDone then t.dmaRefused d else if 0 < x.uncorr then stUncorr else stDone) = st)
    (hu : t.putSummary p q d (x.record st ((t.time - d.startAt) / 1000) false) true = (u, true)) : execScrubPassComplete q n s = .next (u.endDesc q d st 0) := by
  have hrun : ¬ (decide (d.fld 0 1 ≠ 5) || !d.started || d.status.isSome) = true := by simp [ht, hb, he]
  simp only [execScrubPassComplete, ho, hd, if_neg hrun, hx, hst, hu]

/-- Settles O34. That a status word that may not be written is lost and sets WB_LOST, and what a scrub's summary counts, are the model's choices (log 36). The clauses speak of a descriptor without a completion
object and without an MSI-X message. -/
theorem completionsAreWrittenBack : Obligations.CompletionsAreWrittenBack := by
  refine ⟨fun s q n p st d ho hd hst hs hres href => ?put, fun s p q d hc hm hx => ?gone, fun s q n p d t u x ho hd ht hb he hx => execScrubPassComplete_of_written ho hd ht hb he hx rfl⟩
  case put =>
    refine ⟨fun hf ha t w hput hu => ?_, fun hf => ?_⟩ <;> refine (execDescComplete_of_status hst ho hd).trans (congrArg _ (Eq.trans ?_ (State.descFinish_of_unnamed href q)))
    · have hslot : s.inFrozen p (s.slotAddr q d.n) 64 = false ∧ s.slotAddr q d.n + 64 ≤ s.apparent p := ⟨hf, ha⟩
      exact State.descComplete_of_put hst hs hres (by simpa using hslot) hput rfl hu
    · have hslot : s.inFrozen p (s.slotAddr q d.n) 64 = true ∨ s.apparent p < s.slotAddr q d.n + 64 := hf
      exact State.descComplete_of_lost hst hs (by simpa using hslot)
  case gone =>
    rw [State.descGone_of_unmirrored q d hc.regs hm hx]
    refine ⟨?_, State.rdF_countGone_done q d hc.regs, State.rdF_countGone_failed q d hc.regs⟩
    have hleft : (State.storeGone (s.countGone q d) (.desc q d.n)).Canonical := (State.storeGone_keeps (s.countGone_keeps q d) _).canonical hc
    rw [State.desc, State.queue_setQueue_self hleft, List.find?_eq_none]
    simp

end Sys2Proof.Machine
end

section
/-! PROOFS. Queues and synchronisation (14_queues_sync): the transfers of copies and fills (R474, R475). -/

namespace Sys2Proof.Machine

section
variable {s : State} {q : QueueId} {n p : Nat} {d : DescSt}

/-- The pool address that a copy or fill writes at. -/
def DescSt.moveTo (d : DescSt) : Nat := if d.fld 0 1 = 3 then d.fld 0x10 8 else d.fld 0x18 8

/-- A copy or fill that has moved all its bytes ends. -/
theorem State.moveRun_of_end (hn : d.fld 0x20 8 ≤ d.pos) (fuel : Nat) :
    s.moveRun p q d (fuel + 1) = (s.flashDone (.desc q d.n)).moveEnd q d (match s.resolve p d.moveTo 64 with | some (o, _) => o | none => p) stDone d.pos := by
  rw [State.moveRun]
  refine (if_pos hn).trans ?_
  rw [Fin.ofNat_val_eq_self]
  rfl

/-- A piece that finds its data and its slots is written, charged, and the copy or fill goes on behind it. -/
theorem State.moveRun_of_piece (hn : d.pos < d.fld 0x20 8) (hf : d.fromHost = false) (hto : d.fld 0x28 1 / 2 % 2 = 0) {m : Nat} (hm : pieceLen d.moveTo d.pos (d.fld 0x20 8) = m)
    {t : State} {v : Nat} (hsrc : s.pieceSource p d d.moveTo d.pos m = (t, .ok v)) {o x : Nat} (hr : t.resolve p (d.moveTo + d.pos) m = some (o, x)) (hz : t.inFrozen o x m = false)
    {u : State} {w lvl : Nat} (hl : t.compLevel p q 0 = lvl) (hput : (t.atLevel lvl).putRun (.desc q d.n) (reqComp p) lvl o x m v 0 (m / 64 + 2) = (u, w, .done)) (fuel : Nat) :
    s.moveRun p q d (fuel + 1) =
      ((u.compCharge p q lvl (w + 4096 * (u.openSlots - t.openSlots))).setDesc q { d with pos := d.pos + w }).moveRun p q { d with pos := d.pos + w } fuel := by
  subst hm hl
  have hwait : ¬ (d.fromHost = true ∧ gapless d.came (d.came.length + 1) 0 < d.pos + pieceLen d.moveTo d.pos (d.fld 0x20 8)) := by simp [hf]
  have hhost : ¬ d.fld 0x28 1 / 2 % 2 = 1 := by omega
  unfold DescSt.moveTo at *
  rw [State.moveRun]
  simp only [if_neg (Nat.not_le.mpr hn), if_neg hwait, hsrc, if_neg hhost, hr, hz, Bool.false_eq_true, if_false, hput]

/-- A copy or fill inside the pool runs at once. -/
theorem exec_descMove_of_starts (h : descStarts s q n p d) (ht : d.fld 0 1 = 2 ∨ d.fld 0 1 = 3) (hx : d.fld 0x28 1 = 0) :
    exec (if d.fld 0 1 = 3 then .descFill q n else .descCopy q n) s =
      .next ((withStarted s q d).moveRun p q { d with started := true, startAt := s.time } (moveFuel { d with started := true, startAt := s.time })) := by
  have hmove : s.descMove q n (d.fld 0 1) = (withStarted s q d).moveRun p q { d with started := true, startAt := s.time } (moveFuel { d with started := true, startAt := s.time }) := by
    have hstart := State.startDesc_of_starts h (types := (· == d.fld 0 1)) (beq_self_eq_true _)
    simp only [State.descMove, hstart]
    exact if_pos hx
  rw [← hmove]
  rcases ht with ht | ht <;> rw [ht] <;> rfl

/-- The line that a fill, or a copy inside the pool, writes. -/
theorem State.pieceSource_of_line {t : State} {v : Nat} (ht : d.fld 0 1 = 2 ∨ d.fld 0 1 = 3) (hf : d.fromHost = false)
    (hv : if d.fld 0 1 = 3 then t = s ∧ v = (256 ^ 64 - 1) / (2 ^ 64 - 1) * d.fld 0x30 8
      else ∃ o x, s.resolve p (d.fld 0x10 8) 64 = some (o, x) ∧ s.getBytes (reqComp p) o x 64 = (t, .ok v)) (dst : Nat) :
    s.pieceSource p d dst 0 64 = (t, .ok v) := by
  unfold State.pieceSource
  rcases ht with ht | ht
  · rw [if_neg (by omega)] at hv
    obtain ⟨o, x, hr, hg⟩ := hv
    simp only [ht, hf, Nat.add_zero, hr, hg, Bool.false_eq_true, if_false, Nat.reduceEqDiff]
  · rw [if_pos ht] at hv
    obtain ⟨rfl, rfl⟩ := hv
    exact if_pos ht

end

/-! Host data (R475). -/

section
variable {s : State} {q : Nat} {d : DescSt}

theorem State.hostAsk_of_asked (hn : d.fld 0x20 8 ≤ d.asked) (fuel : Nat) : s.hostAsk q d (fuel + 1) = (s, d) := if_pos (.inl hn)

/-- A read that one request holds is asked for with the link's lowest free tag. -/
theorem State.hostAsk_of_fits (hn : 0 < d.fld 0x20 8) (ha : d.asked = 0) (hm : d.fld 0x20 8 ≤ (s.ld d.link d.ld).mrrs) (hp : d.fld 0x10 8 % 4096 + d.fld 0x20 8 ≤ 4096)
    (hl : (s.link d.link).ioTags.length < maxTags) (fuel : Nat) :
    s.hostAsk q d (fuel + 2) =
      ((s.setLink d.link { s.link d.link with ioTags := (s.link d.link).ioTags ++ [{ tag := (s.link d.link).freeTag, q := some q, n := d.n, off := 0, len := d.fld 0x20 8 }] }).sendUp d.link
        (.dmaRead d.link d.ld (s.link d.link).freeTag (d.fld 0x10 8) (d.fld 0x20 8)), { d with asked := d.fld 0x20 8 }) := by
  have hgo : ¬ (d.fld 0x20 8 ≤ 0 ∨ maxTags ≤ (s.link d.link).ioTags.length) := by omega
  have hlen : min (min (d.fld 0x20 8 - 0) (s.ld d.link d.ld).mrrs) (4096 - d.fld 0x10 8 % 4096) = d.fld 0x20 8 := by omega
  rw [State.hostAsk]
  simp only [ha, Nat.add_zero, if_neg hgo, hlen, Nat.zero_add]
  exact State.hostAsk_of_asked (d := { d with asked := d.fld 0x20 8 }) le_rfl fuel

end

/-- A copy whose checks pass has a length. -/
theorem DescSt.copy_pos {s : State} {p : Nat} {d : DescSt} (ht : d.fld 0 1 = 2) (hf : s.descFails p d = []) : 64 ≤ d.fld 0x20 8 := by
  simp only [State.descFails, ht, List.append_eq_nil_iff] at hf
  obtain ⟨-, ⟨⟨-, hlen⟩, -⟩, -⟩ := hf
  unfold lengthCheck failIf at hlen
  split at hlen
  next => cases hlen
  next =>
    split at hlen
    next => cases hlen
    next h => simp at h; omega

/-- A copy from host memory asks for its data where its link and its LD can (R475). -/
theorem State.moveStart_of_host {s : State} {p q : Nat} {d : DescSt} (ht : d.fld 0 1 = 2) (hx : d.fld 0x28 1 = 1) (hb : (s.ld d.link d.ld).bme = true) (hg : s.linkGone d.link = false) :
    s.moveStart p q d = s.askOn q d := by
  have hnot : ¬ d.fld 0x28 1 = 0 := by omega
  have hgo : s.dmaRefused d = stDone := by simp [State.dmaRefused, hb, hg]
  have hf : d.fromHost = true := by rw [DescSt.fromHost, ht, hx]; rfl
  simp only [State.moveStart, if_neg hnot, hgo, hf, ne_eq, not_true_eq_false, if_false, if_true]

/-- Data for a copy that has asked for all of it. -/
theorem State.hostCame_of_asked {s : State} {p q data : Nat} {x : IoTag} {d e : DescSt} (hn : d.fld 0x20 8 ≤ d.asked)
    (he : { d with host := some (d.host.getD 0 + data % 256 ^ x.len * 256 ^ x.off), came := d.came ++ [(x.off, x.len)] } = e) :
    s.hostCame p x d q data = (s.setDesc q e).moveRun p q e (moveFuel e) := by
  have hask : s.hostAsk q e maxTags = (s, e) := State.hostAsk_of_asked (fuel := 767) (by rw [← he]; exact hn)
  simp only [State.hostCame, he, hask, ite_self]

section
variable {s : State} {link : LinkId} {tag : Nat}

theorem execCxlioCompletion_of_unexpected (ht : takeFirst (fun (x : IoTag) => x.tag == tag) (s.link link).ioTags = none) (data : Nat) :
    execCxlioCompletion link tag data s = .next (s.incErr .lnkErrUncorr link) := by
  simp only [execCxlioCompletion, ht]

section
variable {x : IoTag} {q : Nat} {l : List IoTag} {d : DescSt} (ht : takeFirst (fun (x : IoTag) => x.tag == tag) (s.link link).ioTags = some (x, l)) (hq : x.q = some q)
  (hd : s.desc q x.n = some d) (hb : d.started = true) (hs : d.status = none)
include ht hq hd hb hs

/-- A copy that has asked for all its data takes a piece of it and goes on. -/
theorem execCxlioCompletion_of_asked {p : Nat} (ho : s.queueOwner q = some p) (hf : d.fromHost = true) (hn : d.fld 0x20 8 ≤ d.asked) (data : Nat) {e : DescSt}
    (he : { d with host := some (d.host.getD 0 + data % 256 ^ x.len * 256 ^ x.off), came := d.came ++ [(x.off, x.len)] } = e) :
    execCxlioCompletion link tag data s = .next (((s.setLink link { s.link link with ioTags := l }).setDesc q e).moveRun p q e (moveFuel e)) := by
  have ho' : (s.setLink link { s.link link with ioTags := l }).queueOwner q = some p := ho
  have hd' : (s.setLink link { s.link link with ioTags := l }).desc q x.n = some d := hd
  have hgo : ¬ (d.status.isSome || !d.started || !d.fromHost) = true := by simp [hb, hs, hf]
  simp only [execCxlioCompletion, ht, hq, ho', hd', if_neg hgo, State.hostCame_of_asked hn he]

theorem execCxlioCompletionTimeout_of_waiting :
    execCxlioCompletionTimeout link tag s = .next (((s.setLink link { s.link link with ioTags := l }).incErr .lnkErrUncorr link).endDesc q d stTimeout (d.pos / 4096)) := by
  have hd' : ((s.setLink link { s.link link with ioTags := l }).incErr .lnkErrUncorr link).desc q x.n = some d := hd
  have hgo : ¬ (d.status.isSome || !d.started) = true := by simp [hb, hs]
  simp only [execCxlioCompletionTimeout, ht, hq, hd', if_neg hgo]

end

end

theorem pieceLen_line {dst : Nat} (h : dst % 64 = 0) : pieceLen dst 0 64 = 64 := by
  unfold pieceLen
  omega

/-- Settles O32. How a link's tags are given, lowest free one first, and how a completion finds its descriptor by its tag, are the model's choices (log 33). -/
theorem copiesAndFillsMoveData : Obligations.CopiesAndFillsMoveData := by
  refine ⟨fun s q n p d h ht hx hn hp hh hdst t v o x u w => ?line, fun s q n p d h ht hx hb hg => ?ask,
    fun s link tag data => ⟨fun hn => execCxlioCompletion_of_unexpected hn data, fun x q l p d htag hq ho hd hb hs hf => ⟨fun hn => ?came, execCxlioCompletionTimeout_of_waiting htag hq hd hb hs⟩⟩⟩
  case line =>
    intro e hsrc hr hz lvl hput c
    have he : e.pos = 0 := hp
    have hlen : e.fld 0x20 8 = 64 := hn
    have hf : e.fromHost = false := by
      have hx' : e.fld 0x28 1 = 0 := hx
      rw [DescSt.fromHost, hx']
      exact Bool.and_false _
    have hto : e.fld 0x28 1 / 2 % 2 = 0 := by
      have hx' : e.fld 0x28 1 = 0 := hx
      rw [hx']
    have hm : pieceLen e.moveTo e.pos (e.fld 0x20 8) = 64 := by
      rw [he, hlen]
      exact pieceLen_line hdst
    have hpiece := State.moveRun_of_piece (s := withStarted s q d) (p := p) (d := e) (by omega) hf hto hm (by rw [he]; exact State.pieceSource_of_line ht hf hsrc e.moveTo)
      (by rw [he]; exact hr) hz rfl hput 2
    rw [he] at hpiece
    have hend := State.moveRun_of_end (s := c) (p := p) (q := q) (d := { e with pos := 64 }) (by exact hlen.le) 1
    refine (exec_descMove_of_starts h ht hx).trans (congrArg _ (Eq.trans ?_ (hpiece.trans hend)))
    rw [moveFuel, hlen]

  case ask =>
    intro a m t l ha hm hpage hl
    have hstart := State.startDesc_of_starts h (types := (· == 2)) (by rw [ht]; rfl)
    have hpos : 64 ≤ d.fld 0x20 8 := DescSt.copy_pos (d := { d with started := true, startAt := s.time }) ht h.2.2.2.2
    have hask := State.hostAsk_of_fits (s := t) (q := q) (d := { d with started := true, startAt := s.time }) (by exact (by omega : 0 < d.fld 0x20 8)) ha hm hpage hl 766
    have hmove := State.moveStart_of_host (s := t) (p := p) (q := q) (d := { d with started := true, startAt := s.time }) ht hx hb hg
    change execDescCopy q n s = _
    simp only [execDescCopy, State.descMove, hstart]
    refine congrArg _ (hmove.trans ?_)
    unfold State.askOn
    rw [show maxTags = 766 + 2 from rfl, hask]
    rfl
  case came => exact execCxlioCompletion_of_asked htag hq hd hb hs ho hf hn data rfl

end Sys2Proof.Machine
end

section
/-! PROOFS. Bandwidth and quality of service (15_bandwidth_qos): latency windows, background rate, request age and urgency pins (R500, R511 to R514). -/

namespace Sys2Proof.Machine

section
variable {s : State} {p : Nat}

/-- A class without a guarantee records its largest latency. -/
theorem State.qosWindow_of_free {c : Nat} (hg : (s.classRec p c).guaranteed = false) (x : QosSample) :
    s.qosWindow p c x = if (s.rd .qosPLatMax p c).toNat < min x.latNs (2 ^ 20 - 1) then s.wr .qosPLatMax (BitVec.ofNat 64 (min x.latNs (2 ^ 20 - 1))) p c else s := by
  unfold State.qosWindow
  by_cases h : (s.rd .qosPLatMax p c).toNat < min x.latNs (2 ^ 20 - 1)
  · have hg' : ((s.wr .qosPLatMax (BitVec.ofNat 64 (min x.latNs (2 ^ 20 - 1))) p c).classRec p c).guaranteed = false := hg
    simp only [if_pos h, hg', Bool.not_false, if_true]
  · simp only [if_neg h, hg, Bool.not_false, if_true]

theorem execQosWindowEnd_of_one {p : PartId} {c : QosClass} (hc : (s.qosRec p).classes = [c]) (x : QosSample) : execQosWindowEnd p [x] s = .next ((s.windowEnd p).qosWindow p 0 x) := by
  rw [execQosWindowEnd, hc]
  rfl

theorem State.time_windowEnd (s : State) (p : Nat) : (s.windowEnd p).time = max s.time (max ((s.time + 99999) / 100000 * 100000) (Store.get 0 p s.qos.windowAt + 100000)) := rfl

end

/-- The background rate lies between the reserve and 96 GB/s, which it takes at the two ends (R512). -/
theorem bgRate_bounds {r b : Nat} (hr : r ≤ 96) : bgRate r b ≤ 96 ∧ r ≤ bgRate r b ∧ (b ≤ 25 → bgRate r b = 96) ∧ (75 ≤ b → bgRate r b = r) := by
  unfold bgRate
  split
  next => omega
  next hlo =>
    split
    next => omega
    next hhi =>
      have hscale : (96 - r) * (b - 25) ≤ (96 - r) * 50 := Nat.mul_le_mul_left _ (by omega)
      omega

/-- The one request that waits is raised when it has waited QOS_AGE_US (R500). -/
theorem execRequestAgeExpiry_of_read {s : State} {link : LinkId} {tag : Nat} {r : HeldRead} (hr : s.tier.heldR = [r]) (hl : r.link = link.val) (ht : r.tag = tag) (hw : s.lens.heldW = [])
    {t : State} (hs : s.reach (r.at_ + 1000 * s.rdF .qosAgeUs 0 8) = t) :
    execRequestAgeExpiry link tag s = .next { t with tier := { t.tier with heldR := [{ r with level := max r.level 4 }] }, lens := { t.lens with heldW := [] } } := by
  subst hs
  have hit : (r.link == link.val && r.tag == tag) = true := by simp [hl, ht]
  simp only [execRequestAgeExpiry, hr, hw, List.filter_cons, hit, if_true, List.filter_nil, List.map_cons, List.map_nil, List.append_nil, List.head?_cons, mapIf]
  rw [Nat.mul_comm]

section
variable {s : State} (n : Fin 4)

theorem execUrgPinStuck_of_asserted {t : Nat} (ha : s.rdB .qosUrgPins n = true) (hs : s.rdB .qosUrgPins (4 + n) = false) (ht : s.qos.pinAt.getD n none = some t) :
    execUrgPinStuck n s = .next (((s.reach (t + 10000000)).setB .qosUrgPins (4 + n)).event { reg := .qosEvent, bit := n, value := n }) := by
  simp only [execUrgPinStuck, ha, hs, ht, Bool.not_true, Bool.or_self, Bool.false_eq_true, if_false, Option.getD_some]

end

/-- Settles O48. That the rate is linear in whole percent and rounded down to whole GB/s is the model's choice (log 50), and so is the clock of a window, whose end moves module time to the end of the period that
runs (log 2). -/
theorem qosEvents : Obligations.QosEvents := by
  refine ⟨fun s p x c hc hg => ?window, fun s p ha => ?clock, fun s a b => rfl, fun r b hr => bgRate_bounds hr, fun s link tag r hr hl ht hw => execRequestAgeExpiry_of_read hr hl ht hw rfl,
    fun s n => ⟨fun h => ?low, fun h => ?high, rfl, fun t ha hs ht => execUrgPinStuck_of_asserted n ha hs ht⟩⟩
  case window => exact (execQosWindowEnd_of_one hc x).trans (congrArg _ (State.qosWindow_of_free (s := s.windowEnd p) hg x))
  case clock =>
    rw [State.time_windowEnd]
    omega
  case low => exact congrArg _ ((if_pos rfl).trans (if_neg (by rw [h]; decide)))
  case high => exact congrArg _ ((if_pos rfl).trans (if_pos h))

end Sys2Proof.Machine
end

section
/-! PROOFS. Mirrored pairs (16_mirror_pair): epochs and their acknowledgements, link losses, promotion and the commands of MIR_P_CTRL (R525, R527, R532 to R540). -/

namespace Sys2Proof.Machine

/-! A partition's mirror state after a write of it. -/

section
variable {s : State} {p : Nat}

theorem State.mirPart_setMirPart {v : MirPart} (hv : v ≠ {}) : (s.setMirPart p v).mirPart p = v := by
  unfold State.mirPart State.setMirPart Store.set Store.get
  rw [if_neg hv, Store.find_put_self, Option.getD_some]

theorem State.logLd_mir (link ld : Nat) (r : EvRec) : (s.logLd link ld r).mir = s.mir := by
  have hl (t : State) (k : Nat) : (t.leaveL1 k).mir = t.mir := by
    simp only [State.leaveL1]
    split <;> rfl
  simp only [State.logLd, State.msix]
  split
  · split
    · exact hl _ _
    · rfl
  · rfl

theorem State.raise_mir (r : EvRec) : (s.raise r).mir = s.mir := by
  simp only [State.raise]
  split
  · rfl
  · exact foldl_inv (P := fun t : State => t.mir = s.mir) (fun t d h => (State.logLd_mir ..).trans h) _ rfl

end

/-! Epochs of the primary (R531, R533, R534). -/

section
variable {s : State} {p : PartId} {h : HubId} (hc : s.mayClose p = true) (hs : s.mirState p = 3)
include hc hs

theorem execEpochClose_of_async (ha : s.mirAsync p = true) : execEpochClose p h .size s = .next (s.closeBoth p) := by
  have hrun : ¬ s.mirState p = 2 := by omega
  simp only [execEpochClose, hc, Bool.not_true, Bool.false_eq_true, if_false, if_neg hrun, ha, if_true]

section
variable (ha : s.mirAsync p = false)
include ha

theorem execEpochClose_of_snapshot : execEpochClose p h .snapshot s = .next (s.closeEpoch p h) := by
  have hrun : ¬ s.mirState p = 2 := by omega
  simp only [execEpochClose, hc, Bool.not_true, Bool.false_eq_true, if_false, if_neg hrun, ha]

theorem execEpochClose_of_count (hn : 256 ≤ ((s.mirPart p).openRecs.getD h []).length) : execEpochClose p h .count s = .next (s.closeEpoch p h) := by
  have hrun : ¬ s.mirState p = 2 := by omega
  simp only [execEpochClose, hc, Bool.not_true, Bool.false_eq_true, if_false, if_neg hrun, ha, if_pos hn]

end

end

/-- The mirror state that the close of an epoch leaves. -/
def State.closedPart (s : State) (p h : Nat) : MirPart :=
  { s.mirPart p with
    openRecs := (s.mirPart p).openRecs.set h [], sent := (s.mirPart p).sent.set h ((s.mirPart p).sent.getD h 0 + 1), closedAt := (s.mirPart p).closedAt.set h s.time
    unacked := (s.mirPart p).unacked ++ [(h, (s.mirPart p).sent.getD h 0 + 1, s.mirState p == 2, (s.mirPart p).openRecs.getD h [])] }

theorem State.mirPart_closeEpoch (s : State) (p h : Nat) : (s.closeEpoch p h).mirPart p = s.closedPart p h :=
  State.mirPart_setMirPart (v := s.closedPart p h) fun he => List.append_ne_nil_of_right_ne_nil _ (List.cons_ne_nil _ _) (congrArg MirPart.unacked he)

/-! Acknowledgements (R532, R534). -/

section
variable {s : State} {p : PartId} {h : HubId} {n : Nat} (hr : s.mirRole p = 1) (hs : s.mirState p = 3) (hu : s.anyReflect = true) (hn : n ≤ (s.mirPart p).sent.getD h 0)
include hr hs hu hn

theorem not_ackIgnored : ¬ (s.mirRole p ≠ 1 ∨ (s.mirState p ≠ 2 ∧ s.mirState p ≠ 3) ∨ (!s.anyReflect) = true ∨ (s.mirPart p).sent.getD h 0 < n) := by
  rintro (h' | h' | h' | h')
  · exact h' hr
  · exact h'.2 hs
  · rw [hu] at h'
    cases h'
  · omega

theorem execEpochAck_again : execEpochAck p h n .again s = .next (s.flitSeen.resendEpoch p h n) := by
  simp only [execEpochAck, if_neg (not_ackIgnored hr hs hu hn)]

theorem execEpochAck_failed : execEpochAck p h n .failed s = .next ((s.flitSeen.enterSolo p).startRebuild p) := by
  simp only [execEpochAck, if_neg (not_ackIgnored hr hs hu hn)]

theorem execEpochAck_ok {t : State}
    (ht : ((s.flitSeen.setMirPart p { s.mirPart p with
      acked := (s.mirPart p).acked.set h (max ((s.mirPart p).acked.getD h 0) n), unacked := (s.mirPart p).unacked.filter (fun x => !(x.1 == h.val && decide (x.2.1 ≤ n))) }).epochRegs p).releaseAwaits p (fun k i => k == h.val && decide (i ≤ n)) = t)
    (h1 : (t.mirPart p).snapEpoch = none) (h2 : (t.mirPart p).switchEpoch = none) : execEpochAck p h n .ok s = .next t := by
  simp only [execEpochAck, if_neg (not_ackIgnored hr hs hu hn), ht, h1, h2, Bool.false_eq_true, if_false]

end

/-! Received epochs (R529, R532). -/

section
variable {s : State} {e : Epoch} (hr : s.mirRole e.part = 2) (hs : s.mirState e.part = 2 ∨ s.mirState e.part = 3) (hu : s.anyReflect = true)
include hr hs hu

theorem not_epochIgnored : ¬ (s.mirRole e.part ≠ 2 ∨ s.mirState e.part = 0 ∨ s.mirState e.part = 7 ∨ (!s.anyReflect) = true) := by
  rintro (h | h | h | h)
  · exact h hr
  · omega
  · omega
  · rw [hu] at h
    cases h

/-- An epoch that has not come whole is only a sign of life. -/
theorem execEpochReceived_of_part (hc : e.complete = false) : execEpochReceived e s = .next s.flitSeen := by
  simp only [execEpochReceived, if_neg (not_epochIgnored hr hs hu), hc, Bool.not_false, if_true]

/-- A sound epoch that is new is kept, acknowledged, and applied with what can follow it. -/
theorem execEpochReceived_of_sound (hc : e.complete = true) (hk : e.crcOk = true) (hb : e.rebuild = false) (hn : (s.flitSeen.mirPart e.part).applied.getD e.hub 0 < e.number)
    (hq : (s.flitSeen.mirPart e.part).recv = []) {t : State} (ht : (s.flitSeen.setMirPart e.part { s.flitSeen.mirPart e.part with recv := [e] }).send (.epochAck e.part e.hub e.number 0) = t) :
    execEpochReceived e s = .next (t.applyReady e.part ((t.mirPart e.part).recv.length)) := by
  subst ht
  have hlive : ¬ (s.mirState e.part ≠ 2 ∧ s.mirState e.part ≠ 3) := by omega
  have hnew : ¬ e.number ≤ (s.flitSeen.mirPart e.part).applied.getD e.hub 0 := by omega
  simp only [execEpochReceived, if_neg (not_epochIgnored hr hs hu), hc, hk, hb, hq, Bool.not_true, Bool.not_false, Bool.false_and, Bool.false_eq_true, if_false, true_and, if_neg hlive,
    decide_eq_false hnew, List.any_nil, Bool.or_self, List.nil_append]

/-- What a damaged epoch leaves: the record of it, and the epoch noted as asked for again. -/
def State.askAgain (s : State) (e : Epoch) : State :=
  let t := (s.flitSeen.setB .mirPEvent 3 e.part).raise { reg := .mirPEvent, bit := 3, part := some e.part, value := e.number }
  (t.setMirPart e.part { s.mirPart e.part with retried := [(e.hub.val, e.number)] }).send (.reflectCtl e.hub 2 [e.part, e.hub, e.number])

theorem execEpochReceived_of_damaged (hc : e.complete = true) (hk : e.crcOk = false) (hn : (s.mirPart e.part).retried = []) : execEpochReceived e s = .next (s.askAgain e) := by
  have hlive : ¬ (s.mirState e.part ≠ 2 ∧ s.mirState e.part ≠ 3) := by omega
  have hm (r : EvRec) : ((s.flitSeen.setB .mirPEvent 3 e.part).raise r).mirPart e.part = s.mirPart e.part := by
    rw [State.mirPart, State.raise_mir]
    rfl
  simp only [execEpochReceived, if_neg (not_epochIgnored hr hs hu), hc, hk, Bool.not_true, Bool.not_false, Bool.false_eq_true, if_false, if_true, if_neg hlive, hm, hn, List.contains_nil,
    List.nil_append]
  rfl

end

theorem State.rdB_askAgain {s : State} (h : s.Canonical) (e : Epoch) : (s.askAgain e).rdB .mirPEvent 3 e.part = true := by
  have hw : s.flitSeen.regs.wf = true := h.regs
  have hrd : (s.askAgain e).rd .mirPEvent e.part = (s.flitSeen.setB .mirPEvent 3 e.part).rd .mirPEvent e.part :=
    (WritesLnkStatusOnly.raise (State.wrB_regs_wf hw ..) _).rd _ (by decide) _ _
  rw [State.rdB, State.rdF, hrd]
  exact State.rdB_wrB_self hw .mirPEvent 3 true e.part 0 (by decide)

theorem State.retried_askAgain (s : State) (e : Epoch) : ((s.askAgain e).mirPart e.part).retried = [(e.hub.val, e.number)] :=
  congrArg MirPart.retried (State.mirPart_setMirPart (v := { s.mirPart e.part with retried := [(e.hub.val, e.number)] }) fun he => List.cons_ne_nil _ _ (congrArg MirPart.retried he))

theorem State.out_askAgain (s : State) (e : Epoch) : ∃ l, (s.askAgain e).out = s.out ++ l ++ [.reflectCtl e.hub 2 [e.part, e.hub, e.number]] := by
  obtain ⟨l, hl⟩ := (State.raise_keeps (.refl (s.flitSeen.setB .mirPEvent 3 e.part)) { reg := .mirPEvent, bit := 3, part := some e.part, value := e.number }).sent
  exact ⟨l, congrArg (· ++ [Output.reflectCtl e.hub 2 [e.part, e.hub, e.number]]) hl.symm⟩

/-! Mirror links (R527). -/

section
variable {s : State} {m : Fin 2} (hu : s.reflectUp m = true)
include hu

theorem execReflectKeepalive_of_up {t : State} (ht : s.reach (s.mir.keptAt.getD m 0 + 1000) = t) :
    execReflectKeepalive m s = .next (({ t with mir := { t.mir with keptAt := t.mir.keptAt.set m t.time } } : State).send (.reflectCtl m 0 [])) := by
  subst ht
  exact congrArg _ (if_pos hu)

theorem execReflectLinkTimeout_of_up : execReflectLinkTimeout m s = .next ((s.reach (s.mir.lastFlit.getD m 0 + 8000)).loseReflect m) := congrArg _ (if_pos hu)

theorem execReflectFlitCrcFail_of_few (hn : s.mir.replays.getD m 0 < 4) : execReflectFlitCrcFail m s =
    .next ((({ s with mir := { s.mir with replays := s.mir.replays.set m (s.mir.replays.getD m 0 + 1) } } : State).incEvt .mirReplays).send (.reflectCtl m 1 [])) := by
  have hfew : ¬ 5 ≤ s.mir.replays.getD m 0 + 1 := by omega
  simp only [execReflectFlitCrcFail, hu, Bool.not_true, Bool.false_eq_true, if_false, if_neg hfew]

theorem execReflectFlitCrcFail_of_many (hn : 4 ≤ s.mir.replays.getD m 0) : execReflectFlitCrcFail m s = .next (s.loseReflect m) := by
  have hmany : 5 ≤ s.mir.replays.getD m 0 + 1 := by omega
  simp only [execReflectFlitCrcFail, hu, Bool.not_true, Bool.false_eq_true, if_false, if_pos hmany]

end

/-! Partner loss (R535). -/

section
variable {s : State} {p : PartId}

theorem execPartnerFenceTimeout_of_mayFence (h : s.mayFence p = true) : execPartnerFenceTimeout p s = .next ((s.reach (s.mir.lostAt.getD 0 + s.mirT / 2)).fence p) :=
  congrArg _ (if_pos h)

section
variable (hl : s.mir.lostAt.isSome = true) (hf : s.mayFence p = false)
include hl hf

theorem execPartnerTimeout_of_primary (hr : s.mirRole p = 1) (hs : s.mirState p = 3) : execPartnerTimeout p s = .next ((s.reach (s.mir.lostAt.getD 0 + s.mirT)).enterSolo p) := by
  have hlost : s.mir.lostAt.isNone = false := by rw [Option.isNone_eq_false_iff]; exact hl
  simp only [execPartnerTimeout, hlost, State.lossEnd, hf, hr, hs, Bool.false_eq_true, if_false, Nat.reduceBEq, Bool.and_false, true_and, or_true, if_true]

theorem execPartnerTimeout_of_secondary (h10 : s.fpDown 10 = false) (h11 : s.fpDown 11 = false) (hr : s.mirRole p = 2) (hs : s.mirState p = 6) (ht : (s.mirEntry p).takeover = true)
    (hc : s.hasCopy p = true) : execPartnerTimeout p s = .next ((s.reach (s.mir.lostAt.getD 0 + s.mirT)).promote p) := by
  have hlost : s.mir.lostAt.isNone = false := by rw [Option.isNone_eq_false_iff]; exact hl
  simp only [execPartnerTimeout, hlost, State.lossEnd, hf, hr, hs, ht, hc, h10, h11, Bool.false_eq_true, if_false, Bool.or_self, Bool.false_and, OfNat.ofNat_ne_one, false_and, and_self, if_true]

end

/-! Commands of MIR_P_CTRL (R526, R535 to R539). -/

theorem execPromote_of_copy (h10 : s.fpDown 10 = false) (h11 : s.fpDown 11 = false) (hs : s.mirState p = 6) (hc : s.hasCopy p = true) :
    execPromote p s = .next ((s.promote p).wrB .mirPCtrl 0 false p) := by
  simp only [execPromote, h10, h11, Bool.or_self, Bool.false_eq_true, if_false, State.promoteCmd, hs, hc, Bool.not_true, ne_eq, not_true_eq_false, or_self]

theorem State.unfence_of_fenced (hs : s.mirState p = 5) : s.unfence p = (s.enterSolo p).wrB .mirPCtrl 1 false p := if_neg (not_not_intro hs)

theorem State.demoteCmd_of_conflict (hs : s.mirState p = 9) : s.demoteCmd p = (s.becomeSecond p (s.mirGen p)).wrB .mirPCtrl 5 false p := if_neg (not_not_intro hs)

section
variable (hr : s.mirRole p = 1)
include hr

theorem execDetach_of_mirrored (hs : s.mirState p = 3) :
    execDetach p s = .next (((s.enterSolo p).setMirPart p { (s.enterSolo p).mirPart p with detached := true }).wrB .mirPCtrl 3 false p) := by
  have hsec : ¬ (s.mirRole p = 2 ∧ (s.mirState p = 2 ∨ s.mirState p = 3)) := by omega
  have hno : ¬ (s.mirRole p ≠ 1 ∨ (s.mirState p ≠ 2 ∧ s.mirState p ≠ 3)) := by omega
  simp only [execDetach, if_neg hsec, State.detachCmd, if_neg hno]

section
variable (hu : s.anyReflect = true)
include hu

theorem State.mayClose_of_mirrored (hs : s.mirState p = 3) : s.mayClose p = true := by simp [State.mayClose, hr, hs, hu]

theorem State.snapshotCmd_of_mirrored (hs : s.mirState p = 3) {t : State} (ht : (s.closeBoth p).wrB .mirPCtrl 6 true p = t) :
    s.snapshotCmd p = t.setMirPart p { t.mirPart p with snapEpoch := some ((t.mirPart p).sent.getD 0 0, (t.mirPart p).sent.getD 1 0) } := by
  subst ht
  exact if_neg (by rw [State.mayClose_of_mirrored hr hu hs]; decide)

theorem State.switchCmd_of_mirrored (hs : s.mirState p = 3) (hw : (s.mirPart p).switching = none) :
    s.switchCmd p = (s.wrB .mirPCtrl 2 true p).setMirPart p { s.mirPart p with switching := some s.time } := by
  have hno : ¬ (s.mirRole p ≠ 1 ∨ s.mirState p ≠ 3 ∨ (s.mirPart p).switching.isSome = true ∨ (!s.anyReflect) = true) := by simp [hr, hs, hw, hu]
  exact if_neg hno

theorem State.attachCmd_of_solo (hs : s.mirState p = 4) : s.attachCmd p = (s.startRebuild p).wrB .mirPCtrl 4 false p := by
  have hno : ¬ (s.mirRole p ≠ 1 ∨ s.mirState p ≠ 4 ∨ (!s.anyReflect) = true) := by simp [hr, hs, hu]
  exact if_neg hno

theorem execMirrorRebuildDone_of_async (hs : s.mirState p = 2) {t u : State} (ht : s.rebuildMove p (s.framesOf p).length = t) (ha : t.mirAsync p = true) (hc : t.closeBoth p = u) :
    execMirrorRebuildDone p s = .next (((u.setMirPart p { u.mirPart p with rebuildPtr := none }).setMirState p 3).setB .mirEvent 3) := by
  have hno : ¬ (s.mirRole p ≠ 1 ∨ s.mirState p ≠ 2 ∨ (!s.anyReflect) = true) := by simp [hr, hs, hu]
  simp only [execMirrorRebuildDone, if_neg hno, ht, ha, if_true, hc]

end

theorem execSwitchDrainEnd_of_idle {t0 : Nat} (hw : (s.mirPart p).switching = some t0) (he : (s.mirPart p).switchEpoch = none) (hi : s.switchIdle p = true) {t : State} (ht : s.closeBoth p = t) :
    execSwitchDrainEnd p s = .next (t.setMirPart p { t.mirPart p with switchEpoch := some ((t.mirPart p).sent.getD 0 0, (t.mirPart p).sent.getD 1 0) }) := by
  have hsec : ¬ s.mirRole p = 2 := by omega
  simp only [execSwitchDrainEnd, if_neg hsec, hw, he, hi, Option.isSome_none, Bool.false_eq_true, if_false, if_true, ht]

end

/-- A partition that is not mirrored refuses what needs a mirror. -/
theorem mirror_commands_refused (hs : s.mirState p = 0) :
    s.unfence p = s.mirRefuse p 1 stDenied ∧ execDetach p s = .next (s.mirRefuse p 3 stDenied) ∧ s.attachCmd p = s.mirRefuse p 4 stDenied ∧ s.demoteCmd p = s.mirRefuse p 5 stDenied ∧
      s.snapshotCmd p = s.mirRefuse p 6 stDenied := by
  have hsec : ¬ (s.mirRole p = 2 ∧ (s.mirState p = 2 ∨ s.mirState p = 3)) := by omega
  have hclose : (!s.mayClose p) = true := by simp [State.mayClose, hs]
  exact ⟨if_pos (by omega), congrArg _ ((if_neg hsec).trans (if_pos (by omega))), if_pos (by omega), if_pos (by omega), if_pos hclose⟩

end

/-! The hello exchange (R525). -/

theorem rateCode_le (r : Nat) : rateCode r ≤ 4 := by
  unfold rateCode
  split_ifs <;> decide

/-- What a sound HELLO leaves where it names no partition. -/
def State.helloSeen (s : State) (m : Fin 2) (x : Hello) : State :=
  let t := (s.wrF .mirStatus (2 * m) 2 3).wrF .mirStatus (4 + 3 * m) 3 (rateCode (s.mirRate x.rate))
  let t := (t.clrB .mirStatus 10).wr .mirPartnerId (BitVec.ofNat 64 x.identity.toNat)
  let t := { t with mir := { t.mir with lostAt := none, lastFlit := t.mir.lastFlit.set m t.time, replays := t.mir.replays.set m 0 } }
  t.send (.reflectCtl m 4 [])

section
variable {s : State} {m : Fin 2} {x : Hello}

theorem execMirrorHello_of_sound (hb : s.mir.barred = false) (hp : s.portsReady = true) (hu : s.reflectUp m = false) (hx : s.helloBad m x = false) (hd : x.mirrorDigestAgrees = true)
    (hn : x.parts = []) : execMirrorHello m x s = .next (s.helloSeen m x) := by
  simp only [execMirrorHello, hb, hp, hu, hx, hd, hn, Bool.not_true, Bool.or_self, Bool.false_eq_true, if_false, List.all_nil, Bool.and_self, if_true, List.zipIdx_nil, List.foldl_nil]
  rfl

section
variable (h : s.regs.wf = true)
include h

/-- The link's state and rate are what the exchange sets; clearing PARTNER_LOST and the partner's identity leave them. -/
theorem State.rdF_helloSeen {lo len : Nat} (hl : lo + len ≤ 10) : (s.helloSeen m x).rdF .mirStatus lo len =
    ((s.wrF .mirStatus (2 * m) 2 3).wrF .mirStatus (4 + 3 * m) 3 (rateCode (s.mirRate x.rate))).rdF .mirStatus lo len := by
  have h1 := State.wrF_regs_wf h .mirStatus (2 * m) 2 3 0 0
  have h2 := State.wrF_regs_wf h1 .mirStatus (4 + 3 * m) 3 (rateCode (s.mirRate x.rate)) 0 0
  have hid := State.rd_wr_name (m := .mirStatus) (n := .mirPartnerId) (State.wrB_regs_wf h2 .mirStatus 10 false 0 0) (by decide) (BitVec.ofNat 64 x.identity.toNat) 0 0 0 0
  refine (congrArg (fld · lo len) hid).trans ?_
  exact State.rdF_wrF_field h2 .mirStatus 10 1 0 lo len 0 0 (by omega) (by omega)

theorem State.reflectUp_helloSeen : (s.helloSeen m x).reflectUp m = true := by
  have hm : m.val < 2 := m.isLt
  have h1 := State.wrF_regs_wf h .mirStatus (2 * m) 2 3 0 0
  rw [State.reflectUp, State.rdF_helloSeen h (by omega), State.rdF_wrF_field h1 .mirStatus (4 + 3 * m) 3 _ (2 * m) 2 0 0 (by omega) (by omega),
    State.rdF_wrF_self h .mirStatus (2 * m) 2 3 0 0 (by omega)]
  rfl

theorem State.rate_helloSeen : (s.helloSeen m x).rdF .mirStatus (4 + 3 * m) 3 = rateCode (s.mirRate x.rate) := by
  have hm : m.val < 2 := m.isLt
  have hr := rateCode_le (s.mirRate x.rate)
  have h1 := State.wrF_regs_wf h .mirStatus (2 * m) 2 3 0 0
  rw [State.rdF_helloSeen h (by omega), State.rdF_wrF_self h1 .mirStatus (4 + 3 * m) 3 _ 0 0 (by omega)]
  omega

theorem State.partner_helloSeen : (s.helloSeen m x).rd .mirPartnerId = x.identity := by
  have h1 := State.wrF_regs_wf h .mirStatus (2 * m) 2 3 0 0
  have h2 := State.wrF_regs_wf h1 .mirStatus (4 + 3 * m) 3 (rateCode (s.mirRate x.rate)) 0 0
  have hid := State.rd_wr_self (State.wrB_regs_wf h2 .mirStatus 10 false 0 0) .mirPartnerId (BitVec.ofNat 64 x.identity.toNat) 0 0
  rw [if_neg (by decide)] at hid
  exact hid.trans (by rw [BitVec.ofNat_toNat, BitVec.setWidth_eq])

end

end

/-- Settles O57. That a refused command is DENIED, that a switch has drained when the partition has no fetched descriptor and no kernel, and that an epoch damaged twice restarts the copy are the model's choices
(log 52). -/
theorem mirrorEvents : Obligations.MirrorEvents := by
  refine ⟨fun s p h hc hs => ⟨execEpochClose_of_async hc hs, execEpochClose_of_snapshot hc hs, execEpochClose_of_count hc hs⟩, fun s p h => ?close,
    fun s p h n hr hs hu hn _ _ h1 h2 => execEpochAck_ok hr hs hu hn rfl h1 h2, fun s p h n hr hs hu hn => ⟨execEpochAck_again hr hs hu hn, execEpochAck_failed hr hs hu hn⟩,
    fun s e hr hs hu => ⟨execEpochReceived_of_part hr hs hu, fun hc hk hb hn hq => execEpochReceived_of_sound hr hs hu hc hk hb hn hq rfl, fun hw hc hk hn => ?damaged⟩,
    fun s m hu => ⟨execReflectKeepalive_of_up hu rfl, rfl, execReflectLinkTimeout_of_up hu, execReflectFlitCrcFail_of_few hu, execReflectFlitCrcFail_of_many hu⟩, fun s p => ?command,
    fun s m x hw hb hp hu hx hd hn => ?hello⟩
  case close =>
    have hm := State.mirPart_closeEpoch s p h
    exact ⟨_, rfl, rfl, congrArg MirPart.openRecs hm, congrArg MirPart.sent hm⟩
  case damaged => exact ⟨_, execEpochReceived_of_damaged hr hs hu hc hk hn, State.rdB_askAgain hw e, State.retried_askAgain s e, State.out_askAgain s e⟩
  case command =>
    refine ⟨execPartnerFenceTimeout_of_mayFence, execPartnerTimeout_of_primary, fun h10 h11 hl hf hr hs ht hc => execPartnerTimeout_of_secondary hl hf h10 h11 hr hs ht hc, execPromote_of_copy,
      fun hs => congrArg Host.Outcome.next (State.unfence_of_fenced hs), fun hr hs => ⟨execDetach_of_mirrored hr hs, fun hu => ?snapshot, fun hu hw => ?switch⟩,
      fun hr hs hu => congrArg Host.Outcome.next (State.attachCmd_of_solo hr hu hs), fun hs => congrArg Host.Outcome.next (State.demoteCmd_of_conflict hs), fun hr hs hu ha => ?rebuilt,
      fun t0 hr hw he hi => ?drained, fun hs => ?refused⟩
    case snapshot => exact congrArg Host.Outcome.next (State.snapshotCmd_of_mirrored hr hu hs rfl)
    case switch => exact congrArg Host.Outcome.next (State.switchCmd_of_mirrored hr hu hs hw)
    case rebuilt => exact execMirrorRebuildDone_of_async hr hu hs rfl ha rfl
    case drained => exact execSwitchDrainEnd_of_idle hr hw he hi rfl
    case refused =>
      obtain ⟨h1, h3, h4, h5, h6⟩ := mirror_commands_refused hs
      exact ⟨congrArg Host.Outcome.next h1, h3, congrArg Host.Outcome.next h4, congrArg Host.Outcome.next h5, congrArg Host.Outcome.next h6⟩
  case hello =>
    exact ⟨_, execMirrorHello_of_sound hb hp hu hx hd hn, State.reflectUp_helloSeen hw.regs, State.partner_helloSeen hw.regs, State.rate_helloSeen hw.regs, rfl, rfl⟩

end Sys2Proof.Machine
end

section
/-! PROOFS. Power states (17_power_states): requests, drains, transitions and wake events (R548 to R553, R557 to R560). -/

namespace Sys2Proof.Machine

section
variable {s : State}

/-! Requests (R548, R549, R559). -/

/-- In Eclipse nothing that could carry a request is powered. -/
theorem State.powerReq_of_eclipse (hc : s.rdF .pwrState 0 2 = 3) (hr : s.rdB .pwrState 7 = false) (n : Nat) : s.powerReq n = s := if_pos ⟨hc, by rw [hr]; rfl⟩

section
variable (h : s.regs.wf = true) (hc : s.rdF .pwrState 0 2 ≠ 3) {n : Nat}
include h hc

theorem State.powerReq_of_awake : s.powerReq n =
    if (!s.rdB .pwrState 7) = true ∧ n < s.rdF .pwrState 0 2 then ((s.wrF .pwrReq 0 2 n).wr .pwrWakeCause 8).pwrRequest n else (s.wrF .pwrReq 0 2 n).pwrRequest n := by
  have hrun : (s.wrF .pwrReq 0 2 n).rdB .pwrState 7 = s.rdB .pwrState 7 := congrArg (· == 1) (State.rdF_wrF_name h (by decide) ..)
  have hcur : (s.wrF .pwrReq 0 2 n).rdF .pwrState 0 2 = s.rdF .pwrState 0 2 := State.rdF_wrF_name h (by decide) ..
  refine (if_neg fun he => hc he.1).trans ?_
  simp only [hrun, hcur]

theorem State.powerReq_of_lower (hn : s.rdF .pwrState 0 2 ≤ n) : s.powerReq n = (s.wrF .pwrReq 0 2 n).pwrRequest n := by
  rw [State.powerReq_of_awake h hc, if_neg (by omega)]

theorem State.powerReq_of_higher (hr : s.rdB .pwrState 7 = false) (hn : n < s.rdF .pwrState 0 2) : s.powerReq n = ((s.wrF .pwrReq 0 2 n).wr .pwrWakeCause 8).pwrRequest n := by
  rw [State.powerReq_of_awake h hc, if_pos ⟨by rw [hr]; rfl, hn⟩]

end

/-! Drains (R552, R553). -/

/-- The entry to Dusk commits without links to take down. -/
theorem State.commitEntry_of_dusk (h : s.regs.wf = true) (hn : s.rdF .pwrState 2 2 < 2) :
    s.commitEntry = (s.wr .pwrDrainLast (BitVec.ofNat 64 (min ((s.time - s.power.drainAt) / 1000) (2 ^ 24 - 1)))).wrF .pwrState 8 4 1 := by
  generalize hw : BitVec.ofNat 64 (min ((s.time - s.power.drainAt) / 1000) (2 ^ 24 - 1)) = w
  have hold : (s.wr .pwrDrainLast w).rdF .pwrState 2 2 = s.rdF .pwrState 2 2 := congrArg (fld · 2 2) (State.rd_wr_name h (by decide) ..)
  have hreq : ((s.wr .pwrDrainLast w).wrF .pwrState 8 4 1).rdF .pwrState 2 2 = s.rdF .pwrState 2 2 :=
    (State.rdF_wrF_field (State.wr_regs_wf h ..) .pwrState 8 4 1 2 2 0 0 (by decide) (by decide)).trans hold
  simp only [State.commitEntry, hw, hreq, if_pos hn]

section
variable (he : s.entryDraining = true)
include he

theorem execDrainEnd_of_drained (hd : s.drained = true) : execDrainEnd s = .next s.commitEntry := by
  simp only [execDrainEnd, he, hd, Bool.not_true, Bool.or_self, Bool.false_eq_true, if_false]

section
variable (hd : s.drained = false) {n : Nat} (hn : s.rdF .pwrState 2 2 = n) {v : State}
  (hv : (if n < 2 then s.reach (s.power.drainAt + 1000 * s.powerRec.drainUs)
    else ((s.reach (s.power.drainAt + 1000 * s.powerRec.drainUs)).tier.moves.filter (·.running)).foldl (fun t m => t.abortMove m.part m.frame) (s.reach (s.power.drainAt + 1000 * s.powerRec.drainUs))) = v)
include hd hn hv

theorem execDrainTimeoutExpiry_of_stuck (hl : v.drained = false) :
    execDrainTimeoutExpiry s = .next (((v.wr .pwrResult (BitVec.ofNat 64 (stDrain + 256 * n))).event { reg := .pwrEvent, bit := 0, status := stDrain, value := n }).pwrEnd) := by
  simp only [execDrainTimeoutExpiry, he, hd, hn, hv, hl, Bool.not_true, Bool.or_self, Bool.false_eq_true, if_false, State.pwrResult]

/-- Where nothing but the aborted moves was left, the entry commits. -/
theorem execDrainTimeoutExpiry_of_aborted (hl : v.drained = true) : execDrainTimeoutExpiry s = .next v.commitEntry := by
  simp only [execDrainTimeoutExpiry, he, hd, hn, hv, hl, Bool.not_true, Bool.or_self, Bool.false_eq_true, if_false, if_true]

end

end

/-! Transitions and wake events (R549, R555 to R560). -/

section
variable (hr : s.rdB .pwrState 7 = true) (he : s.entryDraining = false) (hh : s.handover = false) {n : Nat} (hn : s.rdF .pwrState 2 2 = n) {bad : Bool} {l : List Nat}
  {m : List (Nat × Nat × Bool)} {b : BitVec 2} {t : State} (ht : (if s.rdF .pwrState 0 2 < n then s.enterState n else s.leaveState n bad l m b State.heldWrites) = t)
include hr he hh hn ht

theorem execPowerTransitionDone_of_up (hp : t.rdF .strStartState 0 4 ≠ 1) :
    execPowerTransitionDone bad l m b s = .next ((t.wr .pwrResult (BitVec.ofNat 64 (stDone + 256 * n))).pwrEnd) := by
  simp only [execPowerTransitionDone, hr, he, hh, hn, ht, Bool.not_true, Bool.or_self, Bool.false_eq_true, if_false, if_neg hp, State.pwrResult]

/-- Without a firmware bank that verifies, the module stays at PHASE 1. -/
theorem execPowerTransitionDone_of_unverified (hp : t.rdF .strStartState 0 4 = 1) : execPowerTransitionDone bad l m b s = .next t := by
  simp only [execPowerTransitionDone, hr, he, hh, hn, ht, Bool.not_true, Bool.or_self, Bool.false_eq_true, if_false, if_pos hp]

end

/-- A wake event for a higher state than the present one gives its cause. -/
theorem State.wakeBy_of_idle (hr : s.rdB .pwrState 7 = false) {target : Nat} (ht : target < s.rdF .pwrState 0 2) (cause link : Nat) :
    s.wakeBy target cause link = (s.wr .pwrWakeCause (BitVec.ofNat 64 (2 ^ cause + 256 * link))).wake target := by
  have hw : s.wakes target = true := by rw [State.wakes, hr, if_neg Bool.false_ne_true, decide_eq_true ht]
  exact if_pos hw

theorem execWakeInband_of_night {link : LinkId} (hen : s.rdB .pwrCtrl 2 = true) (hr : s.rdB .pwrState 7 = false) (hc : s.rdF .pwrState 0 2 = 2) (ht : s.rdF .pwrCtrl 0 2 < 2) :
    execWakeInband link s = .next ((s.wr .pwrWakeCause (BitVec.ofNat 64 (2 + 256 * link.val))).wake (s.rdF .pwrCtrl 0 2)) := by
  have hw := State.wakeBy_of_idle hr (ht.trans_eq hc.symm) 1 link
  simp only [execWakeInband, hen, hr, hc, Bool.not_true, Bool.false_eq_true, if_false, if_true]
  exact congrArg _ hw

section
variable {a : BitVec 7}

theorem execWakeSidebandMatch_of_eclipse (ha : s.sbAddress a = true) (hr : s.rdB .pwrState 7 = false) (hc : s.rdF .pwrState 0 2 = 3) (ht : s.rdF .pwrCtrl 0 2 < 3) :
    execWakeSidebandMatch a s = .next ((s.wr .pwrWakeCause 1).wake (s.rdF .pwrCtrl 0 2)) := by
  have hw := State.wakeBy_of_idle hr (ht.trans_eq hc.symm) 0 0
  simp only [execWakeSidebandMatch, ha, hr, hc, Bool.not_true, Bool.false_eq_true, if_false, if_true]
  exact congrArg _ hw

theorem execWakeSidebandMatch_of_other (ha : s.sbAddress a = false) : execWakeSidebandMatch a s = .next s := by
  simp only [execWakeSidebandMatch, ha, Bool.not_false, if_true]

end

end

/-- Settles O59. That a request in Eclipse has no effect and that a wake event needs something to act on are the model's choices (log 53), and so is that at the drain limit the running moves abort first, after which
the drain may have ended (log 82). -/
theorem powerEvents : Obligations.PowerEvents := by
  intro s hs
  refine ⟨fun n hc hr => congrArg Host.Outcome.next (State.powerReq_of_eclipse hc hr n), fun n hc hn => congrArg Host.Outcome.next (State.powerReq_of_lower hs.regs hc hn),
    fun n hc hr hn => congrArg Host.Outcome.next (State.powerReq_of_higher hs.regs hc hr hn), rfl,
    fun he hd hn => (execDrainEnd_of_drained he hd).trans (congrArg Host.Outcome.next (State.commitEntry_of_dusk hs.regs hn)), fun he hd => ?limit, fun bad l m b hr he hh => ?done,
    fun link hen hr hc ht => execWakeInband_of_night hen hr hc ht, fun a ha hr hc ht => execWakeSidebandMatch_of_eclipse ha hr hc ht, fun a ha => execWakeSidebandMatch_of_other ha⟩
  case limit =>
    intro n u v
    generalize hv : v = w
    exact ⟨execDrainTimeoutExpiry_of_stuck he hd rfl hv, execDrainTimeoutExpiry_of_aborted he hd rfl hv, fun hn => by rw [← hv]; exact (congrArg State.drained (if_pos hn)).trans hd⟩
  case done =>
    intro n t
    generalize ht : t = u
    exact ⟨execPowerTransitionDone_of_up hr he hh rfl ht, execPowerTransitionDone_of_unverified hr he hh rfl ht⟩

end Sys2Proof.Machine
end

section
/-! PROOFS. The hold-up store (18_energy_store): samples, capacitance tests, the budget, loss of input and the flush (R569, R571, R573, R577, R580 to R584). -/

namespace Sys2Proof.Machine

section
variable {s : State}

/-- A period whose end has passed moves no time. -/
theorem State.reach_of_le {t : Nat} (h : t ≤ s.time) : s.reach t = s := by
  unfold State.reach
  rw [max_eq_left h]

/-! Samples and budgets come one after another (R569, R577). -/

theorem execBudgetLimitUpdate_of_due (h : ∀ t, s.hup.limitAt = some t → t + 10 ^ 8 ≤ s.time) :
    execBudgetLimitUpdate s = .next (({ s with hup := { s.hup with limitAt := some s.time } } : State).limitTo s.energyLimit) := by
  cases ho : s.hup.limitAt with
  | none => simp only [execBudgetLimitUpdate, ho]
  | some t => simp only [execBudgetLimitUpdate, ho, State.reach_of_le (h t ho)]

theorem execStoreMonitorSample_of_due {x : StoreSample} (h : ∀ t, s.hup.sampleAt = some t → t + 10 ^ 7 ≤ s.time) (hx : x.packMv ≤ 65535) {t u : State}
    (ht : ({ s with hup := { s.hup with sampleAt := some s.time } } : State).takeReadings x x.packMv = t)
    (hu : ((t.wr .hupEnergyJ (BitVec.ofNat 64 (min (t.energy / 10 ^ 11) 65535))).chargeCount x.chargeMc).storeState = u) :
    execStoreMonitorSample x s = .next (u.fullEdge (decide (u.chargeTarget ≤ x.packMv))) := by
  cases ho : s.hup.sampleAt with
  | none => simp only [execStoreMonitorSample, ho, min_eq_left hx, ht, hu]
  | some a => simp only [execStoreMonitorSample, ho, State.reach_of_le (h a ho), min_eq_left hx, ht, hu]

/-! Capacitance tests (R571). -/

section
variable (hb : s.rdB .hupStatus 5 = false)
include hb

theorem State.capTest_of_ready (hr : s.rdF .hupStatus 0 3 = 2) : s.capTest = (s.setB .hupCtrl 0).testStart := by
  simp only [State.capTest, hb, hr, Bool.false_eq_true, if_false, if_true]

theorem State.capTest_of_unready (hr : s.rdF .hupStatus 0 3 ≠ 2) : s.capTest = s.clrB .hupCtrl 0 := by
  simp only [State.capTest, hb, Bool.false_eq_true, if_false, if_neg hr]

end

section
variable {t0 mv : Nat} (hb : s.rdB .hupStatus 5 = true) (ht : s.hup.testAt = some t0) (hm : 0 < mv)
include hb ht hm

/-- A test ends 2 s after its start with the measured capacitance, and reports one below four fifths of the rated. -/
theorem execCapTestDone_of_fall {mF : Nat} (hf : min (4000000 / mv) 65535 = mF) {t : State}
    (hs : ((({ s with hup := { s.hup with testedAt := some t0 } }.reach (t0 + 2 * 10 ^ 9)).clrB .hupStatus 5).clrB .hupCtrl 0).wr .hupCapMf (BitVec.ofNat 64 mF) = t) :
    execCapTestDone mv s = .next (if 5 * mF < 4 * capRated then t.event { reg := .hupEvent, bit := 5, value := mF } else t) := by
  subst hs
  have hpos : ¬ mv = 0 := by omega
  simp only [execCapTestDone, hb, ht, if_neg hpos, hf, Bool.not_true, Bool.false_eq_true, if_false, Option.getD_some]

end

/-! The input (R580). -/

theorem execInputBelow40v_of_good (h : s.hup.lowAt = none) : execInputBelow40v s = .next { s.clrB .hupStatus 3 with hup := { s.hup with lowAt := some s.time } } := by
  rw [execInputBelow40v, h]
  rfl

theorem execInputGlitch_of_short {t : Nat} (h : s.hup.lowAt = some t) (ht : s.time < t + 50000) : execInputGlitch s = .next { s.setB .hupEvent 6 with hup := { s.hup with lowAt := none } } := by
  simp only [execInputGlitch, h, if_neg (Nat.not_le.mpr ht)]

theorem execInputPowerGood_of_on (h : s.rdF .strStartState 0 4 ≠ 8) : execInputPowerGood s = .next { s.setB .hupStatus 3 with hup := { s.hup with lowAt := none } } := by
  simp only [execInputPowerGood, beq_false_of_ne h, Bool.and_false, Bool.false_and, Bool.false_eq_true, if_false]

theorem execInputPowerLost_of_low {t : Nat} (h : s.hup.lowAt = some t) :
    execInputPowerLost s = .next ((({ s.clrB .hupStatus 3 with hup := { s.hup with lowAt := some t } } : State).reach (t + 50000)).handOver false) := by
  rw [execInputPowerLost, h]
  rfl

/-! The flush (R581 to R584). -/

section
variable (h : s.handover = true)
include h

theorem execFlushVlowStop_of_handover :
    execFlushVlowStop s = .next ((((({ s with free := s.free + 1 } : State).flushDurable (some (Config.freeNat s.free))).setB .hupEvent 4).handoverEnd false).powerOff) := by
  simp only [execFlushVlowStop, h, Bool.not_true, Bool.false_eq_true, if_false]
  rfl

/-- A flush ends in power-off where the supply has not come back or the module was too hot. -/
theorem execHoldupFlushDone_of_off {u : State} (hu : u = (s.flushDurable none).handoverEnd (s.flushDurable none).journalsWhole) (hoff : u.hup.trip = true ∨ u.rdB .hupStatus 3 = false) :
    execHoldupFlushDone s = .next u.powerOff := by
  have hgo : (u.hup.trip || !u.rdB .hupStatus 3) = true := by
    rcases hoff with hoff | hoff <;> simp [hoff]
  simp only [execHoldupFlushDone, h, Bool.not_true, Bool.false_eq_true, if_false, ← hu, hgo, if_true]

end

end

/-- Settles O55. When samples and budgets are taken, how the capacitance is rounded, that a fall of 0 gives 65,535 mF, and that a flush which V_LOW stops is a flush all the same are the model's choices (log 58), and
so is the 29,170 mF that stands for the capacitance until a test has run (log 59). -/
theorem holdUpEvents : Obligations.HoldUpEvents := by
  refine ⟨fun s h => execBudgetLimitUpdate_of_due h, fun s x h hx => ?sample, fun s hb => ⟨fun hr => congrArg Host.Outcome.next (State.capTest_of_ready hb hr), fun hr => congrArg Host.Outcome.next (State.capTest_of_unready hb hr)⟩,
    fun s t0 mv hb ht hm => ?tested,
    fun s => ⟨rfl, execInputBelow40v_of_good, fun t h ht => execInputGlitch_of_short h ht, execInputPowerGood_of_on, fun t h => execInputPowerLost_of_low h, rfl⟩,
    fun s h => ⟨execFlushVlowStop_of_handover h, fun u hu hoff => execHoldupFlushDone_of_off h hu hoff⟩⟩
  case sample => exact execStoreMonitorSample_of_due h hx rfl rfl
  case tested =>
    intro mF t
    have hdone := execCapTestDone_of_fall hb ht hm (mF := mF) rfl (t := t) rfl
    exact ⟨fun hn => hdone.trans (congrArg _ (if_neg (Nat.not_lt.mpr hn))), fun hn => hdone.trans (congrArg _ (if_pos hn))⟩

end Sys2Proof.Machine
end

section
/-! PROOFS. Firmware and management (19_firmware_management): the management mailbox, the update protocol, processor restarts, SPDM, negotiation and the power loop (R588 to R604, R607). -/

namespace Sys2Proof.Machine

/-! Requests to the management mailbox (R602 to R604). -/

section
variable {s : State} (hu : s.mboxUp = true)
include hu

/-- A request that is served is answered with what its command returns. -/
theorem State.mgmtMbox_of_up {changes : Bool} (hh : (changes && s.handover) = false) {f : Mbox} {t : State} {st : Nat} {l : List Nat} (hf : f s = (t, st, l)) (op : Nat) :
    s.mgmtMbox op changes f = t.send (.mgmt op st l) := by
  simp only [State.mgmtMbox, hu, hh, hf, Bool.not_true, Bool.false_eq_true, if_false]

section
variable {off size : Nat}

theorem execReadRegister_of_far (ho : 2 ^ 24 ≤ off) : execReadRegister off size s = .next (s.send (.mgmt 6 stRange [])) :=
  congrArg Host.Outcome.next (State.mgmtMbox_of_up hu (Bool.false_and _) (if_pos ho) 6)

section
variable (ho : off < 2 ^ 24) {t : State} {v : Nat}
include ho

theorem execReadRegister_of_value (hr : s.readAccess .mgmt off size = (t, .value v)) : execReadRegister off size s = .next (t.send (.mgmt 6 stDone [v])) :=
  congrArg Host.Outcome.next (State.mgmtMbox_of_up hu (Bool.false_and _) (by rw [State.mboxRead, if_neg (Nat.not_le.mpr ho), hr]) 6)

theorem execWriteRegister_of_silent (hw : s.writeAccess .mgmt off size v = (t, .silent)) : execWriteRegister off size v s = .next (t.send (.mgmt 7 stDone [])) :=
  congrArg Host.Outcome.next (State.mgmtMbox_of_up hu (Bool.false_and _) (by rw [State.mboxWrite, if_neg (Nat.not_le.mpr ho), hw]) 7)

theorem execWriteRegister_of_unsupported (hw : s.writeAccess .mgmt off size v = (t, .unsupported)) : execWriteRegister off size v s = .next (t.send (.mgmt 7 stAlign [])) :=
  congrArg Host.Outcome.next (State.mgmtMbox_of_up hu (Bool.false_and _) (by rw [State.mboxWrite, if_neg (Nat.not_le.mpr ho), hw]) 7)

end

end

end

/-- Settles O14. The answers RANGE past the view and ALIGN for a write that the view refuses are the model's choices (log 57). -/
theorem mailboxAccessesRegisters : Obligations.MailboxAccessesRegisters := fun _ _ _ hu =>
  ⟨execReadRegister_of_far hu, fun ho _ _ hr => execReadRegister_of_value hu ho hr, fun ho _ _ hw => execWriteRegister_of_silent hu ho hw,
    fun ho _ _ hw => execWriteRegister_of_unsupported hu ho hw⟩

/-! The firmware update protocol (R597, R598, R604). -/

section
variable {s : State} (hu : s.pldmUp = true)
include hu

theorem State.pldm_of_up {changes : Bool} (hh : (changes && s.handover) = false) {f : State → State × Nat × List Nat} {t : State} {code : Nat} {l : List Nat} (hf : f s = (t, code, l)) (cmd : Nat) :
    s.pldm cmd changes f = t.send (.pldm cmd code l) := by
  simp only [State.pldm, hu, hh, hf, Bool.not_true, Bool.false_eq_true, if_false]

/-- A command that changes the update is refused during the hand-over. -/
theorem State.pldm_of_handover (hh : s.handover = true) (cmd : Nat) (f : State → State × Nat × List Nat) : s.pldm cmd true f = s.send (.pldm cmd 0x87 []) := by
  simp only [State.pldm, hu, hh, Bool.not_true, Bool.false_eq_true, if_false, Bool.and_self, if_true]

section
variable (hh : s.handover = false)
include hh

/-- Outside the hand-over a command that changes the update is served. -/
theorem State.pldm_of_calm {f : State → State × Nat × List Nat} {t : State} {code : Nat} {l : List Nat} (cmd : Nat) (hf : f s = (t, code, l)) : s.pldm cmd true f = t.send (.pldm cmd code l) :=
  State.pldm_of_up hu (by rw [hh]; rfl) hf cmd

theorem execRequestUpdate_of_idle {n : Nat} (h : s.fw.pldm = 0) (hn : n = 1 ∨ n = 2) :
    execRequestUpdate n s = .next (({ s with fw := { s.fw with pldm := 1, table := [], cur := none, done := [] } } : State).send (.pldm 0x10 stDone [])) :=
  congrArg Host.Outcome.next (State.pldm_of_calm hu hh 0x10 ((if_neg (not_not_intro h)).trans (if_neg (by omega))))

theorem execRequestUpdate_of_busy (h : s.fw.pldm ≠ 0) (n : Nat) : execRequestUpdate n s = .next (s.send (.pldm 0x10 0x85 [])) :=
  congrArg Host.Outcome.next (State.pldm_of_calm hu hh 0x10 (if_pos h))

theorem execPassComponentTable_of_requested (h : s.fw.pldm = 1) (l : List Component) :
    execPassComponentTable l s = .next (({ s with fw := { s.fw with pldm := 2, table := l } } : State).send (.pldm 0x13 stDone [])) :=
  congrArg Host.Outcome.next (State.pldm_of_calm hu hh 0x13 (if_neg (not_not_intro h)))

theorem execPassComponentTable_of_other (h : s.fw.pldm ≠ 1) (l : List Component) : execPassComponentTable l s = .next (s.send (.pldm 0x13 0x85 [])) :=
  congrArg Host.Outcome.next (State.pldm_of_calm hu hh 0x13 (if_pos h))

theorem execUpdateComponent_of_sound {c : Component} (h : s.fw.pldm = 2) (hc : s.componentCheck c = 0) :
    execUpdateComponent c s = .next ((s.setPldm 3 (some c)).send (.pldm 0x14 stDone [])) :=
  congrArg Host.Outcome.next (State.pldm_of_calm hu hh 0x14 ((if_neg (not_not_intro h)).trans (by rw [hc]; rfl)))

theorem execUpdateComponent_of_refused {c : Component} (h : s.fw.pldm = 2) (hc : s.componentCheck c ≠ 0) : execUpdateComponent c s = .next (s.send (.pldm 0x14 (s.componentCheck c) [])) := by
  obtain ⟨k, hk⟩ := Nat.exists_eq_succ_of_ne_zero hc
  exact congrArg Host.Outcome.next (State.pldm_of_calm hu hh 0x14 ((if_neg (not_not_intro h)).trans (by rw [hk]; rfl)))

theorem execUpdateComponent_of_other (h : s.fw.pldm ≠ 2) (c : Component) : execUpdateComponent c s = .next (s.send (.pldm 0x14 0x85 [])) :=
  congrArg Host.Outcome.next (State.pldm_of_calm hu hh 0x14 (if_pos h))

theorem execRequestFirmwareData_of_pulling {c : Component} (h : s.fw.pldm = 3) (hc : s.fw.cur = some c) (n : Nat) :
    execRequestFirmwareData n s = .next (({ s with fw := { s.fw with pulled := s.fw.pulled + min n 4096 } } : State).send (.fwPull c.id s.fw.pulled (min n 4096))) := by
  simp only [execRequestFirmwareData, hu, hh, h, hc, Bool.not_true, Bool.or_self, Bool.false_eq_true, if_false]

theorem execTransferComplete_of_pulling (h : s.fw.pldm = 3) : execTransferComplete true s = .next (({ s with fw := { s.fw with pldm := 4 } } : State).send (.pldm 0x16 stDone [])) :=
  congrArg Host.Outcome.next (State.pldm_of_calm hu hh 0x16 ((if_neg (not_not_intro h)).trans (if_pos rfl)))

theorem execVerifyComplete_of_sound (h : s.fw.pldm = 4) : execVerifyComplete true s = .next (({ s with fw := { s.fw with pldm := 5 } } : State).send (.pldm 0x17 stDone [])) :=
  congrArg Host.Outcome.next (State.pldm_of_calm hu hh 0x17 ((if_neg (not_not_intro h)).trans (if_pos rfl)))

theorem execVerifyComplete_of_failed (h : s.fw.pldm = 4) : execVerifyComplete false s = .next ((s.setPldm 2 none).send (.pldm 0x17 0x83 [])) :=
  congrArg Host.Outcome.next (State.pldm_of_calm hu hh 0x17 ((if_neg (not_not_intro h)).trans (if_neg Bool.false_ne_true)))

/-- Firmware goes to the bank that does not run, whose version is the pending one where it is due next (R596). -/
theorem execApplyComplete_of_firmware {c : Component} (h : s.fw.pldm = 5) (hc : s.fw.cur = some c) (hi : c.id = 1) :
    execApplyComplete true s = .next ((((s.applyBank c).noteDone c).setPldm 2 none).send (.pldm 0x18 stDone [])) :=
  congrArg Host.Outcome.next (State.pldm_of_calm hu hh 0x18 (by simp only [h, hc, hi, Bool.not_true, Bool.false_eq_true, if_false, ne_eq, not_true_eq_false]))

theorem execActivateFirmware_of_firmware {c : Component} (h : s.fw.pldm = 2) (hd : s.fw.done = [c]) (hi : c.id = 1) (w : Bool) :
    execActivateFirmware w s = .next (({ s.wr .fwmPendVersion (BitVec.ofNat 64 c.version) with
      fw := { s.fw with pend := some (1 - s.fw.active), pldm := 0, table := [], cur := none, done := [] } } : State).send (.pldm 0x1A stDone [])) := by
  have hgo : ¬ (s.fw.pldm ≠ 2 ∨ s.fw.done.isEmpty = true) := by simp [h, hd]
  refine congrArg Host.Outcome.next (State.pldm_of_calm hu hh 0x1A ((if_neg hgo).trans ?_))
  simp only [hd, List.foldl_cons, List.foldl_nil, State.fwActivate, if_pos hi]

theorem execCancelUpdateComponent_of_begun (h : 3 ≤ s.fw.pldm) : execCancelUpdateComponent s = .next ((s.setPldm 2 none).send (.pldm 0x1C stDone [])) :=
  congrArg Host.Outcome.next (State.pldm_of_calm hu hh 0x1C (if_neg (Nat.not_lt.mpr h)))

theorem execCancelUpdate_of_busy (h : s.fw.pldm ≠ 0) :
    execCancelUpdate s = .next (({ s with fw := { s.fw with pldm := 0, table := [], cur := none, done := [], pulled := 0 } } : State).send (.pldm 0x1D stDone [])) :=
  congrArg Host.Outcome.next (State.pldm_of_calm hu hh 0x1D (if_neg h))

end

theorem execGetFirmwareParameters_of_up : execGetFirmwareParameters s =
    .next (s.send (.pldm 0x02 stDone [(s.rd .fwmVersion).toNat, (s.rd .fwmPendVersion).toNat, (s.rd .cmpLibVersion).toNat, (s.comp.pendLib.map (·.version)).getD 0])) := by
  cases hc : s.comp.pendLib with
  | none => exact congrArg Host.Outcome.next (State.pldm_of_up hu (Bool.false_and _) (by rw [hc]; rfl) 0x02)
  | some c => exact congrArg Host.Outcome.next (State.pldm_of_up hu (Bool.false_and _) (by rw [hc]; rfl) 0x02)

end

/-- Settles O53. The answers 0x85 to a command out of order, 0x83 to a verification that failed and 0x87 during the hand-over are the model's choices (log 55). -/
theorem firmwareUpdateProtocol : Obligations.FirmwareUpdateProtocol := by
  refine ⟨fun s hu hh => ⟨fun n h hn => execRequestUpdate_of_idle hu hh h hn, fun l h => execPassComponentTable_of_requested hu hh h l, fun c h hc => execUpdateComponent_of_sound hu hh h hc,
      fun c h hc => execUpdateComponent_of_refused hu hh h hc, fun n c h hc => execRequestFirmwareData_of_pulling hu hh h hc n, execTransferComplete_of_pulling hu hh,
      execVerifyComplete_of_sound hu hh, execVerifyComplete_of_failed hu hh, fun c h hc hi => execApplyComplete_of_firmware hu hh h hc hi,
      fun c h hd hi w => execActivateFirmware_of_firmware hu hh h hd hi w, execCancelUpdateComponent_of_begun hu hh, execCancelUpdate_of_busy hu hh, fun h n => execRequestUpdate_of_busy hu hh h n,
      fun h l => execPassComponentTable_of_other hu hh h l, fun h c => execUpdateComponent_of_other hu hh h c⟩,
    fun s hu => ⟨congrArg Host.Outcome.next (State.pldm_of_up hu (Bool.false_and _) rfl 0x1B), congrArg Host.Outcome.next (State.pldm_of_up hu (Bool.false_and _) rfl 0x01),
      execGetFirmwareParameters_of_up hu, fun hh c hc => ?flush⟩⟩
  case flush =>
    obtain ⟨n, rfl⟩ := hc
    exact congrArg Host.Outcome.next (State.pldm_of_handover hu hh 0x10 _)

end Sys2Proof.Machine
end

section
/-! PROOFS. Firmware and management (19_firmware_management): the mailbox's commands, processor restarts, SPDM, negotiation and the power loop (R31, R588 to R594, R600 to R604, R607). -/

namespace Sys2Proof.Machine

/-! Commands of the mailbox (R58, R590, R603, R604). -/

section
variable {s : State} (hu : s.mboxUp = true)
include hu

theorem execGetIdentity_of_up : execGetIdentity s = .next (s.send (.mgmt 1 stDone s.mboxIdentity.2.2)) :=
  congrArg Host.Outcome.next (State.mgmtMbox_of_up hu (Bool.false_and _) (f := State.mboxIdentity) (t := s) (st := stDone) rfl 1)

theorem execGetEvents_of_up (k : Nat) : execGetEvents k s = .next ((s.takeEvents k).1.send (.events none none (s.takeEvents k).2)) := by
  simp only [execGetEvents, hu, Bool.not_true, Bool.false_eq_true, if_false]

theorem execClearEvents_of_listed {h i : Nat} (hi : s.ev.log.findIdx? (fun r => r.handle == h) = some i) :
    execClearEvents h s = .next (({ s with ev := { s.ev with log := s.ev.log.drop (i + 1) } } : State).send (.mgmt 5 stDone [])) :=
  congrArg Host.Outcome.next (State.mgmtMbox_of_up hu (Bool.false_and _) (by rw [State.mboxClear, hi]) 5)

theorem execClearEvents_of_unlisted {h : Nat} (hn : ∀ r ∈ s.ev.log, r.handle ≠ h) : execClearEvents h s = .next (s.send (.mgmt 5 0x89 [])) := by
  have hi : s.ev.log.findIdx? (fun r => r.handle == h) = none := List.findIdx?_eq_none_iff.mpr fun r hr => beq_false_of_ne (hn r hr)
  exact congrArg Host.Outcome.next (State.mgmtMbox_of_up hu (Bool.false_and _) (by rw [State.mboxClear, hi]) 5)

section
variable (hh : s.handover = false)
include hh

/-- A slot takes one key, once. -/
theorem execWriteOwnerKey_of_empty {n : Nat} (h1 : 1 ≤ n) (h3 : n ≤ 3) (hk : s.img.keys.getD n none = none) (k : BitVec 768) :
    execWriteOwnerKey n k s = .next ((({ s with img := { s.img with keys := s.img.keys.set n (some k) } } : State).wrB .strKeyState n true).send (.mgmt 2 stDone [])) :=
  congrArg Host.Outcome.next (State.mgmtMbox_of_up hu (by rw [hh]; rfl) ((if_neg (by omega)).trans (if_neg (by rw [hk]; decide))) 2)

theorem execWriteOwnerKey_of_full {n : Nat} (h1 : 1 ≤ n) (h3 : n ≤ 3) {v : BitVec 768} (hk : s.img.keys.getD n none = some v) (k : BitVec 768) :
    execWriteOwnerKey n k s = .next (s.send (.mgmt 2 0x82 [])) :=
  congrArg Host.Outcome.next (State.mgmtMbox_of_up hu (by rw [hh]; rfl) ((if_neg (by omega)).trans (if_pos (by rw [hk]; rfl))) 2)

theorem execRestartProcessor_of_running {n : Nat} (hn : n < 12) (hs : s.rdF .fwmPState 0 2 n ≠ 2) : execRestartProcessor n s = .next ((s.fpRestart n stDone true).send (.mgmt 3 stDone [])) :=
  congrArg Host.Outcome.next (State.mgmtMbox_of_up hu (by rw [hh]; rfl) ((if_neg (Nat.not_le.mpr hn)).trans (if_neg hs)) 3)

theorem execRestartProcessor_of_halted {n : Nat} (hn : n < 12) (hs : s.rdF .fwmPState 0 2 n = 2) : execRestartProcessor n s = .next (s.send (.mgmt 3 0x86 [])) :=
  congrArg Host.Outcome.next (State.mgmtMbox_of_up hu (by rw [hh]; rfl) ((if_neg (Nat.not_le.mpr hn)).trans (if_pos hs)) 3)

end

end

/-! Restarts (R588 to R592). -/

/-- The time of a restart stands behind those of the earlier ones. -/
def State.noteRestart (s : State) (n : Nat) : State := { s with fw := { s.fw with restarts := s.fw.restarts.set n (s.fw.restarts.getD n [] ++ [s.time]) } }

theorem State.noteRestart_regs_wf {s : State} (h : s.regs.wf = true) (n : Nat) : (s.noteRestart n).regs.wf = true := h

/-- A processor restarts: its cause, the time, and RESTARTING. -/
def State.fpRestarted (s : State) (n cause : Nat) : State := ((s.wrF .fwmPState 8 8 cause n).noteRestart n).wrF .fwmPState 0 2 1 n

/-- A processor is halted: its cause, the time, HALTED, and the record. -/
def State.fpHalted (s : State) (n cause : Nat) : State :=
  ((((s.wrF .fwmPState 8 8 cause n).noteRestart n).wrF .fwmPState 0 2 2 n).wrB .fwmPCtrl 0 false n).event { reg := .fwmEvent, bit := 2, status := cause, value := n }

section
variable {s : State} {n : Nat} (hr : s.fwRuns = true) (hs : s.rdF .fwmPState 0 2 n = 0)
include hr hs

theorem State.fpRestart_of_few (hn : (s.fw.restarts.getD n []).length < 3) (cause : Nat) (cmd : Bool) :
    s.fpRestart n cause cmd = if cmd then (s.fpRestarted n cause).wrB .fwmPCtrl 0 true n else s.fpRestarted n cause := by
  have hfew : decide (3 ≤ (s.fw.restarts.getD n []).length) = false := decide_eq_false (Nat.not_le.mpr hn)
  simp only [State.fpRestart, hr, hs, hfew, Bool.not_true, Bool.false_eq_true, false_or, false_and, OfNat.zero_ne_ofNat, zero_ne_one, if_false, Bool.and_false, Bool.false_and]
  rfl

/-- The fourth restart within 60 s halts the processor. -/
theorem State.fpRestart_of_many {l : List Nat} {t0 : Nat} (hl : s.fw.restarts.getD n [] = l) (h3 : 3 ≤ l.length) (ht : (l.drop (l.length - 3)).head? = some t0) (hd : s.time ≤ t0 + 60 * 10 ^ 9)
    (cause : Nat) (cmd : Bool) : s.fpRestart n cause cmd = s.fpHalted n cause := by
  subst hl
  have hmany : decide (3 ≤ (s.fw.restarts.getD n []).length) = true := decide_eq_true h3
  have htime : decide ((s.wrF .fwmPState 8 8 cause n).time ≤ t0 + 60 * 10 ^ 9) = true := decide_eq_true hd
  simp only [State.fpRestart, hr, hs, hmany, ht, htime, Bool.not_true, Bool.false_eq_true, false_or, false_and, OfNat.zero_ne_ofNat, zero_ne_one, if_false]
  rfl

end

section
variable {s : State} (h : s.regs.wf = true) (n : Nat) {cause : Nat}
include h

/-- The halt is HALTED and its cause in the processor's state register. -/
theorem State.rd_fpHalted : (s.fpHalted n cause).rd .fwmPState n = (((s.wrF .fwmPState 8 8 cause n).noteRestart n).wrF .fwmPState 0 2 2 n).rd .fwmPState n := by
  have h1 := State.noteRestart_regs_wf (State.wrF_regs_wf h .fwmPState 8 8 cause n 0) n
  have h2 := State.wrF_regs_wf h1 .fwmPState 0 2 2 n 0
  rw [State.fpHalted, State.rd_event (State.wrB_regs_wf h2 ..) _ (by decide) (show RegName.fwmPState ≠ .fwmEvent by decide), State.wrB, State.rd_wrF_name h2 (by decide)]

theorem State.state_fpHalted : (s.fpHalted n cause).rdF .fwmPState 0 2 n = 2 := by
  have h1 := State.noteRestart_regs_wf (State.wrF_regs_wf h .fwmPState 8 8 cause n 0) n
  rw [State.rdF, State.rd_fpHalted h]
  exact State.rdF_wrF_self h1 .fwmPState 0 2 2 n 0 (by decide)

theorem State.cause_fpHalted (hc : cause < 256) : (s.fpHalted n cause).rdF .fwmPState 8 8 n = cause := by
  have h1 := State.noteRestart_regs_wf (State.wrF_regs_wf h .fwmPState 8 8 cause n 0) n
  have hself : (s.wrF .fwmPState 8 8 cause n).rdF .fwmPState 8 8 n = cause := (State.rdF_wrF_self h .fwmPState 8 8 cause n 0 (by decide)).trans (Nat.mod_eq_of_lt hc)
  rw [State.rdF, State.rd_fpHalted h]
  exact (State.rdF_wrF_field h1 .fwmPState 0 2 2 8 8 n 0 (by decide) (by decide)).trans hself

theorem State.rdB_fpHalted : (s.fpHalted n cause).rdB .fwmEvent 2 = true := by
  have h1 := State.noteRestart_regs_wf (State.wrF_regs_wf h .fwmPState 8 8 cause n 0) n
  have h3 := State.wrB_regs_wf (State.wrF_regs_wf h1 .fwmPState 0 2 2 n 0) .fwmPCtrl 0 false n 0
  have hraise := WritesLnkStatusOnly.raise (State.wrB_regs_wf h3 .fwmEvent 2 true 0 0) { reg := .fwmEvent, bit := 2, status := cause, value := n }
  rw [State.rdB, State.rdF, State.fpHalted, State.event, State.setB, hraise.rd .fwmEvent (by decide)]
  exact State.rdB_wrB_self h3 .fwmEvent 2 true 0 0 (by decide)

end

section
variable {s : State} {n : Fin 12} (hr : s.fwRuns = true) (hs : s.rdF .fwmPState 0 2 n = 0)
include hr hs

theorem execFpHeartbeatMiss_of_running :
    execFpHeartbeatMiss n s = .next ((s.reach ((s.fw.beats.getD n 0 + 11) * 1000000)).fpRestart n stTimeout false) := by
  simp only [execFpHeartbeatMiss, hr, hs, Bool.not_true, Bool.false_eq_true, ne_eq, not_true_eq_false, or_self, if_false]

theorem execFwRegionFault_of_running (c a : Nat) : execFwRegionFault n c a s = .next (s.event { reg := .fwmEvent, bit := 0, addr := a, value := n, args := [c] }) := by
  simp only [execFwRegionFault, hr, hs, Bool.not_true, Bool.false_eq_true, ne_eq, not_true_eq_false, or_self, if_false]

theorem execFpHeartbeat_of_running : execFpHeartbeat n s = .next { s with fw := { s.fw with beats := s.fw.beats.set n (s.time / 1000000) } } := by
  simp only [execFpHeartbeat, hr, hs, Bool.not_true, Bool.false_eq_true, Nat.reduceLeDiff, or_self, if_false, ne_eq, zero_ne_one, not_false_eq_true, if_true]

end

/-! SPDM, negotiation and the power loop (R17, R31, R593, R594, R600, R607). -/

section
variable {s : State}

section
variable (hr : s.fwRuns = true) (hd : s.fpDown 0 = false)
include hr hd

/-- GET_MEASUREMENTS with operand 0 answers how many measurements there are. -/
theorem execSpdmRequest_of_count : execSpdmRequest 0xE0 [0] s = .next (s.send (.spdm 0x60 [5])) := by
  simp only [execSpdmRequest, hr, hd, Bool.not_true, Bool.or_self, Bool.false_eq_true, if_false, if_true, List.headD_cons]

theorem execSpdmRequest_of_other {c : Nat} (hc : c ≠ 0xE0) (l : List Nat) :
    execSpdmRequest c l s = .next (({ s with free := s.free + 1 } : State).send (.spdm (c % 128) (Config.spdmAnswer c l s.nextFree.1))) := by
  simp only [execSpdmRequest, hr, hd, Bool.not_true, Bool.or_self, Bool.false_eq_true, if_false, if_neg hc]
  rfl

end

theorem execNegotiate_of_up {p : PartId} (h : s.feDown = false) : execNegotiate p s = .next (s.negotiate p) := by
  simp only [execNegotiate, State.feWrite, h, Bool.not_false, if_true]
  rfl

/-- A negotiation is held until its processors run (R17). -/
theorem execNegotiate_of_down {p : PartId} (h : s.feDown = true) : execNegotiate p s =
    .next { s with acc := { s.acc with fe := s.acc.fe.filter (fun x => x.1 != (⟨.prtFeatCtrl, p.val, 0⟩ : RegId)) ++ [(⟨.prtFeatCtrl, p.val, 0⟩, 1)] } } := by
  simp only [execNegotiate, State.feWrite, h, Bool.not_true, Bool.false_eq_true, if_false]

theorem execCoreIslandHwClamp_of_busy (h : s.fpBusy 2 = true ∨ s.fpBusy 6 = true) : execCoreIslandHwClamp s = .next ({ s with fw := { s.fw with clamp := true } } : State).setFreqs := by
  have hb : (s.fpBusy 2 || s.fpBusy 6) = true := by rcases h with h | h <;> simp [h]
  simp only [execCoreIslandHwClamp, hb, Bool.not_true, Bool.false_eq_true, if_false]

/-- Where the second hub's processor is down, a period acts on the first hub alone. -/
theorem execPowerLoopPeriod_of_first {x : LoopSample} (hr : s.fwRuns = true) (h2 : s.fpDown 2 = false) (h6 : s.fpDown 6 = true) (hx : x.inputW ≤ 65535) {t : State}
    (ht : (s.loopPeriod.wrF .fwmInputW 0 16 x.inputW).wr .fwmTherm (BitVec.ofNat 64 (hottest x.coreTemps + 256 * hottest x.stackTemps + 65536 * hottest x.carrierTemps)) = t) :
    execPowerLoopPeriod x s = .next ((t.powerLoop 0 x.inputW ((List.range 256).all (fun k => decide (t.powerOf k ≤ 80)))).thermLoop 0 x).setFreqs := by
  have hubs : [0, 1].filter (fun h => !s.fpDown (2 + 4 * h)) = [0] := by simp [h2, h6]
  simp only [execPowerLoopPeriod, hubs, hr, min_eq_left hx, ht, Bool.not_true, Bool.or_self, List.isEmpty_cons, Bool.false_eq_true, if_false, List.foldl_cons, List.foldl_nil]

end

/-- Settles O54. That the two hubs' islands have a processor each, that a restart shows RESTARTING from its trigger and that the fourth one halts at its trigger are the model's choices (log 54), and so are the answers of
SPDM other than measurements (log 55), the layout of identities and event records (log 57), that a negotiation waits for FP5 and FP9 (log 60), and that a protection fault restarts nothing (log 74). -/
theorem firmwareProcessorEvents : Obligations.FirmwareProcessorEvents := by
  refine ⟨fun s hr h1 hh => ?mailbox, fun s n hr hs hn => ?restart, fun s n t0 l hc hr hs hl h3 ht hd => ?halt,
    fun s hr hd => ⟨execSpdmRequest_of_count hr hd, fun c l hc => ⟨_, execSpdmRequest_of_other hr hd hc l⟩⟩, fun s p h => execNegotiate_of_up h, fun s p h => execNegotiate_of_down h,
    fun s h => execCoreIslandHwClamp_of_busy h, fun s x hr h2 h6 hx => ?loop⟩
  case mailbox =>
    have hu : s.mboxUp = true := by rw [State.mboxUp, hr, h1]; rfl
    refine ⟨⟨_, execGetIdentity_of_up hu, ?_⟩, fun n k h1 h3 hk => execWriteOwnerKey_of_empty hu hh h1 h3 hk k, fun n k v h1 h3 hk => execWriteOwnerKey_of_full hu hh h1 h3 hk k,
      fun n hn hs => execRestartProcessor_of_running hu hh hn hs, fun n hn hs => execRestartProcessor_of_halted hu hh hn hs, execGetEvents_of_up hu,
      fun h i hi => execClearEvents_of_listed hu hi, fun h hn => execClearEvents_of_unlisted hu hn, fun o => ?_⟩
    · simp [State.mboxIdentity]
    · exact congrArg Host.Outcome.next (State.mgmtMbox_of_up hu (Bool.false_and _) rfl o)
  case restart =>
    have hmiss := State.fpRestart_of_few (s := s.reach ((s.fw.beats.getD n 0 + 11) * 1000000)) hr hs hn stTimeout false
    exact ⟨congrArg Host.Outcome.next (State.fpRestart_of_few hr hs hn stFetch false), (execFpHeartbeatMiss_of_running hr hs).trans (congrArg Host.Outcome.next hmiss),
      congrArg Host.Outcome.next (State.fpRestart_of_few hr hs hn stDone true), execFwRegionFault_of_running hr hs, execFpHeartbeat_of_running hr hs⟩
  case halt =>
    exact ⟨_, congrArg Host.Outcome.next (State.fpRestart_of_many hr hs hl h3 ht hd stFetch false), State.state_fpHalted hc.regs n, State.cause_fpHalted hc.regs n (by decide),
      State.rdB_fpHalted hc.regs n⟩
  case loop => exact execPowerLoopPeriod_of_first hr h2 h6 hx rfl

end Sys2Proof.Machine
end
